-- ==== Sys2Proof/Word.lean ====
section
/-! DEFINITION. The word types of the VC-8 model (00_scope.md, Conventions): bytes, 16-, 32- and 64-bit words,
host addresses, and the numbers of ports, lens units, trigger sources, frame sets and flex bins. -/

namespace Sys2Proof

/-- One byte (u8). -/
abbrev Byte := BitVec 8
/-- A 16-bit word (u16, or i16 where the field is signed). -/
abbrev U16 := BitVec 16
/-- A 32-bit word (u32, or i32 where the field is signed). -/
abbrev U32 := BitVec 32
/-- A 64-bit word. -/
abbrev U64 := BitVec 64
/-- A host memory address; addresses are 64-bit (00_scope.md, Records). -/
abbrev Addr := BitVec 64

/-- Port P0 to P7. -/
abbrev PortId := Fin 8
/-- Lens unit U1 to U4, numbered from 0. -/
abbrev UnitId := Fin 4
/-- Trigger source T0 to T3. -/
abbrev SourceId := Fin 4
/-- Frame set S0 to S3. -/
abbrev SetId := Fin 4
/-- Flex bin 0 to 31. -/
abbrev BinId := Fin 32

/-- One of the two encoder axes (R64). -/
inductive Axis where
  | a
  | b
  deriving DecidableEq, Repr

/-- One of the two digital inputs (R66). -/
inductive Input where
  | in0
  | in1
  deriving DecidableEq, Repr

/-- One of the two gathered interrupt groups (R187). -/
inductive GatherGroup where
  | frames
  | commands
  deriving DecidableEq, Repr

end Sys2Proof
end

