-- ==== Sys2Proof/Syntax.lean ====
section
/-! DEFINITION. The commands of the VC-8: one constructor of `Instr` for each row of spec/opcode_table.json, and the
command records of host memory (R201) as `Command`. A command's operands are what its sender delivers: the value of a
register write, the address and argument fields of a command record, or what the cable, the supply, an encoder or a
timer shows the card (log 3, log 8). -/

namespace Sys2Proof

/-- A write by the host into its own memory, made before the register write that carries it (log 7). -/
structure HostWrite where
  addr : Addr
  bytes : List Byte
  deriving DecidableEq, Repr

/-- An access of the register window: offset, width in bits, and the value of a write (none for a read) (R197). -/
structure RegAccess where
  offset : Nat
  width : Nat
  value : Option U32
  deriving DecidableEq, Repr

/-- What HARD_RESET finds at the card's inputs: the supply (R19), the input lines (R66) and the encoder channels (R64). -/
structure ResetInputs where
  supplyMv : U32
  in0 : Bool
  in1 : Bool
  a1 : Bool
  a2 : Bool
  b1 : Bool
  b2 : Bool
  deriving DecidableEq, Repr

/-- The argument fields of CONFIGURE_PORT, in the order of R201. -/
structure ConfigArgs where
  groups : Byte
  cls : Byte
  retryCount : Byte
  autoSweep : Byte
  cooldown : U16
  lensMode : Byte
  policy : Byte
  lateAction : Byte
  fallbackCount : Byte
  deadline : U16
  fallback : Vector (Byte × U16) 4
  timeLimit : U16
  erasure : Byte
  fillValue : U16
  cableLength : U32
  tolerance : U16
  vf : U16
  offset : U16
  minor : U16
  deriving DecidableEq, Repr

/-- The argument fields of SET_SOURCE, in the order of R201; `which` is the input or the axis. -/
structure SourceArgs where
  source : Byte
  kind : Byte
  which : Byte
  direction : Byte
  mask : Byte
  debounce : U16
  origin : U32
  pitch : U32
  limit : U32
  deriving DecidableEq, Repr

/-- The argument fields of HEAD_ACCESS (R58, R201). -/
structure HeadArgs where
  unit : Byte
  direction : Byte
  count : Byte
  address : U16
  words : Vector U16 8
  deriving DecidableEq, Repr

/-- The argument fields of SET_LENS_TABLE: unit, point count and nine places of (setpoint, code) (R86, R201). -/
structure TableArgs where
  unit : Byte
  count : Byte
  points : Vector (U16 × U16) 9
  deriving DecidableEq, Repr

/-- A command record of the command list (R184) with its port, where it names one, and its argument fields (R201). -/
inductive Command where
  | portPower (port action : Byte)
  | setBudget (budget : U32)
  | configurePort (port : Byte) (args : ConfigArgs)
  | resetPort (port : Byte)
  | clearAlerts (ports cellFlags : Byte) (portFlags : U16)
  | setGather (group count : Byte) (time : U16)
  | headAccess (port : Byte) (args : HeadArgs)
  | setSource (args : SourceArgs)
  | setPattern (port length : Byte) (bits : U16)
  | softTrigger (source : Byte)
  | setAxisPosition (axis : Byte) (value : U32)
  | setLensTable (port : Byte) (args : TableArgs)
  | formSet (set members : Byte)
  | dissolveSet (set : Byte)
  | cableSweep (port averages : Byte)
  | setFlexAxis (port axis : Byte) (threshold : U16) (low high : U32)
  | readFlexMap (port : Byte)
  | clearFlexMap (port : Byte)
  | releaseSnapshot (port : Byte)
  deriving DecidableEq, Repr

/-- The commands of the block: one constructor per row of spec/opcode_table.json. -/
inductive Instr where
  -- the register window (R177 to R183, R188, R196, R197)
  | cellStart (value : U32) (posted : List HostWrite)
  | cellStop (value : U32)
  | cellStopped
  | blockAddressWrite (high : Bool) (value : U32)
  | tap (value : U32) (posted : List HostWrite)
  | causeClear (value : U32)
  | causeEnableWrite (value : U32)
  | registerWriteIgnored (access : RegAccess)
  | hardReset (inputs : ResetInputs)
  -- command records: the record's address and its arguments (R184, R201)
  | portPowerOn (rec : Addr) (port : Byte)
  | portPowerOff (rec : Addr) (port : Byte)
  | setBudget (rec : Addr) (budget : U32)
  | configurePort (rec : Addr) (port : Byte) (args : ConfigArgs)
  | resetPort (rec : Addr) (port : Byte)
  | clearAlerts (rec : Addr) (ports cellFlags : Byte) (portFlags : U16)
  | setGather (rec : Addr) (group count : Byte) (time : U16)
  | headAccess (rec : Addr) (port : Byte) (args : HeadArgs)
  | setSource (rec : Addr) (args : SourceArgs)
  | setPattern (rec : Addr) (port length : Byte) (bits : U16)
  | softTrigger (rec : Addr) (source : Byte)
  | setAxisPosition (rec : Addr) (axis : Byte) (value : U32)
  | setLensTable (rec : Addr) (port : Byte) (args : TableArgs)
  | formSet (rec : Addr) (set members : Byte)
  | dissolveSet (rec : Addr) (set : Byte)
  | cableSweep (rec : Addr) (port averages : Byte)
  | setFlexAxis (rec : Addr) (port axis : Byte) (threshold : U16) (low high : U32)
  | readFlexMap (rec : Addr) (port : Byte)
  | clearFlexMap (rec : Addr) (port : Byte)
  | releaseSnapshot (rec : Addr) (port : Byte)
  -- port power and the cell supply (R5 to R19)
  | detectComplete (p : PortId) (ohms : Nat)
  | inrushComplete (p : PortId)
  | inrushTimeout (p : PortId)
  | foldbackEntry (p : PortId) (ma : U16)
  | foldbackReturn (p : PortId) (ma : U16)
  | foldbackTimeout (p : PortId)
  | shortThreshold (p : PortId) (ma : U16)
  | cooldownExpiry (p : PortId)
  | supplyLow (mv : U32)
  | supplyRestored (mv : U32)
  -- the camera link (R24 to R34) and its frames (R109 to R120); a mark is its eight bytes, a burst its bytes after the mark
  | huntExactMark (p : PortId) (mark : U64)
  | confirmMark (p : PortId) (mark : U64)
  | lockedMark (p : PortId) (mark : U64)
  | recoveryWindowClose (p : PortId)
  | carrierLoss (p : PortId)
  | carrierReturn (p : PortId)
  | confirmBurstEnd (p : PortId) (burst : List Byte)
  | frameOpen (p : PortId) (burst : List Byte)
  | line (p : PortId) (burst : List Byte)
  | frameClose (p : PortId) (burst : List Byte)
  | fillBurst (p : PortId) (burst : List Byte)
  | damagedBurst (p : PortId) (burst : List Byte)
  | frameTimeout (p : PortId) (trigger : U32)
  -- the control channel (R44 to R55)
  | unitAnswer (p : PortId) (ack : Bool)
  | holdSign (p : PortId)
  | holdAnswer (p : PortId) (ack : Bool)
  | readDataWord (p : PortId) (word : U16)
  | replyTimeout (p : PortId)
  | holdLimit (p : PortId)
  | noteStart (p : PortId) (collides : Bool)
  | overtempNote (p : PortId)
  | lensFaultNote (p : PortId) (unit : Byte)
  | headRestartedNote (p : PortId)
  | noteDiscarded (p : PortId)
  | noteTimeout (p : PortId)
  | pingRetryTimeout (p : PortId)
  -- axes, inputs and lens (R64, R66, R95)
  | axisCount (axis : Axis) (ch1 ch2 : Bool)
  | inputRise (input : Input)
  | inputFall (input : Input)
  | debounceExpiry (input : Input)
  | lensDeadline (p : PortId)
  -- sweeps (R147, R158), gathering (R187) and late RUN changes (R180)
  | sweepComplete (samples : List (List (BitVec 14)))
  | gatherTimeout (group : GatherGroup)
  | runChangeInStoppingOrFault (value : U32)
  deriving DecidableEq, Repr

end Sys2Proof
end

