-- ==== Sys2Proof/Decode.lean ====
section
/-! DEFINITION. The reader of table words. No row of spec/opcode_table.json gives bits: the card's commands are register
accesses, command records and events, not instruction words, so no word spells a command. Command records have their own
reader, `Sys2Proof.Machine.decodeCommand` (R201). -/

namespace Sys2Proof

/-- The command a table word spells: none, since the table gives no row any bits. -/
def decodeTableWord (_nbits _w : Nat) : Option Instr := none

end Sys2Proof
end

