-- ==== Sys2Proof/Config.lean ====
section
/-! DEFINITION. What a particular card and cell fix: the inputs as the model's own reset state finds them. The spec
leaves no VALUE of a run open that the model would have to keep free, so there is no opaque constant here. -/

namespace Sys2Proof.Config

/-- The cell supply at the model's reset state, in mV (DESIGN CHOICE, log 13: the nominal 24 V; unsafe). -/
def resetSupplyMv : U32 := 24000#32

/-- The level of every digital input and encoder channel at the model's reset state (DESIGN CHOICE, log 13; unsafe). -/
def resetLevel : Bool := false

end Sys2Proof.Config
end

