-- ==== Sys2Proof/Machine/State.lean ====
section
/-! DEFINITION. Everything the spec gives the VC-8 to hold, block by block, as plain data, and the machine after
hard reset. INVENTORY.md lists every field with its rule and its reset value. -/

namespace Sys2Proof.Machine

/-! ## Codes and small enumerations (R202) -/

/-- Completion codes, power causes, frame statuses and skip reasons: one table of names (R202). `ok` is OK and NONE. -/
inductive Code where
  | ok | badCommand | badPort | badArgument | badRecord | portActive | portPowered | portBusy | inProgress
  | setConflict | mixedSource | supplyLow | linkDown
  | nack | noReply | linkLost | powerLost | headRestart | portReset | stopped | cancelled
  | shortDetect | noHead | badSignature | inrushFail | overload | short | shed | hostOff
  | notReady | overtrigger | noBuffer | lensDry
  | complete | partialFrame | truncated | closeLost | missed | timedOut | exposeRefused | lensLate | lensFailed
  | badGeometry
  deriving DecidableEq, Repr

/-- The cell state shown by STATE (R177, R197). -/
inductive CellState where
  | stopped | starting | running | stopping | blockFault
  deriving DecidableEq, Repr

/-- The state words of records (R200). -/
inductive RecordState where
  | posted | taken | bound | filling | held | done | failed
  deriving DecidableEq, Repr

/-- The three interrupt groups, by vector (R188, R197). -/
inductive Group where
  | frames | commands | alerts
  deriving DecidableEq, Repr

/-- The port power states (chapter Port Power, R202). -/
inductive PowerState where
  | off | detect | queued | inrush | on | foldback | tripped
  deriving DecidableEq, Repr

/-- The power classes (R1). -/
inductive PowerClass where
  | a | b | c | d
  deriving DecidableEq, Repr

/-- The link states (R27 to R31). -/
inductive LinkState where
  | down | hunt | confirm | locked
  deriving DecidableEq, Repr

/-- Why a locked link was lost (R35). -/
inductive DropCause where
  | none | marks | signal
  deriving DecidableEq, Repr

/-- The burst kinds of R25, and DAMAGED, as the history window names them (R39). -/
inductive BurstKind where
  | frameOpen | line | frameClose | fill | damaged
  deriving DecidableEq, Repr

/-- The control channel's states (chapter Control Channel). -/
inductive ChannelState where
  | suspended | idle | sending | note
  deriving DecidableEq, Repr

/-- A debouncer's states (R66). -/
inductive DebounceState where
  | low | rising | high
  deriving DecidableEq, Repr

/-- Underrun policies (R88, R90). -/
inductive Underrun where
  | hold | fallback | skipTake
  deriving DecidableEq, Repr

/-- Late actions (R97). -/
inductive LateAction where
  | expose | drop
  deriving DecidableEq, Repr

/-- Lens phase outcomes (R96, R202). -/
inductive LensOutcome where
  | none | held | unchanged | moved | failed | late
  deriving DecidableEq, Repr

/-- What became of one unit in a lens phase (R99, R202). -/
inductive UnitResult where
  | moved | unchanged | refused | cut | notReached | noTable | absent
  deriving DecidableEq, Repr

/-- The phases of an exposure entry (R105). -/
inductive EntryPhase where
  | lensWait | lensMoving | exposeQueued | exposed | filling
  deriving DecidableEq, Repr

/-- Store formats of image records (R113). -/
inductive StoreFormat where
  | packed | wide16 | wide16Swap
  deriving DecidableEq, Repr

/-- Erasure fills (R107, R117). -/
inductive Erasure where
  | zero | fill | copyLast
  deriving DecidableEq, Repr

/-- A port's sweep state (R142). -/
inductive SweepState where
  | none | queued | measuring
  deriving DecidableEq, Repr

/-- Who asked for a sweep (R141). -/
inductive Origin where
  | host | auto
  deriving DecidableEq, Repr

/-- Directions of a PITCH source (R67). -/
inductive Direction where
  | forward | reverse
  deriving DecidableEq, Repr

/-- A chain of the Cell Block (R181). -/
inductive ChainId where
  | command
  | image (p : PortId)
  | lens (p : PortId)
  deriving DecidableEq, Repr

/-! ## The Chain Engine -/

/-- A progress entry (R186). -/
structure Progress where
  count : U32 := 0
  last : Addr := 0
  deriving DecidableEq, Repr

/-- The gather state of a group; a running timer holds the time it was started with, in ms (R187, log 4). -/
structure Gather where
  count : Nat := 1
  timeMs : Nat := 1
  pending : Nat := 0
  timer : Option Nat := none
  deriving DecidableEq, Repr

/-- The Chain Engine's state (chapter Working Memory). -/
structure ChainEngine where
  run : Bool := false
  cell : CellState := .stopped
  block : Addr := 0
  portCount : Byte := 0
  cursors : Vector (Option Addr) 17 := .replicate 17 none
  progress : Vector Progress 17 := .replicate 17 {}
  inHand : Nat := 0
  walking : Bool := false
  tapPending : Bool := false
  cause : BitVec 3 := 0
  enable : BitVec 3 := 0
  frames : Gather := {}
  commands : Gather := {}
  cellAlerts : BitVec 2 := 0
  mirrorCount : U32 := 0
  mirrorDue : Bool := false
  deriving DecidableEq, Repr

/-- What the card puts on PCI Express: a DMA write, or the message of a group (R185, R188). -/
inductive BusEvent where
  | write (addr : Addr) (bytes : List Byte)
  | message (group : Group)
  deriving DecidableEq, Repr

/-! ## The Power Controller -/

/-- The cell's power state: budget, queue, grant order, reserved sum, supply (R6, R8, R16, R18). -/
structure PowerCell where
  budget : Nat := 480
  queue : List PortId := []
  grants : List PortId := []
  reserved : Nat := 0
  supplyLow : Bool := false
  supplyMv : U32 := 0
  deriving DecidableEq, Repr

/-- A port's power state and settings (R1 to R23). Running timers hold their length in ms. -/
structure PortPower where
  state : PowerState := .off
  cause : Code := .ok
  cls : PowerClass := .a
  clsInUse : PowerClass := .a
  retryCount : Nat := 0
  cooldownS : Nat := 5
  autoSweep : Bool := false
  retries : Nat := 0
  pendingOn : Bool := false
  onCommand : Option Addr := none
  detectTimer : Option Nat := none
  inrushTimer : Option Nat := none
  foldbackTimer : Option Nat := none
  cooldown : Option Nat := none
  expired : Bool := false
  loadMa : U16 := 0
  deriving DecidableEq, Repr

/-! ## The Link Receiver -/

/-- Where the next mark is due (R24): nowhere, at the end of the announced length, or within a recovery window of so many bytes,
counted from the first byte of the bad mark. -/
inductive Boundary where
  | none
  | announced (length : Nat)
  | window (length : Nat)
  deriving DecidableEq, Repr

/-- The burst in progress (R26): begun by an exact mark, with its announced length, or by a bad mark. -/
inductive BurstStart where
  | exact (length : Nat)
  | bad
  deriving DecidableEq, Repr

/-- One entry of the history window (R39). -/
structure HistoryEntry where
  kind : BurstKind
  exact : Bool
  deriving DecidableEq, Repr

/-- A port's Link Receiver (chapter The Camera Link). -/
structure LinkRx where
  state : LinkState := .down
  confirm : Nat := 0
  misses : Nat := 0
  boundary : Boundary := .none
  burst : Option BurstStart := none
  history : List HistoryEntry := []
  bursts : U32 := 0
  damaged : U32 := 0
  drops : U16 := 0
  lastDrop : DropCause := .none
  carrier : Bool := true
  deriving DecidableEq, Repr

/-! ## The Control Channel Controller -/

/-- One unit part of a transaction (R44): unit 0 is the head. A READ carries the count, a WRITE its words. -/
structure UnitPart where
  unit : Nat
  write : Bool
  address : U16
  words : List U16
  count : Nat
  deriving DecidableEq, Repr

/-- A HEAD_ACCESS command waiting or in progress: its record and its one part (R58). -/
structure HeadAccess where
  recAt : Addr
  part : UnitPart
  deriving DecidableEq, Repr

/-- A message of the HEAD class (R49). -/
inductive HeadMessage where
  | access (h : HeadAccess)
  | ping
  deriving DecidableEq, Repr

/-- A LENS message: the entry it serves, and a unit with its drive code for each part, in ascending unit order (R94). -/
structure LensMessage where
  trigger : U32
  parts : List (UnitId × Nat)
  deriving DecidableEq, Repr

/-- A message of the card (R48). An EXPOSE names its entry by the trigger number. -/
inductive Message where
  | expose (trigger : U32)
  | lens (m : LensMessage)
  | access (h : HeadAccess)
  | ping
  deriving DecidableEq, Repr

/-- What the card waits for within a part (R44 to R47). -/
inductive Stage where
  | header
  | word (index : Nat)
  | hold
  | data
  deriving DecidableEq, Repr

/-- A transaction in progress: the part being sent, the stage, the words of this part acknowledged, the data read (R44, R45). -/
structure Txn where
  message : Message
  part : Nat
  stage : Stage
  acked : Nat
  data : List U16
  deriving DecidableEq, Repr

/-- How a transaction ends of itself (R45, R47). -/
inductive TxnEnd where
  | acknowledged | nack | noReply
  deriving DecidableEq, Repr

/-- A head identity (R55). -/
structure Identity where
  model : U16
  boot : U16
  presence : BitVec 4
  maxWidth : U16
  maxHeight : U16
  deriving DecidableEq, Repr

/-- A port's Control Channel Controller (chapter Control Channel). Running timers hold their length in ms. -/
structure Channel where
  state : ChannelState := .suspended
  txn : Option Txn := none
  replyTimer : Option Nat := none
  holdTimer : Option Nat := none
  noteTimer : Option Nat := none
  exposes : List U32 := []
  lensMsgs : List LensMessage := []
  heads : List HeadMessage := []
  identity : Option Identity := none
  noCompare : Bool := false
  ready : Bool := false
  retryTimer : Option Nat := none
  failures : U32 := 0
  deriving DecidableEq, Repr

/-- What the card sends on a control channel (R44, R47). -/
inductive Symbol where
  | startMark
  | continuationMark
  | header (unit : Nat) (write : Bool) (address : U16)
  | word (value : U16)
  | count (n : Nat)
  | endMark
  | abortMark
  deriving DecidableEq, Repr

/-- A symbol sent on a port's control channel. -/
structure CableEvent where
  port : PortId
  symbol : Symbol
  deriving DecidableEq, Repr

/-! ## The Trigger Sequencer -/

/-- An axis: its position (32-bit signed) and the last sampled levels of its two channels (R64). -/
structure AxisState where
  position : U32 := 0
  ch1 : Bool := false
  ch2 : Bool := false
  deriving DecidableEq, Repr

/-- A debouncer; settings and timers in microseconds (R66). -/
structure Debouncer where
  state : DebounceState := .low
  setting : Nat := 0
  timer : Option Nat := none
  deriving DecidableEq, Repr

/-- The programme of a PITCH source (R67). -/
structure PitchProgramme where
  axis : Axis
  origin : U32
  pitch : Nat
  direction : Direction
  limit : U32
  deriving DecidableEq, Repr

/-- A source's kind with its programme (R67). -/
inductive SourceKind where
  | none
  | input (i : Input)
  | pitch (g : PitchProgramme)
  deriving DecidableEq, Repr

/-- A trigger source (R67 to R71). -/
structure Source where
  kind : SourceKind := .none
  active : Bool := false
  next : Option U32 := none
  mask : BitVec 8 := 0
  number : U32 := 0
  made : U32 := 0
  deriving DecidableEq, Repr

/-- The Trigger Sequencer's state for the cell (chapter Triggers). -/
structure TriggerCell where
  clock : U64 := 0
  axisA : AxisState := {}
  axisB : AxisState := {}
  in0 : Debouncer := {}
  in1 : Debouncer := {}
  sources : Vector Source 4 := .replicate 4 {}
  deriving DecidableEq, Repr

/-- A port's take pattern and counters (R75, R78). -/
structure Taker where
  length : Nat := 1
  bits : U16 := 1
  position : Nat := 0
  lastTrigger : U32 := 0
  takes : U32 := 0
  skips : U32 := 0
  notReady : U32 := 0
  overtrigger : U32 := 0
  noBuffer : U32 := 0
  lensDry : U32 := 0
  deriving DecidableEq, Repr

/-! ## The Lens Controller -/

/-- A point of a calibration table: setpoint and drive code (R84). -/
abbrev TablePoint := Int × Nat

/-- A target unit of a phase: setpoint, drive code if one was computed, result so far, CLAMPED (R93, R99). -/
structure Target where
  unit : UnitId
  setpoint : Int
  code : Option Nat
  result : Option UnitResult
  clamped : Bool
  deriving DecidableEq, Repr

/-- A lens phase in LENS_MOVING (R92 to R95): the entry served, start time, targets in the order of the record, flags
(FALLBACK, CLAMPED, NO_TABLE, BAD_RECORD at bits 0 to 3) and the deadline timer in ms. -/
structure LensPhase where
  trigger : U32
  started : U64
  targets : List Target
  flags : BitVec 4
  deadline : Option Nat
  deriving DecidableEq, Repr

/-- A held SET_LENS_TABLE command (R86). -/
structure HeldTable where
  recAt : Addr
  unit : UnitId
  points : List TablePoint
  deriving DecidableEq, Repr

/-- A port's share of the Lens Controller (chapter Lens Settings). A missing known code is UNKNOWN; an empty table is none. -/
structure LensState where
  tables : Vector (List TablePoint) 4 := .replicate 4 []
  known : Vector (Option Nat) 4 := .replicate 4 none
  clamped : Vector Bool 4 := .replicate 4 false
  chain : Bool := false
  policy : Underrun := .hold
  fallback : List (UnitId × Int) := []
  deadlineMs : Nat := 50
  lateAction : LateAction := .expose
  phase : Option LensPhase := none
  held : List HeldTable := []
  deriving DecidableEq, Repr

/-! ## The Frame Writer -/

/-- The fields of a FRAME-OPEN (R25). -/
structure FrameHeader where
  tag : U16
  counter : U32
  width : Nat
  height : Nat
  depth : Nat
  exposure : U32
  deriving DecidableEq, Repr

/-- The FRAME-OPEN matched to an entry, with the bytes per line and the cell time of the match (R111). -/
structure Match where
  header : FrameHeader
  bytesPerLine : Nat
  time : U64
  deriving DecidableEq, Repr

/-- An exposure entry (R80, R96, R108, R111). The buffer fields and the lens pairs are the records' H fields as read at
the take (log 15). -/
structure Entry where
  source : SourceId
  trigger : U32
  axisA : U32
  axisB : U32
  time : U64
  image : Addr
  bufAddr : Addr
  bufSize : Nat
  stride : Nat
  format : StoreFormat
  lensRec : Option Addr
  lensPairs : Option (List (UnitId × Int))
  badLens : Bool
  set : Option (SetId × U32)
  phase : EntryPhase
  outcome : LensOutcome
  flags : BitVec 4
  exposedAt : U64
  timer : Option Nat
  opened : Option Match
  deriving DecidableEq, Repr

/-- The frame being filled (R106). Ranges are (first line, count). -/
structure Filling where
  trigger : U32
  header : FrameHeader
  bytesPerLine : Nat
  next : Nat
  ranges : List (Nat × Nat)
  overflow : Bool
  written : Nat
  erased : Nat
  cut : Nat
  truncated : Bool
  lastLine : Option (List Byte)
  deriving DecidableEq, Repr

/-- A port's receive state (R106). -/
inductive Receive where
  | idle
  | filling (f : Filling)
  | discarding
  deriving DecidableEq, Repr

/-- A port's share of the Frame Writer (chapter Exposures). -/
structure FrameRx where
  entries : List Entry := []
  recv : Receive := .idle
  limitMs : Nat := 200
  erasure : Erasure := .zero
  fillValue : U16 := 0
  strayFrames : U32 := 0
  strayCloses : U32 := 0
  lateLines : U32 := 0
  beyondLines : U32 := 0
  badLines : U32 := 0
  deriving DecidableEq, Repr

/-! ## The Set Coordinator -/

/-- A slot of an open-set item: the member's port, its bound image record, and its close status once closed (R133). -/
structure Slot where
  port : PortId
  image : Addr
  status : Option Code
  deriving DecidableEq, Repr

/-- An open-set item (R133). -/
structure SetItem where
  number : U32
  source : SourceId
  trigger : U32
  slots : List Slot
  deriving DecidableEq, Repr

/-- A frame set (R127). The last skip reason is a code and, where one is named, a member. -/
structure FrameSet where
  formed : Bool := false
  mask : BitVec 8 := 0
  number : U32 := 0
  skips : U32 := 0
  reason : Option (Code × Option PortId) := none
  items : List SetItem := []
  deriving DecidableEq, Repr

/-! ## The Cable Test Unit -/

/-- A port's five sweep settings (R145). -/
structure SweepSettings where
  length : Nat := 0
  tolerance : Nat := 500
  vf : Nat := 660
  offset : Nat := 96
  minor : Nat := 60
  deriving DecidableEq, Repr

/-- A queued sweep (R141, R144). -/
structure SweepEntry where
  port : PortId
  origin : Origin
  cause : Code
  averages : Nat
  recAt : Option Addr
  deriving DecidableEq, Repr

/-- The sweep in progress (R146). `sums` are the running sums of its repetitions, empty before the first (R147). -/
structure Measuring where
  entry : SweepEntry
  settings : SweepSettings
  started : U64
  powerAtStart : PowerState
  sums : List Int
  deriving DecidableEq, Repr

/-- The shared front end and its queue (R141). -/
structure SweepUnit where
  front : Option Measuring := none
  queue : List SweepEntry := []
  deriving DecidableEq, Repr

/-- A port's share of the Cable Test Unit (R142, R145). -/
structure PortSweep where
  state : SweepState := .none
  settings : SweepSettings := {}
  count : U32 := 0
  deriving DecidableEq, Repr

/-! ## The Flex Mapper -/

/-- The contents of a drop snapshot (R171). -/
structure Snapshot where
  cause : DropCause
  time : U64
  axisA : U32
  axisB : U32
  bin : Option BinId
  current : U16
  power : PowerState
  history : List HistoryEntry
  bursts : U32
  damaged : U32
  frame : Option (SourceId × U32)
  deriving DecidableEq, Repr

/-- A port's share of the Flex Mapper (chapter Flex Maps). The snapshot is locked while it is present. -/
structure FlexMap where
  axis : Option Axis := none
  low : U32 := 0
  high : U32 := 0
  threshold : Nat := 512
  bins : Vector Nat 32 := .replicate 32 0
  total : U32 := 0
  suspects : List BinId := []
  overflow : Nat := 0
  snapshot : Option Snapshot := none
  dropsLocked : Nat := 0
  noteBursts : U32 := 0
  noteDamaged : U32 := 0
  deriving DecidableEq, Repr

/-! ## A port, and the whole machine -/

/-- Everything the card keeps for one port. -/
structure Port where
  power : PortPower := {}
  link : LinkRx := {}
  ctl : Channel := {}
  take : Taker := {}
  lens : LensState := {}
  frame : FrameRx := {}
  sweep : PortSweep := {}
  flex : FlexMap := {}
  alerts : BitVec 11 := 0
  mirrorCount : U32 := 0
  mirrorDue : Bool := false
  deriving DecidableEq, Repr

/-- The items of a port whose change writes the port's mirror (R192). -/
structure MirrorKey where
  power : PowerState × Code × Bool × Nat
  link : LinkState
  head : Bool × Option Identity
  known : Vector (Option Nat) 4
  alerts : BitVec 11
  sweep : SweepState
  flex : Option Axis × Nat × Option BinId × Bool × Nat
  deriving DecidableEq, Repr

/-- The VC-8 with the host memory it reads and writes, and the queue of waiting commands (INVENTORY.md). -/
structure State where
  pending : List Instr := []
  mem : List Host.Cell := []
  bus : List BusEvent := []
  cable : List CableEvent := []
  chain : ChainEngine := {}
  power : PowerCell := {}
  trig : TriggerCell := {}
  sets : Vector FrameSet 4 := .replicate 4 {}
  sweeps : SweepUnit := {}
  ports : Vector Port 8 := .replicate 8 {}
  deriving DecidableEq, Repr

/-- Why the machine could stop with a fault: nothing in the spec stops the card, so there is none (safe). -/
inductive Fault where
  deriving DecidableEq, Repr

/-- Why a command could be refused. -/
inductive Refusal where
  /-- The dispatch itself, for a command with no meaning yet; no arm uses it (safe). -/
  | notModelled (mnemonic : String)
  deriving DecidableEq, Repr

/-- The machine right after hard reset with the supply at 24 V and every input low (R23, R43, R62, R83, R104, R126, R140,
R162, R176, R196; log 13). Every field stands at its default above. -/
def State.reset : State := { power := { supplyMv := Config.resetSupplyMv } }

end Sys2Proof.Machine
end

