-- ==== Sys2Proof/Machine/Bytes.lean ====
section
/-! DEFINITION. Byte order (little-endian throughout, 00_scope.md, Records), the code numbers of R200 and R202, and host
memory as a sparse list of bytes in canonical form. -/

namespace Sys2Proof.Machine

/-! ## Little-endian fields -/

/-- The low `k` bytes of a number, least significant first. -/
def leBytes : Nat → Nat → List Byte
  | 0, _ => []
  | k + 1, n => BitVec.ofNat 8 n :: leBytes k (n / 256)

/-- The number a little-endian field holds. -/
def leValue : List Byte → Nat
  | [] => 0
  | b :: bs => b.toNat + 256 * leValue bs

/-- The `k`-byte field at offset `off` of a structure. -/
def field (bs : List Byte) (off k : Nat) : Nat := leValue ((bs.drop off).take k)

/-- A u8 field. -/
def u8 (n : Nat) : List Byte := leBytes 1 n
/-- A u16 or i16 field. -/
def u16 (n : U16) : List Byte := leBytes 2 n.toNat
/-- A u32 or i32 field. -/
def u32 (n : U32) : List Byte := leBytes 4 n.toNat
/-- A u64 field. -/
def u64 (n : U64) : List Byte := leBytes 8 n.toNat
/-- A flag in a u8 field. -/
def flag (b : Bool) : List Byte := u8 (if b then 1 else 0)
/-- Reserved bytes, written 0 (R198). -/
def zeros (n : Nat) : List Byte := List.replicate n 0

/-! ## Code numbers -/

/-- The number of a code (R202). -/
def codeNumber : Code → Nat
  | .ok => 0 | .badCommand => 1 | .badPort => 2 | .badArgument => 3 | .badRecord => 4 | .portActive => 5
  | .portPowered => 6 | .portBusy => 7 | .inProgress => 8 | .setConflict => 9 | .mixedSource => 10
  | .supplyLow => 11 | .linkDown => 12
  | .nack => 16 | .noReply => 17 | .linkLost => 18 | .powerLost => 19 | .headRestart => 20
  | .portReset => 21 | .stopped => 22 | .cancelled => 23
  | .shortDetect => 32 | .noHead => 33 | .badSignature => 34 | .inrushFail => 35 | .overload => 36
  | .short => 37 | .shed => 38 | .hostOff => 39
  | .notReady => 40 | .overtrigger => 41 | .noBuffer => 42 | .lensDry => 43
  | .complete => 48 | .partialFrame => 49 | .truncated => 50 | .closeLost => 51 | .missed => 52
  | .timedOut => 53 | .exposeRefused => 54 | .lensLate => 55 | .lensFailed => 56 | .badGeometry => 57

/-- The value of a record's state word (R200). -/
def recordStateNumber : RecordState → Nat
  | .posted => 1 | .taken => 2 | .bound => 3 | .filling => 4 | .held => 5 | .done => 6 | .failed => 7

/-- The value of STATE (R197). -/
def cellStateNumber : CellState → Nat
  | .stopped => 0 | .starting => 1 | .running => 2 | .stopping => 3 | .blockFault => 4

/-- The value of a power state (R202). -/
def powerStateNumber : PowerState → Nat
  | .off => 0 | .detect => 1 | .queued => 2 | .inrush => 3 | .on => 4 | .foldback => 5 | .tripped => 6

/-- The value of a power class (R202). -/
def powerClassNumber : PowerClass → Nat
  | .a => 0 | .b => 1 | .c => 2 | .d => 3

/-- The value of a link state (R202). -/
def linkStateNumber : LinkState → Nat
  | .down => 0 | .hunt => 1 | .confirm => 2 | .locked => 3

/-- The value of a drop cause (R202). -/
def dropCauseNumber : DropCause → Nat
  | .none => 0 | .marks => 1 | .signal => 2

/-- The kind bits of a history entry (R202). -/
def burstKindNumber : BurstKind → Nat
  | .frameOpen => 1 | .line => 2 | .frameClose => 3 | .fill => 4 | .damaged => 5

/-- A history entry as a byte: kind in bits 6 to 0, mark exact in bit 7 (R202). -/
def historyByte (h : HistoryEntry) : Nat := burstKindNumber h.kind + (if h.exact then 128 else 0)

/-- The value of a flex axis (R202). -/
def axisNumber : Option Axis → Nat
  | none => 0 | some .a => 1 | some .b => 2

/-- The value of an underrun policy (R202). -/
def underrunNumber : Underrun → Nat
  | .hold => 0 | .fallback => 1 | .skipTake => 2

/-- The value of a late action (R202). -/
def lateActionNumber : LateAction → Nat
  | .expose => 0 | .drop => 1

/-- The value of a lens outcome (R202). -/
def lensOutcomeNumber : LensOutcome → Nat
  | .none => 0 | .held => 1 | .unchanged => 2 | .moved => 3 | .failed => 4 | .late => 5

/-- The value of a unit result (R202). -/
def unitResultNumber : UnitResult → Nat
  | .moved => 1 | .unchanged => 2 | .refused => 3 | .cut => 4 | .notReached => 5 | .noTable => 6 | .absent => 7

/-- The value of an erasure fill (R202). -/
def erasureNumber : Erasure → Nat
  | .zero => 0 | .fill => 1 | .copyLast => 2

/-- The value of a sweep state (R202). -/
def sweepStateNumber : SweepState → Nat
  | .none => 0 | .queued => 1 | .measuring => 2

/-- The value of a sweep's origin (R202). -/
def originNumber : Origin → Nat
  | .host => 0 | .auto => 1

/-- An optional port, set or bin as a u8, 0xFF for none (R198). -/
def orFF {n : Nat} : Option (Fin n) → List Byte
  | none => u8 0xFF
  | some k => u8 k.val

/-- An optional drive code as a u16, 0xFFFF for UNKNOWN or no code (R198). -/
def codeOrFFFF : Option Nat → List Byte
  | none => leBytes 2 0xFFFF
  | some c => leBytes 2 c

/-! ## Host memory -/

/-- What an unlisted byte of host memory reads as (DESIGN CHOICE, log 5; unsafe). -/
def hostFill : Byte := 0

/-- The number of host addresses (00_scope.md: addresses are 64-bit). -/
def addressSpace : Nat := 2 ^ 64

/-- One byte of host memory. -/
def readByte (m : List Host.Cell) (a : Nat) : Byte := (m.lookup a).getD hostFill

/-- `n` bytes of host memory from `a` on, wrapping at the top of the address space (log 6). -/
def readBytes (m : List Host.Cell) (a : Addr) : Nat → List Byte
  | 0 => []
  | n + 1 => readByte m a.toNat :: readBytes m (a + 1) n

/-- The cells that a run of bytes from `a` on lists: those that differ from the fill. -/
def listed (a : Nat) : List Byte → List Host.Cell
  | [] => []
  | b :: bs => if b = hostFill then listed (a + 1) bs else (a, b) :: listed (a + 1) bs

/-- Write a run of bytes that ends within the address space. -/
def writeSpan (m : List Host.Cell) (a : Nat) (bs : List Byte) : List Host.Cell :=
  m.filter (fun c => decide (c.1 < a)) ++ listed a bs ++ m.filter (fun c => decide (a + bs.length ≤ c.1))

/-- Write bytes from `a` on, wrapping at the top of the address space (log 6). -/
def writeBytes (m : List Host.Cell) (a : Addr) (bs : List Byte) : List Host.Cell :=
  if a.toNat + bs.length ≤ addressSpace then writeSpan m a.toNat bs
  else
    let k := addressSpace - a.toNat
    writeSpan (writeSpan m a.toNat (bs.take k)) 0 ((bs.drop k).take addressSpace)

/-- The canonical form from address `lo` on: strictly rising addresses within the space, no byte equal to the fill. -/
def memWfFrom (lo : Nat) : List Host.Cell → Bool
  | [] => true
  | (a, b) :: t => decide (lo ≤ a) && decide (b ≠ hostFill) && decide (a < addressSpace) && memWfFrom (a + 1) t

/-- The canonical form of host memory. -/
def memWf (m : List Host.Cell) : Bool := memWfFrom 0 m

/-- The value of the `k`-byte field at address `a` of host memory. -/
def readField (m : List Host.Cell) (a : Addr) (k : Nat) : Nat := leValue (readBytes m a k)

end Sys2Proof.Machine
end

