-- ==== Sys2Proof/Machine/Bursts.lean ====
section
/-! DEFINITION. The uplink as the Link Receiver reads it: sync marks (R24), the two checks, and the bursts (R25). A burst can
also be laid out (`encodeBurst`), for statements and tests. -/

namespace Sys2Proof.Machine

/-! ## Marks -/

/-- The sync pattern 0x5A, 0xA5, 0x3C, 0xC3, first byte lowest (R24). -/
def syncPattern : BitVec 32 := 0xC33CA55A#32

/-- The shortest announced length: a FILL (R24). -/
def minBurst : Nat := 8
/-- The longest announced length: a LINE of 16,384 payload bytes (R24). -/
def maxBurst : Nat := 16394

/-- Judge the eight bytes of a mark, the first byte lowest: the announced length of an exact mark, none for a bad one (R24). -/
def judgeMark (m : U64) : Option Nat :=
  let len := m.extractLsb' 32 16
  if m.extractLsb' 0 32 = syncPattern ∧ len = m.extractLsb' 48 16 ∧ minBurst ≤ len.toNat ∧ len.toNat ≤ maxBurst then
    some len.toNat
  else none

/-- The eight bytes of the exact mark that announces a length (R24). -/
def exactMark (len : U16) : U64 := len ++ len ++ syncPattern

/-! ## Checks -/

/-- `n` steps of the 16-bit check: polynomial 0x1021, not reflected (R25). -/
def crc16Shift : Nat → BitVec 16 → BitVec 16
  | 0, c => c
  | n + 1, c => crc16Shift n (if c.msb then (c <<< 1) ^^^ 0x1021#16 else c <<< 1)

/-- The 16-bit header check over some bytes from a running value (R25). -/
def crc16From (c : BitVec 16) : List Byte → BitVec 16
  | [] => c
  | b :: bs => crc16From (crc16Shift 8 (c ^^^ (b.setWidth 16 <<< 8))) bs

/-- The header check: initial value 0xFFFF, no final inversion (R25). -/
def headerCheck (bs : List Byte) : BitVec 16 := crc16From 0xFFFF#16 bs

/-- `n` steps of the 32-bit check: polynomial 0x04C11DB7, reflected (R25). -/
def crc32Shift : Nat → BitVec 32 → BitVec 32
  | 0, c => c
  | n + 1, c => crc32Shift n (if c.getLsbD 0 then (c >>> 1) ^^^ 0xEDB88320#32 else c >>> 1)

/-- The 32-bit payload check over some bytes from a running value (R25). -/
def crc32From (c : BitVec 32) : List Byte → BitVec 32
  | [] => c
  | b :: bs => crc32From (crc32Shift 8 (c ^^^ b.setWidth 32)) bs

/-- The payload check: initial value 0xFFFFFFFF, final inversion (R25). -/
def payloadCheck (bs : List Byte) : BitVec 32 := ~~~ crc32From 0xFFFFFFFF#32 bs

/-! ## Bursts -/

/-- A burst as it is handed on: with its fields, or damaged and without kind (R25, R33). -/
inductive Burst where
  | frameOpen (h : FrameHeader)
  | line (number : Nat) (data : List Byte)
  | frameClose (sent : Nat)
  | fill
  | damaged
  deriving DecidableEq, Repr

/-- The header length of a kind (R25); none for a kind that names nothing. -/
def headerLength (kind : Nat) : Option Nat :=
  if kind = 1 then some 18 else if kind = 2 then some 4 else if kind = 3 then some 4 else if kind = 4 then some 2 else none

/-- The depths a FRAME-OPEN may name (R25). -/
def depthValid (d : Nat) : Bool := decide (d = 8) || decide (d = 10) || decide (d = 12) || decide (d = 16)

/-- The fields of a FRAME-OPEN header (R25). -/
def frameHeaderOf (bs : List Byte) : FrameHeader where
  tag := BitVec.ofNat 16 (field bs 2 2)
  counter := BitVec.ofNat 32 (field bs 4 4)
  width := field bs 8 2
  height := field bs 10 2
  depth := field bs 12 1
  exposure := BitVec.ofNat 32 (field bs 14 4)

/-- Do the fields of a FRAME-OPEN lie in their ranges? (R25) -/
def headerValid (h : FrameHeader) : Bool :=
  decide (1 ≤ h.width) && decide (h.width ≤ 8192) && decide (1 ≤ h.height) && decide (h.height ≤ 8192) && depthValid h.depth

/-- A burst whose checks hold, by its kind, header and payload: fields in range and payload length right for the kind (R25). -/
def burstOf (kind : Nat) (header payload : List Byte) : Burst :=
  if kind = 1 then
    (if payload.isEmpty ∧ headerValid (frameHeaderOf header) then .frameOpen (frameHeaderOf header) else .damaged)
  else if kind = 2 then
    (if 1 ≤ payload.length ∧ payload.length ≤ 16384 then .line (field header 2 2) payload else .damaged)
  else if kind = 3 then
    (if payload.isEmpty ∧ field header 2 2 ≤ 8192 then .frameClose (field header 2 2) else .damaged)
  else if kind = 4 then (if payload.isEmpty then .fill else .damaged)
  else .damaged

/-- Judge a burst that began with an exact mark, from the bytes after its mark (R25, R26). -/
def parseBurst (bs : List Byte) : Burst :=
  let kind := field bs 0 1
  match headerLength kind with
  | none => .damaged
  | some hl =>
    if bs.length < hl + 6 then .damaged
    else
      let header := bs.take hl
      let payload := (bs.drop (hl + 2)).take (bs.length - hl - 6)
      if headerCheck header = BitVec.ofNat 16 (field bs hl 2)
          ∧ payloadCheck payload = BitVec.ofNat 32 (field bs (bs.length - 4) 4) then burstOf kind header payload
      else .damaged

/-- The kind of a burst in the history window (R39). -/
def burstKind : Burst → BurstKind
  | .frameOpen _ => .frameOpen
  | .line _ _ => .line
  | .frameClose _ => .frameClose
  | .fill => .fill
  | .damaged => .damaged

/-- The header and payload of a burst, as a head sends them (R25). -/
def burstParts : Burst → List Byte × List Byte
  | .frameOpen h =>
    (u8 1 ++ zeros 1 ++ u16 h.tag ++ u32 h.counter ++ leBytes 2 h.width ++ leBytes 2 h.height ++ u8 h.depth ++ zeros 1
      ++ u32 h.exposure, [])
  | .line n data => (u8 2 ++ zeros 1 ++ leBytes 2 n, data)
  | .frameClose n => (u8 3 ++ zeros 1 ++ leBytes 2 n, [])
  | .fill => (u8 4 ++ zeros 1, [])
  | .damaged => ([], [])

/-- A burst as a head sends it after the mark: header, header check, payload, payload check (R25). -/
def encodeBurst (b : Burst) : List Byte :=
  (burstParts b).1 ++ u16 (headerCheck (burstParts b).1) ++ (burstParts b).2 ++ u32 (payloadCheck (burstParts b).2)

/-- Is a burst one that R25 lets a head send? -/
def burstLegal : Burst → Bool
  | .frameOpen h => headerValid h
  | .line n data => decide (n < 65536) && decide (1 ≤ data.length) && decide (data.length ≤ 16384)
  | .frameClose n => decide (n ≤ 8192)
  | .fill => true
  | .damaged => false

end Sys2Proof.Machine
end

