-- ==== Sys2Proof/Machine/Ops.lean ====
section
/-! DEFINITION. The operations every block of the card shares: one port's state, DMA writes and interrupt messages,
interrupt causes and gathering (R187, R188), alert flags (R190), mirrors (R192, R193), needs and takes of chains (R181,
R182), and completions (R185, R186). -/

namespace Sys2Proof.Machine

/-! ## Ports -/

/-- All ports, in ascending order. -/
def allPorts : List PortId := [0, 1, 2, 3, 4, 5, 6, 7]

/-- The state kept for one port. -/
def State.port (s : State) (p : PortId) : Port := s.ports[p]

/-- The items of a port whose change writes its mirror (R192): power, link state, READY and identity, known codes, alert
flags, sweep state, and the mirrored flex items. -/
def mirrorKey (q : Port) : MirrorKey where
  power := (q.power.state, q.power.cause, q.power.pendingOn, q.power.retries)
  link := q.link.state
  head := (q.ctl.ready, q.ctl.identity)
  known := q.lens.known
  alerts := q.alerts
  sweep := q.sweep.state
  flex := (q.flex.axis, q.flex.suspects.length, q.flex.suspects.getLast?, q.flex.snapshot.isSome, q.flex.dropsLocked)

/-- Change one port's state; a change of a mirrored item makes its mirror due (R192). -/
def modPort (p : PortId) (f : Port → Port) (s : State) : State :=
  let q := s.port p
  let new := f q
  { s with ports := s.ports.set p { new with mirrorDue := q.mirrorDue || decide (mirrorKey new ≠ mirrorKey q) } }

/-- Make a port's mirror due at an event that writes it without a change of R192's items (a frame close, a set formed). -/
def touchPort (p : PortId) (s : State) : State :=
  { s with ports := s.ports.set p { s.port p with mirrorDue := true } }

/-- Change one block's share of a port. -/
def modPower (p : PortId) (f : PortPower → PortPower) : State → State := modPort p fun q => { q with power := f q.power }
/-- Change one block's share of a port. -/
def modLink (p : PortId) (f : LinkRx → LinkRx) : State → State := modPort p fun q => { q with link := f q.link }
/-- Change one block's share of a port. -/
def modCtl (p : PortId) (f : Channel → Channel) : State → State := modPort p fun q => { q with ctl := f q.ctl }
/-- Change one block's share of a port. -/
def modTake (p : PortId) (f : Taker → Taker) : State → State := modPort p fun q => { q with take := f q.take }
/-- Change one block's share of a port. -/
def modLens (p : PortId) (f : LensState → LensState) : State → State := modPort p fun q => { q with lens := f q.lens }
/-- Change one block's share of a port. -/
def modFrame (p : PortId) (f : FrameRx → FrameRx) : State → State := modPort p fun q => { q with frame := f q.frame }
/-- Change one block's share of a port. -/
def modSweep (p : PortId) (f : PortSweep → PortSweep) : State → State := modPort p fun q => { q with sweep := f q.sweep }
/-- Change one block's share of a port. -/
def modFlex (p : PortId) (f : FlexMap → FlexMap) : State → State := modPort p fun q => { q with flex := f q.flex }

/-- Change the Chain Engine's state. -/
def modChain (f : ChainEngine → ChainEngine) (s : State) : State := { s with chain := f s.chain }
/-- Change the Trigger Sequencer's cell state. -/
def modTrig (f : TriggerCell → TriggerCell) (s : State) : State := { s with trig := f s.trig }
/-- Change the sweep front end and its queue. -/
def modSweeps (f : SweepUnit → SweepUnit) (s : State) : State := { s with sweeps := f s.sweeps }
/-- Change one frame set. -/
def modSet (k : SetId) (f : FrameSet → FrameSet) (s : State) : State := { s with sets := s.sets.set k (f s.sets[k]) }

/-- Change the cell's power state; a change of the budget, the reserved sum or the supply-low flag makes the cell mirror
due (R193). -/
def modPowerCell (f : PowerCell → PowerCell) (s : State) : State :=
  let new := f s.power
  { s with
    power := new
    chain := { s.chain with
      mirrorDue := s.chain.mirrorDue ||
        decide ((new.budget, new.reserved, new.supplyLow) ≠ (s.power.budget, s.power.reserved, s.power.supplyLow)) } }

/-- Do something for each port of a list, in order. -/
def forPorts (ps : List PortId) (f : PortId → State → State) (s : State) : State := ps.foldl (fun t p => f p t) s

/-- The ports of a mask, in ascending order: P0 at bit 0 (R202). -/
def maskPorts (m : BitVec 8) : List PortId := allPorts.filter fun p => m.getLsbD p.val

/-- The mask of some ports. -/
def portsMask (ps : List PortId) : BitVec 8 := ps.foldl (fun m p => m ||| BitVec.twoPow 8 p.val) 0

/-- Is the cell RUNNING? -/
def State.running (s : State) : Bool := decide (s.chain.cell = .running)

/-- The cell clock (R63). -/
def State.now (s : State) : U64 := s.trig.clock

/-- The set a port belongs to, if any (R127). -/
def State.setOf (s : State) (p : PortId) : Option SetId :=
  ([0, 1, 2, 3] : List SetId).find? fun k => s.sets[k].formed && s.sets[k].mask.getLsbD p.val

/-! ## The bus -/

/-- A DMA write of the card into host memory. -/
def dmaWrite (a : Addr) (bs : List Byte) (s : State) : State :=
  { s with mem := writeBytes s.mem a bs, bus := .write a bs :: s.bus }

/-- A message-signalled interrupt of a group (R188). -/
def sendMessage (g : Group) (s : State) : State := { s with bus := .message g :: s.bus }

/-- A symbol sent on a port's control channel (R44). -/
def sendSymbol (p : PortId) (y : Symbol) (s : State) : State := { s with cable := ⟨p, y⟩ :: s.cable }

/-! ## Interrupt causes and gathering -/

/-- The bit of a group in CAUSE and CAUSE_ENABLE (R197). -/
def groupBit : Group → Nat
  | .frames => 0 | .commands => 1 | .alerts => 2

/-- Set a group's cause bit; the message goes out when the bit goes from 0 to 1 while enabled (R187, R188). -/
def setCause (g : Group) (s : State) : State :=
  if s.chain.cause.getLsbD (groupBit g) then s
  else
    let t := modChain (fun c => { c with cause := c.cause ||| BitVec.twoPow 3 (groupBit g) }) s
    if s.chain.enable.getLsbD (groupBit g) then sendMessage g t else t

/-- The interrupt group of a gather group. -/
def gatherGroup : GatherGroup → Group
  | .frames => .frames | .commands => .commands

/-- A group's gather state. -/
def gatherOf (g : GatherGroup) (c : ChainEngine) : Gather :=
  match g with
  | .frames => c.frames
  | .commands => c.commands

/-- Replace a group's gather state. -/
def setGatherOf (g : GatherGroup) (x : Gather) (c : ChainEngine) : ChainEngine :=
  match g with
  | .frames => { c with frames := x }
  | .commands => { c with commands := x }

/-- Count one completion toward a group (R187). -/
def countToward (g : GatherGroup) (s : State) : State :=
  let x := gatherOf g s.chain
  let n := x.pending + 1
  if n = x.count then
    setCause (gatherGroup g) (modChain (setGatherOf g { x with pending := 0, timer := none }) s)
  else if n = 1 then modChain (setGatherOf g { x with pending := n, timer := some x.timeMs }) s
  else modChain (setGatherOf g { x with pending := n }) s

/-! ## Alerts -/

/-- The bits of the port alert flags (R202). -/
def alertTrip : Nat := 0
/-- SHED. -/
def alertShed : Nat := 1
/-- SUPPLY_LOW of a port. -/
def alertSupplyLow : Nat := 2
/-- LINK_DROP. -/
def alertLinkDrop : Nat := 3
/-- HEAD_RESTART. -/
def alertHeadRestart : Nat := 4
/-- OVERTEMP. -/
def alertOvertemp : Nat := 5
/-- LENS_FAULT. -/
def alertLensFault : Nat := 6
/-- NO_BUFFER. -/
def alertNoBuffer : Nat := 7
/-- FLEX_SUSPECT. -/
def alertFlexSuspect : Nat := 8
/-- SNAPSHOT_HELD. -/
def alertSnapshotHeld : Nat := 9
/-- SWEEP_DONE. -/
def alertSweepDone : Nat := 10
/-- BLOCK_FAULT of the cell. -/
def cellAlertBlockFault : Nat := 0
/-- SUPPLY_LOW of the cell. -/
def cellAlertSupplyLow : Nat := 1

/-- Set a port alert flag; a flag newly set sets the ALERTS cause (R190). -/
def setPortAlert (p : PortId) (bit : Nat) (s : State) : State :=
  if (s.port p).alerts.getLsbD bit then s
  else setCause .alerts (modPort p (fun q => { q with alerts := q.alerts ||| BitVec.twoPow 11 bit }) s)

/-- Set a cell alert flag; a flag newly set sets the ALERTS cause and makes the cell mirror due (R190, R193). -/
def setCellAlert (bit : Nat) (s : State) : State :=
  if s.chain.cellAlerts.getLsbD bit then s
  else
    setCause .alerts
      (modChain (fun c => { c with cellAlerts := c.cellAlerts ||| BitVec.twoPow 2 bit, mirrorDue := true }) s)

/-! ## Mirrors -/

/-- An address within the Cell Block. -/
def blockAt (off : Nat) (s : State) : Addr := s.chain.block + BitVec.ofNat 64 off

/-- A port is powered in INRUSH, ON and FOLDBACK. -/
def isPowered : PowerState → Bool
  | .inrush | .on | .foldback => true
  | _ => false

/-- The current reading of a port: 0 with the switch open, the sampled current otherwise (R21, log 12). -/
def currentReading (q : Port) : U16 := if isPowered q.power.state then q.power.loadMa else 0

/-- The identity fields of a port mirror: present flag, then the five fields (R192, R199). -/
def identityBytes : Option Identity → List Byte
  | none => flag false ++ zeros 10
  | some i => flag true ++ u16 i.model ++ u16 i.boot ++ u8 i.presence.toNat ++ zeros 1 ++ u16 i.maxWidth ++ u16 i.maxHeight

/-- The set, last skip reason and member of a port mirror (0x6C), set number and SET_SKIP count (0x70) (R127, R199). -/
def setMirrorBytes (s : State) (p : PortId) : List Byte :=
  match s.setOf p with
  | none => u8 0xFF ++ u8 0 ++ u8 0xFF ++ zeros 1 ++ u32 0 ++ u32 0
  | some k =>
    let z := s.sets[k]
    u8 k.val
      ++ (match z.reason with
          | none => u8 0 ++ u8 0xFF
          | some (c, m) => u8 (codeNumber c) ++ orFF m)
      ++ zeros 1 ++ u32 z.number ++ u32 z.skips

/-- The 0xC0 bytes of a port mirror with a given write count (R192, R199). -/
def portMirrorBytes (s : State) (p : PortId) (count : U32) : List Byte :=
  let q := s.port p
  u32 count ++ zeros 4 ++ u64 s.now
    ++ u8 (powerStateNumber q.power.state) ++ u8 (codeNumber q.power.cause) ++ u8 q.power.retries ++ flag q.power.pendingOn
    ++ u16 (currentReading q) ++ u8 (linkStateNumber q.link.state) ++ u8 (dropCauseNumber q.link.lastDrop)
    ++ u32 q.link.bursts ++ u32 q.link.damaged
    ++ u16 q.link.drops ++ flag q.ctl.ready ++ identityBytes q.ctl.identity ++ zeros 2
    ++ u32 q.ctl.failures
    ++ (q.lens.known.toList.map codeOrFFFF).flatten ++ zeros 4
    ++ u32 q.take.takes ++ u32 q.take.skips ++ u32 q.take.notReady ++ u32 q.take.overtrigger ++ u32 q.take.noBuffer
    ++ u32 q.take.lensDry
    ++ u32 q.frame.strayFrames ++ u32 q.frame.strayCloses ++ u32 q.frame.lateLines ++ u32 q.frame.beyondLines
    ++ u32 q.frame.badLines
    ++ setMirrorBytes s p
    ++ u8 (sweepStateNumber q.sweep.state) ++ u8 (axisNumber q.flex.axis) ++ u8 q.flex.suspects.length
    ++ orFF q.flex.suspects.getLast?
    ++ flag q.flex.snapshot.isSome ++ u8 q.flex.dropsLocked ++ u16 (q.alerts.setWidth 16)
    ++ u32 q.sweep.count ++ zeros 0x38 ++ u32 count

/-- The 0x40 bytes of the cell mirror with a given write count (R193, R199). -/
def cellMirrorBytes (s : State) (count : U32) : List Byte :=
  u32 count ++ u8 (cellStateNumber s.chain.cell) ++ flag s.power.supplyLow ++ u8 s.chain.portCount.toNat ++ zeros 1
    ++ u64 s.now ++ u32 s.power.supplyMv ++ leBytes 2 s.power.reserved ++ leBytes 2 s.power.budget
    ++ u16 (s.chain.cellAlerts.setWidth 16) ++ zeros 0x22 ++ u32 count

/-- Where a port's mirror lies in the Cell Block (R199). -/
def portMirrorOffset (p : PortId) : Nat := 0x240 + 0xC0 * p.val

/-- Write a port mirror whole: its write count rises by 1 and stands at its head and its tail (R192). -/
def writePortMirror (p : PortId) (s : State) : State :=
  let n := (s.port p).mirrorCount + 1
  let t : State := { s with ports := s.ports.set p { s.port p with mirrorCount := n, mirrorDue := false } }
  dmaWrite (blockAt (portMirrorOffset p) t) (portMirrorBytes t p n) t

/-- Write the cell mirror whole (R193). -/
def writeCellMirror (s : State) : State :=
  let n := s.chain.mirrorCount + 1
  let t := modChain (fun c => { c with mirrorCount := n, mirrorDue := false }) s
  dmaWrite (blockAt 0x200 t) (cellMirrorBytes t n) t

/-- Forget a port mirror that is due (the cell is not RUNNING). -/
def dropPortDue (p : PortId) (s : State) : State :=
  { s with ports := s.ports.set p { s.port p with mirrorDue := false } }

/-- The end of an event for one port's mirror: written once if due while RUNNING, forgotten otherwise (R192). -/
def flushPort (p : PortId) (s : State) : State :=
  if (s.port p).mirrorDue then (if s.running then writePortMirror p s else dropPortDue p s) else s

/-- The end of an event: every mirror that is due is written once while RUNNING, and forgotten otherwise (R192, R193, log 11). -/
def flushMirrors (s : State) : State :=
  let t := forPorts allPorts flushPort s
  if t.chain.mirrorDue then
    (if t.running then writeCellMirror t else modChain (fun c => { c with mirrorDue := false }) t)
  else t

/-! ## Chains -/

/-- The place of a chain among the 17 (R199): command, image P0 to P7, lens P0 to P7. -/
def chainIndex : ChainId → Fin 17
  | .command => 0
  | .image p => ⟨1 + p.val, by omega⟩
  | .lens p => ⟨9 + p.val, by omega⟩

/-- Where a chain's anchor lies in the header (R199). -/
def anchorOffset (ch : ChainId) : Nat := 0x08 + 8 * (chainIndex ch).val

/-- Where a chain's progress entry lies (R199). -/
def progressOffset (ch : ChainId) : Nat := 0xC0 + 16 * (chainIndex ch).val

/-- A chain's cursor. -/
def State.cursor (s : State) (ch : ChainId) : Option Addr := s.chain.cursors[chainIndex ch]

/-- Does an address lie on a 64-byte boundary? -/
def aligned64 (a : Addr) : Bool := decide (a.toNat % 64 = 0)

/-- A need of a chain: the next record if it is POSTED (R181). -/
def need (ch : ChainId) (s : State) : Option Addr :=
  let a : Addr := BitVec.ofNat 64 <|
    match s.cursor ch with
    | none => readField s.mem (blockAt (anchorOffset ch) s) 8
    | some r => readField s.mem (r + 8) 8
  if a = 0 ∨ ¬ aligned64 a then none
  else if readField s.mem (a + 4) 4 = recordStateNumber .posted then some a
  else none

/-- The kind of a record (R200). -/
def recordKind (a : Addr) (s : State) : Nat := (readByte s.mem a.toNat).toNat

/-- Take a record: the cursor moves to it and the count of records in hand rises (R182). -/
def takeRecord (ch : ChainId) (a : Addr) : State → State :=
  modChain fun c => { c with cursors := c.cursors.set (chainIndex ch) (some a), inHand := c.inHand + 1 }

/-- Write a record's state word (R200). -/
def writeRecordState (a : Addr) (st : RecordState) : State → State :=
  dmaWrite (a + 4) (leBytes 4 (recordStateNumber st))

/-- The interrupt group a chain's completions count toward (R185). -/
def chainGroup : ChainId → GatherGroup
  | .image _ => .frames
  | _ => .commands

/-- Step 2 of a completion: the state word, and one record less in hand (R185). -/
def finishState (a : Addr) (ok : Bool) (s : State) : State :=
  modChain (fun c => { c with inHand := c.inHand - 1 }) (writeRecordState a (if ok then .done else .failed) s)

/-- Step 3 of a completion: the progress entry, address first and count after (R186). DESIGN CHOICE (log 45): the reserved word at 0x4
of the entry is not written here. -/
def advanceProgress (ch : ChainId) (a : Addr) (s : State) : State :=
  let n := s.chain.progress[chainIndex ch].count + 1
  let t := modChain (fun c => { c with progress := c.progress.set (chainIndex ch) ⟨n, a⟩ }) s
  dmaWrite (blockAt (progressOffset ch) t) (u32 n) (dmaWrite (blockAt (progressOffset ch + 8) t) (u64 a) t)

/-- Steps 3 and 4 of a completion: progress, then the interrupt group (R185). -/
def finishCount (ch : ChainId) (a : Addr) (s : State) : State := countToward (chainGroup ch) (advanceProgress ch a s)

/-- Steps 2 to 4 of a completion, once the result fields are written (R185). -/
def completeRecord (ch : ChainId) (a : Addr) (ok : Bool) (s : State) : State := finishCount ch a (finishState a ok s)

/-- How many bytes a record of a given kind has (R200); the card writes none beyond them. DESIGN CHOICE (log 19): 256 for a kind that
is none of the three. -/
def recordLength (kind : Nat) : Nat := if kind = 3 then 128 else 256

/-- A write of result fields at an offset of a record, clipped to the record's own length (R200, log 19). DESIGN CHOICE (log 19): the kind
that fixes the length is read from host memory at this write. -/
def writeResult (a : Addr) (off : Nat) (bs : List Byte) (s : State) : State :=
  dmaWrite (a + BitVec.ofNat 64 off) (bs.take (recordLength (recordKind a s) - off)) s

/-- The result area of a command record: 0x60 to 0xFF, fields that do not apply 0 (R201). -/
def resultArea (bs : List Byte) : List Byte := bs ++ zeros (0xA0 - bs.length)

/-- Complete a command record: completion code and result area, then R185's steps; DONE for OK, FAILED otherwise (R184, R201). DESIGN
CHOICE (log 42): the code is written first, and the result area as a second write; the reserved bytes 0x16 and 0x17 are not written
(log 45). -/
def completeCommand (a : Addr) (code : Code) (results : List Byte) (s : State) : State :=
  completeRecord .command a (decide (code = .ok))
    (writeResult a 0x60 (resultArea results) (writeResult a 0x14 (leBytes 2 (codeNumber code)) s))

end Sys2Proof.Machine
end

