-- ==== Sys2Proof/Machine/LensCodes.lean ====
section
/-! DEFINITION. Lens arithmetic and lens records (05_lens_settings.md): calibration tables (R86), setpoint to drive code
(R87), the judging of lens records (R89), and the result fields of lens records (R99, R100). -/

namespace Sys2Proof.Machine

/-- An exact quotient rounded to the nearest integer, halves away from zero (R87); `d` is positive. -/
def roundAway (n : Int) (d : Nat) : Int :=
  if 0 ≤ n then (((2 * n.natAbs + d) / (2 * d) : Nat) : Int) else -(((2 * n.natAbs + d) / (2 * d) : Nat) : Int)

/-- The code of a setpoint within a table, from the segment that holds it (R87); above the last point, the last code. -/
def segmentCode : List TablePoint → Int → Int
  | [], _ => 0
  | [(_, c)], _ => c
  | (s0, c0) :: (s1, c1) :: rest, s =>
    if s < s1 then (c0 : Int) + roundAway (((c1 : Int) - c0) * (s - s0)) (s1 - s0).toNat
    else segmentCode ((s1, c1) :: rest) s

/-- The drive code of a setpoint and whether it was clamped (R87). -/
def lensCode (table : List TablePoint) (s : Int) : Nat × Bool :=
  match table with
  | [] => (0, false)
  | (s0, c0) :: rest =>
    let last := ((s0, c0) :: rest).getLast (by simp)
    if s ≤ s0 then (c0, decide (s < s0))
    else if last.1 ≤ s then (last.2, decide (last.1 < s))
    else ((segmentCode ((s0, c0) :: rest) s).toNat, false)

/-- Are setpoints strictly ascending? (R86) -/
def ascending : List TablePoint → Bool
  | [] => true
  | [_] => true
  | a :: b :: rest => decide (a.1 < b.1) && ascending (b :: rest)

/-- Check 2 and 3 of SET_LENS_TABLE (R86): none where the points are refused; an empty table removes the unit's table. -/
def checkTable (a : TableArgs) : Option (List TablePoint) :=
  let n := a.count.toNat
  if n = 1 ∨ 9 < n then none
  else
    let pts : List TablePoint := (a.points.toList.take n).map fun q => (q.1.toInt, q.2.toNat)
    if ascending pts && pts.all (fun q => decide (q.2 ≤ 4095)) then some pts else none

/-- A unit number 1 to 4 (R44). -/
def unitOf (n : Nat) : Option UnitId :=
  if h : 1 ≤ n ∧ n ≤ 4 then some ⟨n - 1, by omega⟩ else none

/-- Pairs of a unit and a setpoint: sound when every unit is 1 to 4 and none is repeated (R88, R89). -/
def soundPairs (ps : List (Nat × Int)) : Option (List (UnitId × Int)) :=
  let us := ps.filterMap fun q => (unitOf q.1).map fun u => (u, q.2)
  if us.length = ps.length ∧ (us.map (·.1)).Nodup then some us else none

/-- The pairs of a lens record, if it is sound (R89, layout R200). -/
def readLensRecord (a : Addr) (s : State) : Option (List (UnitId × Int)) :=
  let bs := readBytes s.mem a 0x24
  let n := field bs 0x10 1
  if field bs 0 1 ≠ 3 ∨ n = 0 ∨ 4 < n then none
  else soundPairs <| (List.range n).map fun i =>
    (field bs (0x14 + 4 * i) 1, (BitVec.ofNat 16 (field bs (0x14 + 4 * i + 2) 2)).toInt)

/-- One pair of a lens record's results: code, unit result, CLAMPED (R99, R200). -/
def targetBytes (t : Target) : List Byte :=
  codeOrFFFF t.code ++ u8 ((t.result.map unitResultNumber).getD 0) ++ flag t.clamped

/-- A pair place that holds no pair: no code (R198, log 26). -/
def noTargetBytes : List Byte := codeOrFFFF none ++ zeros 2

/-- The result fields of a lens record, from 0x24 to 0x4F (R99, R200). -/
def lensResultBytes (code : Code) (p : PortId) (source : SourceId) (trigger : U32) (outcome : LensOutcome)
    (flags : BitVec 4) (targets : List Target) (started ended : U64) : List Byte :=
  leBytes 2 (codeNumber code) ++ u8 p.val ++ u8 source.val ++ u32 trigger ++ u8 (lensOutcomeNumber outcome)
    ++ u8 flags.toNat ++ zeros 2
    ++ (targets.map targetBytes).flatten ++ (List.replicate (4 - targets.length) noTargetBytes).flatten
    ++ u64 started ++ u64 ended

/-- Complete a lens record of a port: DONE for OK, FAILED otherwise (R89, R99, R100). DESIGN CHOICE (log 42): its result fields go out
in one write. -/
def completeLens (p : PortId) (a : Addr) (code : Code) (source : SourceId) (trigger : U32) (outcome : LensOutcome)
    (flags : BitVec 4) (targets : List Target) (started ended : U64) (s : State) : State :=
  completeRecord (.lens p) a (decide (code = .ok))
    (writeResult a 0x24 (lensResultBytes code p source trigger outcome flags targets started ended) s)

/-- The bits of the lens flags (R202). -/
def lensFlagFallback : BitVec 4 := 1
/-- CLAMPED. -/
def lensFlagClamped : BitVec 4 := 2
/-- NO_TABLE. -/
def lensFlagNoTable : BitVec 4 := 4
/-- BAD_RECORD. -/
def lensFlagBadRecord : BitVec 4 := 8

/-- Set or forget a known drive code (R85). -/
def setKnown (p : PortId) (u : UnitId) (c : Option Nat) : State → State :=
  modLens p fun l => { l with known := l.known.set u c }

/-- Every known code of a port becomes UNKNOWN (R85). -/
def forgetCodes (p : PortId) : State → State := modLens p fun l => { l with known := .replicate 4 none }

/-- Apply a calibration table and complete its command (R86). -/
def applyTable (p : PortId) (h : HeldTable) (s : State) : State :=
  completeCommand h.recAt .ok [] (modLens p (fun l => { l with tables := l.tables.set h.unit h.points }) s)

/-- Apply the held SET_LENS_TABLE commands of a port in the order in which they were taken (R86). -/
def applyHeld (p : PortId) (s : State) : State :=
  (s.port p).lens.held.foldl (fun t h => applyTable p h t) (modLens p (fun l => { l with held := [] }) s)

/-- The unit whose part of a LENS transaction is in progress (R85). -/
def lensUnitInProgress (c : Channel) : Option UnitId :=
  match c.txn with
  | some t =>
    match t.message with
    | .lens m => (m.parts[t.part]?).map (·.1)
    | _ => none
  | none => none

/-- Close the open units of the phase in progress: the unit whose part is in progress gets `r` and becomes UNKNOWN, every
other unit not yet answered is NOT_REACHED (R94, R95, R100). -/
def settleTargets (p : PortId) (r : UnitResult) (s : State) : State :=
  match (s.port p).lens.phase with
  | none => s
  | some ph =>
    let cur := lensUnitInProgress (s.port p).ctl
    let ts := ph.targets.map fun t =>
      if t.result.isSome then t
      else { t with result := some (if cur = some t.unit then r else .notReached) }
    let s1 := modLens p (fun l => { l with phase := some { ph with targets := ts } }) s
    match cur with
    | none => s1
    | some u => setKnown p u none s1

end Sys2Proof.Machine
end

