-- ==== Sys2Proof/Machine/FrameStore.lean ====
section
/-! DEFINITION. How lines are stored and erased in image buffers (R113 to R118) and how image records are completed
(R121, R123, R135, R136): the share of the Frame Writer and the Set Coordinator that every close uses. -/

namespace Sys2Proof.Machine

/-! ## Store formats -/

/-- Bytes of pixel data that one line of a frame brings (R113, R114). -/
def lineLength (width depth : Nat) : Nat := (width * depth + 7) / 8

/-- Bytes per line in the buffer (R113). -/
def bytesPerLine (fmt : StoreFormat) (width depth : Nat) : Nat :=
  match fmt with
  | .packed => lineLength width depth
  | .wide16 => width * 2
  | .wide16Swap => width * 2

/-- Pixel i of a line: bit j of it is bit i × depth + j of the line, bit b of the line bit b mod 8 of byte b / 8 (R113). -/
def pixel (line : Nat) (depth i : Nat) : Nat := (line / 2 ^ (depth * i)) % 2 ^ depth

/-- A 16-bit word in a store format's byte order (R113). -/
def wideWord (fmt : StoreFormat) (v : Nat) : List Byte :=
  match fmt with
  | .wide16Swap => (leBytes 2 v).reverse
  | _ => leBytes 2 v

/-- A line of pixel data in its store format (R113). -/
def storeLine (fmt : StoreFormat) (width depth : Nat) (data : List Byte) : List Byte :=
  match fmt with
  | .packed => data
  | _ => ((List.range width).map fun i => wideWord fmt (pixel (leValue data) depth i)).flatten

/-- The fill value limited to the depth of the frame (R117). -/
def fillApplied (v : U16) (depth : Nat) : Nat := min v.toNat (2 ^ depth - 1)

/-- The bits of a line whose every pixel is v. -/
def packedFill (v depth : Nat) : Nat → Nat
  | 0 => 0
  | n + 1 => v + 2 ^ depth * packedFill v depth n

/-- A line of the fill value in a store format; unused bits of a PACKED line are 0 (R117). -/
def fillLine (fmt : StoreFormat) (width depth v : Nat) : List Byte :=
  match fmt with
  | .packed => leBytes (lineLength width depth) (packedFill v depth width)
  | _ => ((List.range width).map fun _ => wideWord fmt v).flatten

/-- The bytes of an erased line (R117). -/
def erasedLine (r : FrameRx) (fmt : StoreFormat) (f : Filling) : List Byte :=
  match r.erasure with
  | .zero => zeros f.bytesPerLine
  | .fill => fillLine fmt f.header.width f.header.depth (fillApplied r.fillValue f.header.depth)
  | .copyLast => f.lastLine.getD (zeros f.bytesPerLine)

/-- Does line y lie within the image record's buffer? (R115) -/
def lineFits (e : Entry) (bpl y : Nat) : Bool := decide (y * e.stride + bpl ≤ e.bufSize)

/-- Where line y is written (R113). -/
def lineAddress (e : Entry) (y : Nat) : Addr := e.bufAddr + BitVec.ofNat 64 (y * e.stride)

/-- Enter an erased line in the erased-range list: extend the last range, or append one while there is room for 16 (R118). -/
def addRange (ranges : List (Nat × Nat)) (y : Nat) : List (Nat × Nat) × Bool :=
  match ranges.getLast? with
  | some (a, c) =>
    if a + c = y then (ranges.dropLast ++ [(a, c + 1)], false)
    else if ranges.length < 16 then (ranges ++ [(y, 1)], false)
    else (ranges, true)
  | none => ([(y, 1)], false)

/-! ## The exposure list -/

/-- The entry with a trigger number in a port's exposure list (R105: at most one). -/
def findEntry (r : FrameRx) (trigger : U32) : Option Entry := r.entries.find? fun e => decide (e.trigger = trigger)

/-- Change the entry with a trigger number. -/
def modEntry (p : PortId) (trigger : U32) (f : Entry → Entry) : State → State :=
  modFrame p fun r => { r with entries := r.entries.map fun e => if e.trigger = trigger then f e else e }

/-- The frame being filled, if any (R106). -/
def fillingOf (r : FrameRx) : Option Filling :=
  match r.recv with
  | .filling f => some f
  | _ => none

/-- Replace the frame being filled (R106). -/
def setFilling (p : PortId) (f : Filling) : State → State := modFrame p fun r => { r with recv := .filling f }

/-- Erase the next expected line of the frame being filled: fill, count, range, and on to the next line (R117, R118). -/
def eraseNext (p : PortId) (s : State) : State :=
  let r := (s.port p).frame
  match fillingOf r with
  | none => s
  | some f =>
    match findEntry r f.trigger with
    | none => s
    | some e =>
      let fits := lineFits e f.bytesPerLine f.next
      let t := if fits then dmaWrite (lineAddress e f.next) (erasedLine r e.format f) s else s
      let x := addRange f.ranges f.next
      setFilling p { f with
        ranges := x.1, overflow := f.overflow || x.2, erased := f.erased + 1,
        truncated := f.truncated || !fits, next := f.next + 1 } t

/-- Erase `n` lines from the next expected line on. -/
def eraseLines (p : PortId) : Nat → State → State
  | 0, s => s
  | n + 1, s => eraseLines p n (eraseNext p s)

/-- Write the next expected line, or cut it where the buffer ends (R115), and go on to the line after it. -/
def writeNext (p : PortId) (data : List Byte) (s : State) : State :=
  let r := (s.port p).frame
  match fillingOf r with
  | none => s
  | some f =>
    match findEntry r f.trigger with
    | none => s
    | some e =>
      if lineFits e f.bytesPerLine f.next then
        let bs := storeLine e.format f.header.width f.header.depth data
        setFilling p { f with written := f.written + 1, lastLine := some bs, next := f.next + 1 }
          (dmaWrite (lineAddress e f.next) bs s)
      else setFilling p { f with cut := f.cut + 1, truncated := true, next := f.next + 1 } s

/-! ## Frame sets: held completion -/

/-- Is a close status of the DONE class? (R121, R135) -/
def doneClass : Code → Bool
  | .complete | .partialFrame | .truncated | .closeLost => true
  | _ => false

/-- The failed mask of an item: the members whose slot status is of the FAILED class (R136). -/
def failedMask (i : SetItem) : BitVec 8 :=
  portsMask ((i.slots.filter fun x => match x.status with | some c => !doneClass c | none => false).map (·.port))

/-- Complete an open-set item: set status and failed mask into every record, then the state words in ascending port order,
then progress and the FRAMES group; the item leaves the list (R136). DESIGN CHOICE (log 36): progress and counting go together,
member after member; DESIGN CHOICE (log 43): set status and failed mask go out in one write. -/
def completeItem (k : SetId) (i : SetItem) (s : State) : State :=
  let mask := failedMask i
  let status := if mask = 0 then 1 else 2
  let s1 := i.slots.foldl (fun t x => dmaWrite (x.image + 0x4A) (u8 status ++ [mask]) t) s
  let s2 := i.slots.foldl (fun t x => finishState x.image (match x.status with | some c => doneClass c | none => false) t) s1
  let s3 := i.slots.foldl (fun t x => finishCount (.image x.port) x.image t) s2
  modSet k (fun z => { z with items := z.items.filter fun j => decide (j.number ≠ i.number) }) s3

/-- A member's entry has closed: its slot closes with the status, and the item completes with its last slot (R135, R136). -/
def closeSlot (k : SetId) (number : U32) (p : PortId) (status : Code) (s : State) : State :=
  match s.sets[k].items.find? fun i => decide (i.number = number) with
  | none => s
  | some i =>
    let i' := { i with slots := i.slots.map fun x => if x.port = p then { x with status := some status } else x }
    let t := modSet k (fun z => { z with items := z.items.map fun j => if j.number = number then i' else j }) s
    if i'.slots.all fun x => x.status.isSome then completeItem k i' t else t

/-! ## Image records -/

/-- The match fields of an image record: 0x4C to 0x50 (R111, R200). -/
def matchHeadBytes : Option Match → List Byte
  | none => zeros 5
  | some m => leBytes 2 m.header.width ++ leBytes 2 m.header.height ++ u8 m.header.depth

/-- Bytes per line, head frame counter and exposure time: 0x52 to 0x5B (R111, R200). -/
def matchTailBytes : Option Match → List Byte
  | none => zeros 10
  | some m => leBytes 2 m.bytesPerLine ++ u32 m.header.counter ++ u32 m.header.exposure

/-- The sixteen places of the erased-range list (R118, R200). -/
def rangeBytes (rs : List (Nat × Nat)) : List Byte :=
  (rs.map fun q => leBytes 2 q.1 ++ leBytes 2 q.2).flatten ++ zeros (64 - 4 * rs.length)

/-- The close fields of an image record from 0x4C to 0xCF (R123, R200). An entry with no matched FRAME-OPEN has 0 in the
fields of the frame (log 17). -/
def closeBytes (r : FrameRx) (e : Entry) (f : Option Filling) (sent : Nat) (now : U64) : List Byte :=
  matchHeadBytes e.opened
    ++ u8 (match e.opened with | none => 0 | some _ => erasureNumber r.erasure)
    ++ matchTailBytes e.opened
    ++ leBytes 2 sent ++ leBytes 2 ((f.map (·.written)).getD 0) ++ leBytes 2 ((f.map (·.erased)).getD 0)
    ++ leBytes 2 ((f.map (·.cut)).getD 0)
    ++ flag ((f.map (·.truncated)).getD false) ++ u8 ((f.map (·.ranges.length)).getD 0)
    ++ flag ((f.map (·.overflow)).getD false) ++ u8 (lensOutcomeNumber e.outcome)
    ++ leBytes 2 (match e.opened with | none => 0 | some m => fillApplied r.fillValue m.header.depth)
    ++ u8 e.flags.toNat ++ zeros 5
    ++ u64 e.exposedAt ++ u64 ((e.opened.map (·.time)).getD 0) ++ u64 now ++ zeros 8
    ++ rangeBytes ((f.map (·.ranges)).getD [])

/-- Complete the image record of a closed entry: result fields, then DONE or FAILED with its counting, or HELD and the
member's slot for a set member (R123, R135). DESIGN CHOICE (log 43): a single port's result fields go out in one write from 0x48 on,
those of a HELD record as the status at 0x48 and then the body from 0x4C on. -/
def completeImage (p : PortId) (e : Entry) (f : Option Filling) (sent : Nat) (status : Code) (s : State) : State :=
  let body := closeBytes (s.port p).frame e f sent s.now
  match e.set with
  | none =>
    completeRecord (.image p) e.image (doneClass status)
      (dmaWrite (e.image + 0x48) (leBytes 2 (codeNumber status) ++ zeros 2 ++ body) s)
  | some (k, n) =>
    closeSlot k n p status
      (writeRecordState e.image .held
        (dmaWrite (e.image + 0x4C) body (dmaWrite (e.image + 0x48) (leBytes 2 (codeNumber status)) s)))

/-- An image record unsound at bind is completed at once FAILED with BAD_RECORD, its other result fields 0 (R79, R132). DESIGN CHOICE
(log 43): in one write. -/
def failImageAtBind (p : PortId) (a : Addr) (s : State) : State :=
  completeRecord (.image p) a false (writeResult a 0x48 (leBytes 2 (codeNumber .badRecord) ++ zeros 0x86) s)

/-! ## Closing an entry -/

/-- The targets of a lens record whose entry closed in LENS_WAIT: no codes, NOT_REACHED (R100). -/
def waitingTargets (ps : List (UnitId × Int)) : List Target :=
  ps.map fun q => { unit := q.1, setpoint := q.2, code := none, result := some .notReached, clamped := false }

/-- The Lens Controller's share of a close before or during the entry's lens phase: its lens record completes FAILED with the
cause, and its phase is over (R100). The phase's open units have been settled before. DESIGN CHOICE (log 26): in LENS_MOVING the
record gets the phase's flags and start time. -/
def closeLensShare (p : PortId) (e : Entry) (status : Code) (s : State) : State :=
  match e.phase with
  | .lensWait =>
    match e.lensRec, e.lensPairs with
    | some a, some ps => completeLens p a status e.source e.trigger .none 0 (waitingTargets ps) 0 0 s
    | _, _ => s
  | .lensMoving =>
    match (s.port p).lens.phase with
    | none => s
    | some ph =>
      let t := modLens p (fun l => { l with phase := none }) s
      match e.lensRec, e.lensPairs with
      | some a, some _ => completeLens p a status e.source e.trigger .none ph.flags ph.targets ph.started 0 t
      | _, _ => t
  | _ => s

/-- Remove an entry's pending EXPOSE and LENS messages (R50, R122). -/
def removeMessages (p : PortId) (trigger : U32) : State → State :=
  modCtl p fun c => { c with
    exposes := c.exposes.filter fun t => decide (t ≠ trigger)
    lensMsgs := c.lensMsgs.filter fun m => decide (m.trigger ≠ trigger) }

/-- Close one entry of a port with a status (R121, R122): the lens share, its messages, its place in the list, the receive
state when it was the one being filled, and its image record. `sent` is the lines sent of the FRAME-CLOSE, if one closed it. DESIGN
CHOICE (log 39): the entry's lens record completes before its image record. -/
def closeEntry (p : PortId) (trigger : U32) (status : Code) (sent : Nat) (s : State) : State :=
  match findEntry (s.port p).frame trigger with
  | none => s
  | some e =>
    let f := (fillingOf (s.port p).frame).filter fun g => decide (g.trigger = trigger)
    let s1 := removeMessages p trigger (closeLensShare p e status s)
    let s2 := modFrame p (fun r => { r with
      entries := r.entries.filter fun x => decide (x.trigger ≠ trigger)
      recv := if f.isSome then .idle else r.recv }) s1
    touchPort p (completeImage p e f sent status s2)

/-- A receive state of DISCARDING goes to IDLE (R106, R122). -/
def stopDiscarding (p : PortId) : State → State :=
  modFrame p fun r => { r with recv := match r.recv with | .discarding => .idle | x => x }

/-- Close entries, given by port and trigger number, with one status, in the order of the list (R122). -/
def closeEntries (status : Code) (xs : List (PortId × U32)) (s : State) : State :=
  xs.foldl (fun t x => closeEntry x.1 x.2 status 0 t) s

/-- The entries of a port's exposure list, by port and trigger number. -/
def entriesOf (p : PortId) (s : State) : List (PortId × U32) := (s.port p).frame.entries.map fun e => (p, e.trigger)

/-- Put an entry into a list of ascending trigger number, after those of the same number. -/
def insertEntry (x : PortId × U32) : List (PortId × U32) → List (PortId × U32)
  | [] => [x]
  | y :: ys => if x.2 < y.2 then x :: y :: ys else y :: insertEntry x ys

/-- The entries of every port, in ascending trigger number (R122). DESIGN CHOICE (log 27): of one number, ports ascending. -/
def allEntries (s : State) : List (PortId × U32) :=
  (allPorts.flatMap fun p => entriesOf p s).foldl (fun xs x => insertEntry x xs) []

/-- After a port's entries have closed: the phase in progress is over, no frame is discarded any more, and the held SET_LENS_TABLE
commands are applied (R86, R100, R122). -/
def afterCloses (p : PortId) (s : State) : State :=
  applyHeld p (stopDiscarding p (modLens p (fun l => { l with phase := none }) s))

/-- Close every entry of a port with one status, in ascending trigger number; the phase in progress is abandoned, and the held
SET_LENS_TABLE commands are applied after the close (R100, R122, R86). -/
def closeAll (p : PortId) (status : Code) (s : State) : State :=
  let s1 := settleTargets p .cut s
  afterCloses p (closeEntries status (entriesOf p s1) s1)

end Sys2Proof.Machine
end

