-- ==== Sys2Proof/Machine/LensPhase.lean ====
section
/-! DEFINITION. The lens phase of an exposure entry (R90 to R98): targets, judging, the LENS message, the end of the phase,
the queuing of the EXPOSE, and the late action. -/

namespace Sys2Proof.Machine

/-- The head's lens presence mask as stored (R92); none is present without an identity. -/
def presenceOf (c : Channel) : BitVec 4 := (c.identity.map (·.presence)).getD 0

/-- An entry's target pairs, the outcome already fixed, and the flags known at phase start (R90, R92). -/
def phaseTargets (l : LensState) (e : Entry) : List (UnitId × Int) × Option LensOutcome × BitVec 4 :=
  if !l.chain then ([], some .none, 0)
  else
    match e.lensPairs with
    | some ps => (ps, none, 0)
    | none =>
      let bad : BitVec 4 := if e.badLens then lensFlagBadRecord else 0
      match l.policy with
      | .hold => ([], some .held, bad)
      | .skipTake => ([], some .held, bad)
      | .fallback =>
        if l.fallback.isEmpty then ([], some .held, bad ||| lensFlagFallback)
        else (l.fallback, none, bad ||| lensFlagFallback)

/-- Judge one target unit at phase start (R93). -/
def judgeTarget (l : LensState) (presence : BitVec 4) (q : UnitId × Int) : Target :=
  if l.tables[q.1].isEmpty then { unit := q.1, setpoint := q.2, code := none, result := some .noTable, clamped := false }
  else if !presence.getLsbD q.1.val then
    { unit := q.1, setpoint := q.2, code := none, result := some .absent, clamped := false }
  else
    let c := lensCode l.tables[q.1] q.2
    { unit := q.1, setpoint := q.2, code := some c.1,
      result := if l.known[q.1] = some c.1 then some .unchanged else none, clamped := c.2 }

/-- The flags the judging of the targets adds: CLAMPED and NO_TABLE (R93). -/
def targetFlags (ts : List Target) : BitVec 4 :=
  (if ts.any (·.clamped) then lensFlagClamped else 0)
    ||| (if ts.any fun t => decide (t.result = some .noTable) then lensFlagNoTable else 0)

/-- The parts of the LENS message: the units still to be written, in ascending unit order (R94). -/
def partsToWrite (ts : List Target) : List (UnitId × Nat) :=
  ([0, 1, 2, 3] : List UnitId).filterMap fun u =>
    match ts.find? fun t => decide (t.unit = u) && t.result.isNone with
    | some t => t.code.map fun c => (u, c)
    | none => none

/-- The outcome of a phase where R90 or R92 has not fixed it (R96). -/
def phaseOutcome (late : Bool) (ts : List Target) : LensOutcome :=
  if late then .late
  else if ts.any fun t => decide (t.result = some .refused) || decide (t.result = some .absent) then .failed
  else if ts.any fun t => decide (t.result = some .moved) then .moved
  else .unchanged

/-- Queue the EXPOSE of an entry (R98). -/
def queueExpose (p : PortId) (trigger : U32) (s : State) : State :=
  modEntry p trigger (fun e => { e with phase := .exposeQueued })
    (modCtl p (fun c => { c with exposes := c.exposes ++ [trigger] }) s)

/-- The end of the phase in progress (R96): outcome and flags into the entry, the lens record DONE (R99), the held tables
applied (R86), then the EXPOSE queued (R98) or the late action DROP (R97). An entry dropped is past its phase, so that its
close does not touch the record again (R100). -/
def endPhase (p : PortId) (fixed : Option LensOutcome) (late : Bool) (s : State) : State :=
  match (s.port p).lens.phase with
  | none => s
  | some ph =>
    match findEntry (s.port p).frame ph.trigger with
    | none => modLens p (fun l => { l with phase := none }) s
    | some e =>
      let outcome := fixed.getD (phaseOutcome late ph.targets)
      let s1 := modEntry p ph.trigger (fun e => { e with outcome := outcome, flags := ph.flags })
        (modLens p (fun l => { l with phase := none }) s)
      let s2 := match e.lensRec, e.lensPairs with
        | some a, some _ =>
          completeLens p a .ok e.source e.trigger outcome ph.flags ph.targets ph.started s1.now s1
        | _, _ => s1
      let s3 := applyHeld p s2
      if outcome = .late ∨ outcome = .failed then
        match (s3.port p).lens.lateAction with
        | .expose => queueExpose p ph.trigger s3
        | .drop =>
          closeEntry p ph.trigger (if outcome = .late then .lensLate else .lensFailed) 0
            (modEntry p ph.trigger (fun e => { e with phase := .exposeQueued }) s3)
      else queueExpose p ph.trigger s3

/-- The start of an entry's lens phase (R92 to R94): the targets are fixed and judged; the phase ends at once when no unit is
to be written, and queues its LENS message otherwise. -/
def startPhase (p : PortId) (e : Entry) (s : State) : State :=
  let q := s.port p
  let x := phaseTargets q.lens e
  let ts := x.1.map (judgeTarget q.lens (presenceOf q.ctl))
  let parts := partsToWrite ts
  let ph : LensPhase := { trigger := e.trigger, started := s.now, targets := ts, flags := x.2.2 ||| targetFlags ts,
                          deadline := if parts.isEmpty then none else some q.lens.deadlineMs }
  let clamped : Vector Bool 4 := Vector.ofFn fun u => ts.any fun t => decide (t.unit = u) && t.clamped
  let s1 := modLens p (fun l => { l with phase := some ph, clamped := clamped }) s
  if parts.isEmpty then endPhase p x.2.1 false s1
  else
    modEntry p e.trigger (fun e => { e with phase := .lensMoving })
      (modCtl p (fun c => { c with lensMsgs := c.lensMsgs ++ [⟨e.trigger, parts⟩] }) s1)

/-- Is an entry in lens handling? (R91) -/
def inLensHandling (e : Entry) : Bool :=
  match e.phase with
  | .lensWait | .lensMoving | .exposeQueued => true
  | _ => false

/-- Start the lens phase of the oldest entry in lens handling if it waits, and go on to the next entry when its phase drops
it (R91, R97). -/
def advancePhases (p : PortId) : Nat → State → State
  | 0, s => s
  | n + 1, s =>
    match (s.port p).frame.entries.find? inLensHandling with
    | none => s
    | some e => if e.phase = .lensWait then advancePhases p n (startPhase p e s) else s

/-- Test whether a lens phase can start (R91). -/
def advanceLens (p : PortId) (s : State) : State := advancePhases p ((s.port p).frame.entries.length + 1) s

end Sys2Proof.Machine
end

