-- ==== Sys2Proof/Machine/Transactions.lean ====
section
/-! DEFINITION. Transactions of the control channel (R44 to R51), head identification (R55, R56), and what leaving LOCKED, a
cell stop and a head restart do to the channel (R54, R57, R60). -/

namespace Sys2Proof.Machine

/-- The trigger tag of a trigger number: its low 16 bits (R48). -/
def triggerTag (n : U32) : U16 := n.setWidth 16

/-- The unit parts of a message (R48). -/
def messageParts : Message → List UnitPart
  | .expose t => [{ unit := 0, write := true, address := 16, words := [triggerTag t], count := 1 }]
  | .lens m => m.parts.map fun q =>
      { unit := q.1.val + 1, write := true, address := 0, words := [BitVec.ofNat 16 q.2], count := 1 }
  | .access h => [h.part]
  | .ping => [{ unit := 0, write := false, address := 0, words := [], count := 5 }]

/-- The reply timeout, in ms (R47). -/
def replyMs : Nat := 2
/-- The hold limit of EXPOSE, HEAD WRITE and HEAD READ, in ms (R47). -/
def holdMs : Nat := 50
/-- The limit between the parts of a note, in ms (R52). -/
def noteMs : Nat := 2
/-- The identification retry time, in ms (R55). -/
def retryMs : Nat := 100

/-- Send the header of a unit part (R44). -/
def sendHeader (p : PortId) (u : UnitPart) : State → State := sendSymbol p (.header u.unit u.write u.address)

/-- Begin a transaction: start mark and the header of its first part (R44, R50). -/
def beginTxn (p : PortId) (m : Message) (s : State) : State :=
  let t := sendSymbol p .startMark (modCtl p (fun c => { c with
    state := .sending, txn := some ⟨m, 0, .header, 0, []⟩, replyTimer := some replyMs }) s)
  match (messageParts m).head? with
  | some u => sendHeader p u t
  | none => t

/-- The message of a HEAD class place. -/
def headMessage : HeadMessage → Message
  | .access h => .access h
  | .ping => .ping

/-- The card's choice when the channel is IDLE: the first message of the highest class that has one (R50). -/
def arbitrate (p : PortId) (s : State) : State :=
  let c := (s.port p).ctl
  if c.state = .idle then
    match c.exposes, c.lensMsgs, c.heads with
    | t :: r, _, _ => beginTxn p (.expose t) (modCtl p (fun c => { c with exposes := r }) s)
    | [], m :: r, _ => beginTxn p (.lens m) (modCtl p (fun c => { c with lensMsgs := r }) s)
    | [], [], h :: r => beginTxn p (headMessage h) (modCtl p (fun c => { c with heads := r }) s)
    | [], [], [] => s
  else s

/-- Is a PING pending or in progress? (R55) -/
def pingWaits (c : Channel) : Bool :=
  c.heads.any (fun h => decide (h = .ping)) || (match c.txn with | some t => decide (t.message = .ping) | none => false)

/-- Queue a PING in the HEAD class unless one is pending or in progress (R55). -/
def queuePing (p : PortId) (s : State) : State :=
  if pingWaits (s.port p).ctl then s else modCtl p (fun c => { c with heads := c.heads ++ [.ping] }) s

/-- The results of a HEAD_ACCESS: words acknowledged and read data (R59, R201). -/
def headResults (acked : Nat) (data : List U16) : List Byte := u8 acked ++ zeros 1 ++ (data.map u16).flatten

/-- What a head restart does to the port: its entries close with HEAD_RESTART, every lens unit becomes UNKNOWN, READY clears
and the HEAD_RESTART alert is set (R54, R56). -/
def headRestart (p : PortId) (s : State) : State :=
  setPortAlert p alertHeadRestart
    (modCtl p (fun c => { c with ready := false }) (forgetCodes p (closeAll p .headRestart s)))

/-- Read an identity from the five words of a PING (R55). -/
def identityOf (ws : List U16) : Identity where
  model := ws.getD 0 0
  boot := ws.getD 1 0
  presence := (ws.getD 2 0).setWidth 4
  maxWidth := ws.getD 3 0
  maxHeight := ws.getD 4 0

/-- Does a size lie in 1 to 8192? (R55) -/
def sizeValid (w : U16) : Bool := decide (1 ≤ w.toNat) && decide (w.toNat ≤ 8192)

/-- Is an identity valid? (R55) -/
def identityValid (i : Identity) : Bool := sizeValid i.maxWidth && sizeValid i.maxHeight

/-- A PING that fails: the failure count rises and the retry timer starts (R55). -/
def pingFailed (p : PortId) : State → State :=
  modCtl p fun c => { c with failures := c.failures + 1, retryTimer := some retryMs }

/-- Take a valid identity (R56): a changed boot count, where it is to be compared, is a restart first. -/
def takeIdentity (p : PortId) (i : Identity) (s : State) : State :=
  let c := (s.port p).ctl
  let restarted := match c.identity with
    | none => false
    | some old => !c.noCompare && decide (old.boot ≠ i.boot)
  let t := if restarted then headRestart p s else s
  modCtl p (fun c => { c with identity := some i, noCompare := false, ready := true, retryTimer := none }) t

/-- The end of an EXPOSE (R108): ACK makes the entry EXPOSED, NACK and NO_REPLY close it; then the next lens phase may start
(R91). -/
def exposeResult (p : PortId) (trigger : U32) (r : TxnEnd) (s : State) : State :=
  advanceLens p <| match r with
    | .acknowledged =>
      modEntry p trigger (fun e => { e with
        phase := .exposed, exposedAt := s.now, timer := some (s.port p).frame.limitMs }) s
    | .nack => closeEntry p trigger .exposeRefused 0 s
    | .noReply => closeEntry p trigger .noReply 0 s

/-- Hand the result of a transaction to the block that asked for it (R48). -/
def handResult (p : PortId) (t : Txn) (r : TxnEnd) (s : State) : State :=
  match t.message with
  | .expose n => exposeResult p n r s
  | .lens _ => advanceLens p (endPhase p none false s)
  | .access h =>
    match r with
    | .acknowledged => completeCommand h.recAt .ok (headResults h.part.count t.data) s
    | .nack => completeCommand h.recAt .nack (headResults t.acked []) s
    | .noReply => completeCommand h.recAt .noReply (headResults t.acked []) s
  | .ping =>
    match r with
    | .acknowledged => if identityValid (identityOf t.data) then takeIdentity p (identityOf t.data) s else pingFailed p s
    | _ => pingFailed p s

/-- Is a message a LENS message? -/
def isLensMessage : Message → Bool
  | .lens _ => true
  | _ => false

/-- The transaction in progress ends (R45, R47): the unit at fault of a LENS transaction is REFUSED (R94); end mark, or abort
mark at NO_REPLY; the channel is IDLE, the result is handed over, and the next message is chosen (R50). -/
def finishTxn (p : PortId) (r : TxnEnd) (s : State) : State :=
  match (s.port p).ctl.txn with
  | none => s
  | some t =>
    let s1 := if isLensMessage t.message ∧ r ≠ .acknowledged then settleTargets p .refused s else s
    let s2 := sendSymbol p (if r = .noReply then .abortMark else .endMark)
      (modCtl p (fun c => { c with state := .idle, txn := none, replyTimer := none, holdTimer := none }) s1)
    arbitrate p (handResult p t r s2)

/-- Replace the transaction in progress; the card has just sent something and waits for an answer (R47). -/
def awaitAnswer (p : PortId) (t : Txn) : State → State :=
  modCtl p fun c => { c with txn := some t, replyTimer := some replyMs, holdTimer := none }

/-- A unit of a LENS transaction has acknowledged its part: its known code is the code sent, its result MOVED (R85, R94, log 16). -/
def lensPartDone (p : PortId) (t : Txn) (s : State) : State :=
  match t.message with
  | .lens m =>
    match m.parts[t.part]? with
    | none => s
    | some q =>
      let s1 := setKnown p q.1 (some q.2) s
      modLens p (fun l => { l with phase := l.phase.map fun ph => { ph with
        targets := ph.targets.map fun x => if x.unit = q.1 then { x with result := some .moved } else x } }) s1
  | _ => s

/-- The final word of a part is acknowledged: on to the next part with a continuation mark, or the end (R44). -/
def partDone (p : PortId) (t : Txn) (s : State) : State :=
  let s1 := lensPartDone p t s
  match (messageParts t.message)[t.part + 1]? with
  | none => finishTxn p .acknowledged (modCtl p (fun c => { c with txn := some t }) s1)
  | some u =>
    sendHeader p u (sendSymbol p .continuationMark
      (awaitAnswer p { t with part := t.part + 1, stage := .header, acked := 0 } s1))

/-- The part of a transaction that is being sent. -/
def currentPart (t : Txn) : Option UnitPart := (messageParts t.message)[t.part]?

/-- The header of a part is acknowledged: the first word of a WRITE, or the count of a READ, is sent (R44). -/
def headerAcked (p : PortId) (t : Txn) (s : State) : State :=
  match currentPart t with
  | none => s
  | some u =>
    if u.write then
      sendSymbol p (.word (u.words.getD 0 0)) (awaitAnswer p { t with stage := .word 0 } s)
    else sendSymbol p (.count u.count) (awaitAnswer p { t with stage := .data } s)

/-- A written word is acknowledged: the next word is sent, or the part is done (R44). -/
def wordAcked (p : PortId) (t : Txn) (i : Nat) (s : State) : State :=
  match currentPart t with
  | none => s
  | some u =>
    let t' := { t with acked := t.acked + 1 }
    if i + 1 < u.words.length then
      sendSymbol p (.word (u.words.getD (i + 1) 0)) (awaitAnswer p { t' with stage := .word (i + 1) } s)
    else partDone p t' s

/-- Is word i the final word of the part being sent? (R46) -/
def finalWord (t : Txn) (i : Nat) : Bool :=
  match currentPart t with
  | none => false
  | some u => decide (i + 1 = u.words.length)

/-- Complete the HEAD_ACCESS commands of a port, in progress first and then those waiting, in the order in which they were
accepted (R57, R59, R60). -/
def failHeadAccess (p : PortId) (code : Code) (s : State) : State :=
  let c := (s.port p).ctl
  let s1 := match c.txn with
    | some t =>
      match t.message with
      | .access h => completeCommand h.recAt code (headResults (if h.part.write then t.acked else 0) []) s
      | _ => s
    | none => s
  c.heads.foldl (fun t m => match m with
    | .access h => completeCommand h.recAt code (headResults 0 []) t
    | .ping => t) s1

/-- The link leaves LOCKED, or power is removed: the channel is SUSPENDED (R57). HEAD_ACCESS commands fail with `code`; the held
identity is cleared at power removal only. DESIGN CHOICE (log 33): so is the no-comparison mark. -/
def suspendChannel (p : PortId) (code : Code) (clearIdentity : Bool) (s : State) : State :=
  modCtl p (fun c => { c with
    state := .suspended, txn := none, replyTimer := none, holdTimer := none, noteTimer := none
    exposes := [], lensMsgs := [], heads := [], ready := false, retryTimer := none
    identity := if clearIdentity then none else c.identity
    noCompare := if clearIdentity then false else c.noCompare }) (failHeadAccess p code s)

/-- The link enters LOCKED: the channel leaves SUSPENDED and identification starts (R30, R55, R57). -/
def channelLocked (p : PortId) (s : State) : State :=
  arbitrate p (queuePing p (modCtl p (fun c => { c with state := .idle }) s))

/-- A cell stop at the channel (R60), after the entries of the port have closed. -/
def stopChannel (p : PortId) (s : State) : State :=
  let c := (s.port p).ctl
  let ping := pingWaits c
  let s1 := failHeadAccess p .stopped s
  let s2 := if c.state = .sending then sendSymbol p .abortMark s1 else s1
  arbitrate p (modCtl p (fun c => { c with
    state := if c.state = .sending then .idle else c.state
    txn := none, replyTimer := none, holdTimer := none
    exposes := [], lensMsgs := [], heads := if ping then [.ping] else [] }) s2)

/-- The end of a head note: the channel is IDLE and the card chooses afresh (R51, R52). -/
def endNote (p : PortId) (s : State) : State :=
  arbitrate p (modCtl p (fun c => { c with state := .idle, noteTimer := none }) s)

/-- Notes are taken in IDLE and NOTE (R52). -/
def noteTaken (c : Channel) : Bool := decide (c.state = .idle) || decide (c.state = .note)

end Sys2Proof.Machine
end

