-- ==== Sys2Proof/Machine/Reception.lean ====
section
/-! DEFINITION. What the receiver's bursts and drops do: flex charges and snapshots (R164 to R172), frame matching and lines
(R110 to R120), bursts ending (R26, R33, R34, R39), marks and drops (R28 to R37, R42). -/

namespace Sys2Proof.Machine

/-! ## The Flex Mapper -/

/-- An axis's state. -/
def axisState (a : Axis) (t : TriggerCell) : AxisState :=
  match a with
  | .a => t.axisA
  | .b => t.axisB

/-- The bin of a position in a range (R164). -/
def flexBin (low high pos : Int) : BinId :=
  if pos ≤ low then 0
  else if high ≤ pos then 31
  else ⟨min (((pos - low) * 32 / (high - low)).toNat) 31, by omega⟩

/-- The bin a charge on a port falls in now, or none without a flex axis (R165). -/
def chargeBin (p : PortId) (s : State) : Option BinId :=
  let x := (s.port p).flex
  x.axis.map fun a => flexBin x.low.toInt x.high.toInt (axisState a s.trig).position.toInt

/-- A bin has crossed: it is listed and FLEX_SUSPECT set while the list holds fewer than 8 bins, otherwise the overflow count
rises (R167). -/
def crossBin (p : PortId) (b : BinId) (s : State) : State :=
  if (s.port p).flex.suspects.length < 8 then
    setPortAlert p alertFlexSuspect (modFlex p (fun x => { x with suspects := x.suspects ++ [b] }) s)
  else modFlex p (fun x => { x with overflow := x.overflow + 1 }) s

/-- Charge a weight to the port's flex map (R165, R166). -/
def flexCharge (p : PortId) (weight : Nat) (s : State) : State :=
  match chargeBin p s with
  | none => s
  | some b =>
    let x := (s.port p).flex
    let old := x.bins[b]
    let new := min (old + weight) 65535
    let t := modFlex p (fun x => { x with bins := x.bins.set b new, total := x.total + BitVec.ofNat 32 weight }) s
    if old < x.threshold ∧ x.threshold ≤ new then crossBin p b t else t

/-- The snapshot of a port at a drop, with the bin the drop was charged to (R171). -/
def snapshotOf (p : PortId) (cause : DropCause) (s : State) : Snapshot :=
  let q := s.port p
  { cause := cause, time := s.now, axisA := s.trig.axisA.position, axisB := s.trig.axisB.position
    bin := chargeBin p s, current := currentReading q, power := q.power.state, history := q.link.history
    bursts := q.link.bursts - q.flex.noteBursts, damaged := q.link.damaged - q.flex.noteDamaged
    frame := (fillingOf q.frame).bind fun f => (findEntry q.frame f.trigger).map fun e => (e.source, e.trigger) }

/-- A drop at the Flex Mapper: charged with weight 16, then captured, or counted while the snapshot is locked (R165, R171,
R172, R174). -/
def flexDrop (p : PortId) (cause : DropCause) (s : State) : State :=
  let t := flexCharge p 16 s
  match (t.port p).flex.snapshot with
  | none =>
    setPortAlert p alertSnapshotHeld
      (modFlex p (fun x => { x with snapshot := some (snapshotOf p cause s), dropsLocked := 0 }) t)
  | some _ => modFlex p (fun x => { x with dropsLocked := min (x.dropsLocked + 1) 255 }) t

/-! ## The Frame Writer on bursts -/

/-- A damaged burst at the Frame Writer: the next expected line, if there is one, is lost (R116, R119). -/
def takeDamaged (p : PortId) (s : State) : State :=
  match fillingOf (s.port p).frame with
  | some f => if f.next < f.header.height then eraseNext p s else s
  | none => s

/-- Erase every line of the frame being filled that has not been received (R110, R120). -/
def eraseRest (p : PortId) (s : State) : State :=
  match fillingOf (s.port p).frame with
  | some f => eraseLines p (f.header.height - f.next) s
  | none => s

/-- The status a FRAME-CLOSE gives the frame (R120). -/
def closeStatus (f : Filling) : Code :=
  if f.truncated then .truncated else if 0 < f.erased then .partialFrame else .complete

/-- A LINE at the Frame Writer (R114, R119). -/
def takeLine (p : PortId) (n : Nat) (data : List Byte) (s : State) : State :=
  match fillingOf (s.port p).frame with
  | none => s
  | some f =>
    if data.length ≠ lineLength f.header.width f.header.depth then
      takeDamaged p (modFrame p (fun r => { r with badLines := r.badLines + 1 }) s)
    else if f.header.height ≤ n then modFrame p (fun r => { r with beyondLines := r.beyondLines + 1 }) s
    else if n < f.next then modFrame p (fun r => { r with lateLines := r.lateLines + 1 }) s
    else writeNext p data (eraseLines p (n - f.next) s)

/-- A FRAME-CLOSE at the Frame Writer (R119, R120). -/
def takeFrameClose (p : PortId) (sent : Nat) (s : State) : State :=
  match (s.port p).frame.recv with
  | .idle => modFrame p (fun r => { r with strayCloses := r.strayCloses + 1 }) s
  | .discarding => s
  | .filling _ =>
    let t := eraseRest p s
    match fillingOf (t.port p).frame with
    | none => t
    | some f => closeEntry p f.trigger (closeStatus f) sent t

/-- The frame a FRAME-OPEN begins for a matched entry (R111). -/
def newFilling (trigger : U32) (h : FrameHeader) (bpl : Nat) : Filling :=
  { trigger := trigger, header := h, bytesPerLine := bpl, next := 0, ranges := [], overflow := false, written := 0
    erased := 0, cut := 0, truncated := false, lastLine := none }

/-- A FRAME-OPEN matched to an entry (R111): older EXPOSED entries close with MISSED; the entry closes with BAD_GEOMETRY when
its line does not fit the stride, and is FILLING otherwise. DESIGN CHOICE (log 43): the match fields go out in three writes, 0x4C,
0x52 and 0x78. -/
def matchFrame (p : PortId) (h : FrameHeader) (e : Entry) (s : State) : State :=
  let older := ((s.port p).frame.entries.takeWhile fun x => decide (x.trigger ≠ e.trigger)).filter
    fun x => decide (x.phase = .exposed)
  let s1 := older.foldl (fun t x => closeEntry p x.trigger .missed 0 t) s
  let m : Match := { header := h, bytesPerLine := bytesPerLine e.format h.width h.depth, time := s.now }
  if e.stride < m.bytesPerLine then
    modFrame p (fun r => { r with recv := .discarding })
      (closeEntry p e.trigger .badGeometry 0 (modEntry p e.trigger (fun x => { x with opened := some m }) s1))
  else
    let s2 := setFilling p (newFilling e.trigger h m.bytesPerLine)
      (modEntry p e.trigger (fun x => { x with phase := .filling, opened := some m }) s1)
    writeRecordState e.image .filling
      (dmaWrite (e.image + 0x78) (u64 m.time)
        (dmaWrite (e.image + 0x52) (matchTailBytes (some m)) (dmaWrite (e.image + 0x4C) (matchHeadBytes (some m)) s2)))

/-- The frame being filled, if any, closes with CLOSE_LOST at the next FRAME-OPEN (R110). -/
def closeLost (p : PortId) (s : State) : State :=
  match fillingOf (s.port p).frame with
  | none => s
  | some f => closeEntry p f.trigger .closeLost 0 (eraseRest p s)

/-- A FRAME-OPEN at the Frame Writer (R110 to R112). -/
def takeFrameOpen (p : PortId) (h : FrameHeader) (s : State) : State :=
  let s1 := closeLost p s
  match (s1.port p).frame.entries.find? fun e => decide (e.phase = .exposed) && decide (triggerTag e.trigger = h.tag) with
  | some e => matchFrame p h e s1
  | none => modFrame p (fun r => { r with strayFrames := r.strayFrames + 1, recv := .discarding }) s1

/-! ## Bursts ending -/

/-- Enter a burst in the history window of the last 8 (R39). -/
def pushHistory (h : List HistoryEntry) (x : HistoryEntry) : List HistoryEntry :=
  if h.length < 8 then h ++ [x] else h.drop 1 ++ [x]

/-- The Link Receiver's own share of a burst that ends: history, and in LOCKED the counters (R29, R39, R40). -/
def recordBurst (p : PortId) (b : Burst) (exact : Bool) : State → State :=
  modLink p fun l =>
    let l1 := { l with burst := none, history := pushHistory l.history ⟨burstKind b, exact⟩ }
    if l.state = .locked then
      { l1 with bursts := l.bursts + 1, damaged := if b = .damaged then l.damaged + 1 else l.damaged }
    else l1

/-- Hand a burst that ended in LOCKED to the Frame Writer, and a damaged one to the Flex Mapper (R33, R34). -/
def handBurst (p : PortId) (b : Burst) (s : State) : State :=
  match b with
  | .frameOpen h => takeFrameOpen p h s
  | .line n data => takeLine p n data s
  | .frameClose n => takeFrameClose p n s
  | .fill => s
  | .damaged => flexCharge p 1 (takeDamaged p s)

/-- A burst ends in LOCKED (R33, R34). -/
def lockedBurst (p : PortId) (b : Burst) (exact : Bool) (s : State) : State := handBurst p b (recordBurst p b exact s)

/-- The end of the burst in progress (R26): in CONFIRM it is only entered in the history window (R29); in LOCKED it is counted
and handed on. A burst begun by an exact mark ends when its announced bytes have arrived; one begun by a bad mark is damaged as
a whole. -/
def endBurst (p : PortId) (bytes : List Byte) (s : State) : State :=
  let l := (s.port p).link
  match l.burst with
  | none => s
  | some (.exact n) =>
    if bytes.length = n then
      match l.state with
      | .confirm => recordBurst p (parseBurst bytes) true s
      | .locked => lockedBurst p (parseBurst bytes) true s
      | _ => s
    else s
  | some .bad => if l.state = .locked then lockedBurst p .damaged false s else s

/-! ## Marks and drops -/

/-- An exact mark begins a burst and fixes the next boundary (R24). -/
def beginBurst (n : Nat) (l : LinkRx) : LinkRx := { l with burst := some (.exact n), boundary := .announced n }

/-- The link returns to HUNT without anything counted (R29, R32, R42). -/
def huntAgain (l : LinkRx) : LinkRx :=
  { l with state := .hunt, confirm := 0, misses := 0, boundary := .none, burst := none }

/-- A drop (R35 to R37): charged and captured as the port stood; the link hunts, the cause and the counter are written,
LINK_DROP is set, the entries close with LINK_LOST and the channel is SUSPENDED. DESIGN CHOICE (log 38): the held SET_LENS_TABLE
commands complete before the HEAD_ACCESS commands. -/
def linkDrop (p : PortId) (cause : DropCause) (s : State) : State :=
  let s1 := flexDrop p cause s
  let s2 := modLink p (fun l => { huntAgain l with
    lastDrop := cause, drops := if l.drops = 0xFFFF then l.drops else l.drops + 1 }) s1
  suspendChannel p .linkLost false (closeAll p .linkLost (setPortAlert p alertLinkDrop s2))

/-- The length of a recovery window: the longest legal burst with its mark, from the first byte of the bad mark (R24). -/
def recoveryWindow : Nat := maxBurst + 8

/-- Is a boundary the end of a recovery window? -/
def Boundary.isWindow : Boundary → Bool
  | .window _ => true
  | _ => false

/-- A bad mark at the expected boundary in LOCKED: the miss count rises, or the fourth in a row is a drop (R31). -/
def badLockedMark (p : PortId) (s : State) : State :=
  if (s.port p).link.misses < 3 then
    modLink p (fun l => { l with misses := l.misses + 1, burst := some .bad, boundary := .window recoveryWindow }) s
  else linkDrop p .marks s

/-- At a boundary, a burst begun by a bad mark that has not ended yet ends as a damaged burst (R24, R26, log 20). -/
def endBadBurst (p : PortId) (s : State) : State :=
  if (s.port p).link.burst = some .bad then endBurst p [] s else s

/-- Is a burst begun by an exact mark still arriving? Then no boundary is due (R26, log 20). -/
def burstArriving (l : LinkRx) : Bool :=
  match l.burst with
  | some (.exact _) => true
  | _ => false

/-- Entry to LOCKED (R30): the Control Channel Controller is told, and the Flex Mapper takes its lock notes (R170). -/
def enterLocked (p : PortId) (s : State) : State :=
  let t := modLink p (fun l => { l with state := .locked, confirm := 4, misses := 0 }) s
  let l := (t.port p).link
  channelLocked p (modFlex p (fun x => { x with noteBursts := l.bursts, noteDamaged := l.damaged }) t)

/-- The link leaves DOWN for HUNT when the port enters ON (R27). -/
def linkUp (p : PortId) : State → State :=
  modLink p fun l => { huntAgain l with history := [], carrier := true }

/-- The link enters DOWN (R27). -/
def linkDown (p : PortId) : State → State := modLink p fun l => { huntAgain l with state := .down }

end Sys2Proof.Machine
end

