-- ==== Sys2Proof/Machine/SweepQueue.lean ====
section
/-! DEFINITION. The sweep front end's queue (R141 to R146): who is under test, how a sweep joins the queue, and the start of a
measurement. -/

namespace Sys2Proof.Machine

/-- Is a port under test: a sweep of it queued or measuring? (R142) -/
def underTest (p : PortId) (s : State) : Bool := decide ((s.port p).sweep.state ≠ .none)

/-- Set a port's sweep state (R142). -/
def setSweepState (p : PortId) (x : SweepState) : State → State := modSweep p fun w => { w with state := x }

/-- The measurement of a sweep as it starts: the port's settings and power state and the cell time are recorded (R146). -/
def measuringOf (e : SweepEntry) (s : State) : Measuring where
  entry := e
  settings := (s.port e.port).sweep.settings
  started := s.now
  powerAtStart := (s.port e.port).power.state
  sums := []

/-- The sweep queue is examined: with the front end free, the oldest entry leaves the queue and is measured (R141, R146). -/
def examineSweeps (s : State) : State :=
  match s.sweeps.front, s.sweeps.queue with
  | none, e :: rest =>
    setSweepState e.port .measuring (modSweeps (fun _ => { front := some (measuringOf e s), queue := rest }) s)
  | _, _ => s

/-- A sweep joins the tail of the queue, its port is QUEUED, and the queue is examined (R141, R143, R144). -/
def joinSweeps (e : SweepEntry) (s : State) : State :=
  examineSweeps (setSweepState e.port .queued (modSweeps (fun w => { w with queue := w.queue ++ [e] }) s))

/-- The averages of an auto sweep (R144). -/
def autoAverages : Nat := 16

/-- An auto sweep is asked for: taken only while RUNNING, with the setting on and the port not under test (R144). -/
def requestAutoSweep (p : PortId) (cause : Code) (s : State) : State :=
  if (s.port p).power.autoSweep && s.running && !underTest p s then
    joinSweeps { port := p, origin := .auto, cause := cause, averages := autoAverages, recAt := none } s
  else s

/-- The averages used for a number asked: the largest power of two not above it, within 1 to 64 (R143). -/
def averagesUsed (n : Nat) : Nat :=
  if n < 2 then 1 else if n < 4 then 2 else if n < 8 then 4 else if n < 16 then 8 else if n < 32 then 16
  else if n < 64 then 32 else 64

end Sys2Proof.Machine
end

