-- ==== Sys2Proof/Machine/Power.lean ====
section
/-! DEFINITION. The Power Controller (01_port_power_and_the_cell_budget.md): classes (R1), the ON command (R3, R4), detection
(R5), the budget queue and grants (R6 to R8), inrush, foldback and trips (R9 to R13), power removal (R14, R15), shedding (R16,
R17), the supply (R18, R19), the end of a sweep (R20, R160) and the stop (R22). -/

namespace Sys2Proof.Machine

/-! ## Classes and limits -/

/-- The reservation of a class, in dW (R1). -/
def reservation : PowerClass → Nat
  | .a => 48 | .b => 96 | .c => 168 | .d => 240

/-- The current limit of a class, in mA (R1). -/
def currentLimit : PowerClass → Nat
  | .a => 200 | .b => 400 | .c => 700 | .d => 1000

/-- The short threshold of a class, in mA (R1). -/
def shortLimit : PowerClass → Nat
  | .a => 600 | .b => 1200 | .c => 2100 | .d => 3000

/-- The detection time, in ms (R5). -/
def detectMs : Nat := 8
/-- The inrush limit, in ms (R9). -/
def inrushMs : Nat := 50
/-- The foldback limit, in ms (R10). -/
def foldbackMs : Nat := 20
/-- The largest cell budget, in dW (R16). -/
def maxBudget : Nat := 1920
/-- The supply voltage below which the supply-low flag is set, in mV (R18). -/
def supplyLowMv : Nat := 20000
/-- The supply voltage from which on the supply-low flag clears, in mV (R19). -/
def supplyOkMv : Nat := 21000

/-- A port's power state. -/
def powerOf (p : PortId) (s : State) : PowerState := (s.port p).power.state

/-! ## The ON command in flight -/

/-- The ON command in flight of a port completes, if there is one (R4). -/
def completeOn (p : PortId) (code : Code) (s : State) : State :=
  match (s.port p).power.onCommand with
  | none => s
  | some a => completeCommand a code [] (modPower p (fun w => { w with onCommand := none }) s)

/-- An accepted ON command becomes the one in flight and loads retries remaining (R3). -/
def acceptOn (p : PortId) (a : Addr) : State → State :=
  modPower p fun w => { w with onCommand := some a, retries := w.retryCount }

/-! ## States of a port -/

/-- Entry to DETECT: the class setting is taken into use and the measurement starts (R1, R5). -/
def enterDetect (p : PortId) : State → State :=
  modPower p fun w => { w with state := .detect, clsInUse := w.cls, detectTimer := some detectMs }

/-- Every timer of a port but the cooldown stops (R9, R10, R11, R14, R18). -/
def stopTimers (w : PortPower) : PortPower := { w with detectTimer := none, inrushTimer := none, foldbackTimer := none }

/-- Entry to OFF with a cause; retries remaining and pending-on are cleared (R5, R14, R17, R18, R22). -/
def enterOff (p : PortId) (cause : Code) : State → State :=
  modPower p fun w => { stopTimers w with state := .off, cause := cause, retries := 0, pendingOn := false }

/-- A powered port's reservation is released and the port leaves the grant-order list (R8). -/
def releaseGrant (p : PortId) (s : State) : State :=
  modPowerCell (fun c => { c with
    grants := c.grants.erase p, reserved := c.reserved - reservation (s.port p).power.clsInUse }) s

/-- A port leaves the budget queue (R7). -/
def leaveQueue (p : PortId) : State → State := modPowerCell fun c => { c with queue := c.queue.erase p }

/-- What power removal does to the rest of the port: link DOWN, entries closed with POWER_LOST, channel SUSPENDED with READY
and identity cleared, lens units UNKNOWN (R15, R57). -/
def powerRemoved (p : PortId) (s : State) : State :=
  forgetCodes p (suspendChannel p .linkLost true (closeAll p .powerLost (linkDown p s)))

/-! ## The budget queue -/

/-- May this port be granted now? No port is in INRUSH and its reservation fits the budget (R6). -/
def grantable (p : PortId) (s : State) : Bool :=
  allPorts.all (fun q => decide (powerOf q s ≠ .inrush))
    && decide (s.power.reserved + reservation (s.port p).power.clsInUse ≤ s.power.budget)

/-- A grant: from the head of the queue to the tail of the grant-order list, its reservation held, and into INRUSH with the
inrush timer started (R6, R9). No current has been read yet (log 12). -/
def grant (p : PortId) (rest : List PortId) (s : State) : State :=
  modPower p (fun w => { w with state := .inrush, inrushTimer := some inrushMs, loadMa := 0 })
    (modPowerCell (fun c => { c with
      queue := rest, grants := c.grants ++ [p]
      reserved := c.reserved + reservation (s.port p).power.clsInUse }) s)

/-- The budget queue is examined: only its head is considered (R6, R7). -/
def examineBudget (s : State) : State :=
  match s.power.queue with
  | [] => s
  | p :: rest => if grantable p s then grant p rest s else s

/-! ## Trips and turning off -/

/-- Entry to TRIPPED with a cause (R12). -/
def trip (p : PortId) (cause : Code) (s : State) : State :=
  let wasPowered := isPowered (powerOf p s)
  let s1 := if wasPowered then releaseGrant p s else s
  let s2 := modPower p (fun w => { stopTimers w with
    state := .tripped, cause := cause, cooldown := some (1000 * w.cooldownS) }) s1
  let s3 := setPortAlert p alertTrip (completeOn p cause s2)
  let s4 := if wasPowered then powerRemoved p s3 else s3
  let s5 := requestAutoSweep p cause s4
  if wasPowered then examineBudget s5 else s5

/-- A powered, queued or detecting port is turned off with a cause, without an examination of the queue (R14, R17, R18). -/
def turnOff (p : PortId) (cause : Code) (s : State) : State :=
  match powerOf p s with
  | .detect => enterOff p cause s
  | .queued => enterOff p cause (leaveQueue p s)
  | .inrush | .on | .foldback => powerRemoved p (enterOff p cause (releaseGrant p s))
  | .off | .tripped => s

/-- PORT_POWER ON (R3). -/
def takePowerOn (a : Addr) (p : PortId) (s : State) : State :=
  let w := (s.port p).power
  if s.power.supplyLow then completeCommand a .supplyLow [] s
  else
    match w.state with
    | .on | .foldback => completeCommand a .ok [] s
    | .off =>
      if w.onCommand.isSome then completeCommand a .inProgress [] s
      else if underTest p s then modPower p (fun w => { w with pendingOn := true }) (acceptOn p a s)
      else enterDetect p (acceptOn p a s)
    | .detect | .queued | .inrush => if w.onCommand.isSome then completeCommand a .inProgress [] s else acceptOn p a s
    | .tripped =>
      if w.onCommand.isSome then completeCommand a .inProgress [] s
      else modPower p (fun w => { w with pendingOn := true }) (acceptOn p a s)

/-- The host turns a port off: PORT_POWER OFF's effect on the port (R14), also made at a start for a port the run does not use
(R179). DESIGN CHOICE (log 32): an ON command in flight completes before the OFF record. -/
def hostOff (p : PortId) (s : State) : State :=
  let s1 := completeOn p .cancelled s
  match powerOf p s with
  | .off | .tripped => modPower p (fun w => { w with retries := 0, pendingOn := false }) s1
  | .detect => turnOff p .hostOff s1
  | .queued | .inrush | .on | .foldback => examineBudget (turnOff p .hostOff s1)

/-- PORT_POWER OFF (R14); the OFF record completes last (log 32). -/
def takePowerOff (a : Addr) (p : PortId) (s : State) : State := completeCommand a .ok [] (hostOff p s)

/-! ## Detection and inrush -/

/-- The outcomes of a signature measurement (R5). -/
inductive Signature where
  | short | head | open | invalid
  deriving DecidableEq, Repr

/-- Judge a measured resistance, in ohms (R5). -/
def judgeSignature (ohms : Nat) : Signature :=
  if ohms < 100 then .short
  else if 20000 ≤ ohms ∧ ohms ≤ 30000 then .head
  else if 1000000 < ohms then .open
  else .invalid

/-- A detection ends without a head: OFF with the cause, and the ON command fails with it (R4, R5). -/
def detectFailed (p : PortId) (cause : Code) (s : State) : State := completeOn p cause (enterOff p cause s)

/-- The signature measurement completes (R5, R6). -/
def detectDone (p : PortId) (ohms : Nat) (s : State) : State :=
  if powerOf p s = .detect then
    match judgeSignature ohms with
    | .short => trip p .shortDetect s
    | .head =>
      examineBudget (modPowerCell (fun c => { c with queue := c.queue ++ [p] })
        (modPower p (fun w => { stopTimers w with state := .queued }) s))
    | .open => requestAutoSweep p .noHead (detectFailed p .noHead s)
    | .invalid => detectFailed p .badSignature s
  else s

/-- The port voltage reaches 21.6 V in INRUSH (R9): ON with cause NONE, the ON command DONE, the link hunts, the queue is
examined. -/
def inrushDone (p : PortId) (s : State) : State :=
  if powerOf p s = .inrush then
    examineBudget (linkUp p (completeOn p .ok
      (modPower p (fun w => { stopTimers w with state := .on, cause := .ok }) s)))
  else s

/-- The inrush timer expires (R9). -/
def inrushExpired (p : PortId) (s : State) : State := if powerOf p s = .inrush then trip p .inrushFail s else s

/-- A current reading of a powered port, in mA: the short threshold first (R11), then the class limit (R10, R21). -/
def currentSampled (p : PortId) (ma : U16) (s : State) : State :=
  let w := (s.port p).power
  if isPowered w.state then
    let s1 := modPower p (fun w => { w with loadMa := ma }) s
    if shortLimit w.clsInUse ≤ ma.toNat then trip p .short s1
    else if w.state = .on ∧ currentLimit w.clsInUse < ma.toNat then
      modPower p (fun w => { w with state := .foldback, foldbackTimer := some foldbackMs }) s1
    else if w.state = .foldback ∧ ma.toNat ≤ currentLimit w.clsInUse then
      modPower p (fun w => { w with state := .on, foldbackTimer := none }) s1
    else s1
  else s

/-- The foldback timer expires (R10). -/
def foldbackExpired (p : PortId) (s : State) : State := if powerOf p s = .foldback then trip p .overload s else s

/-! ## Cooldown and the end of a sweep -/

/-- The decision at the end of a cooldown (R13). -/
def decideCooldown (p : PortId) (s : State) : State :=
  let w := (s.port p).power
  let s1 := modPower p (fun w => { w with expired := false }) s
  if s.power.supplyLow then modPower p (fun w => { w with state := .off, cause := .supplyLow, retries := 0 }) s1
  else if w.pendingOn then enterDetect p (modPower p (fun w => { w with pendingOn := false }) s1)
  else if 0 < w.retries then enterDetect p (modPower p (fun w => { w with retries := w.retries - 1 }) s1)
  else modPower p (fun w => { w with state := .off }) s1

/-- The cooldown timer expires: the decision, or the mark while a sweep is on the port (R13). -/
def cooldownExpired (p : PortId) (s : State) : State :=
  let w := (s.port p).power
  if w.state = .tripped ∧ w.cooldown.isSome then
    let s1 := modPower p (fun w => { w with cooldown := none }) s
    if underTest p s then modPower p (fun w => { w with expired := true }) s1 else decideCooldown p s1
  else s

/-- The sweep on a port has completed or has been abandoned (R20, R160). -/
def sweepEnded (p : PortId) (s : State) : State :=
  let w := (s.port p).power
  if w.state = .off ∧ w.pendingOn then enterDetect p (modPower p (fun w => { w with pendingOn := false }) s)
  else if w.state = .tripped ∧ w.expired then decideCooldown p s
  else s

/-! ## Budget and supply -/

/-- Shed one port (R17): power removed, OFF with cause SHED, its ON command failed, its SHED alert set. -/
def shedPort (p : PortId) (s : State) : State := setPortAlert p alertShed (completeOn p .shed (turnOff p .shed s))

/-- Shed ports from the newest end of the grant-order list until the reserved sum fits the budget (R17). The first number
bounds the sheddings; the mask gathers the ports shed. -/
def shedLoop : Nat → State → List PortId → State × List PortId
  | 0, s, shed => (s, shed)
  | n + 1, s, shed =>
    if s.power.reserved ≤ s.power.budget then (s, shed)
    else
      match s.power.grants.getLast? with
      | none => (s, shed)
      | some p => shedLoop n (shedPort p s) (p :: shed)

/-- SET_BUDGET (R16): the clamped budget, shedding, completion with the budget applied and the shed mask, then the queue. -/
def takeSetBudget (a : Addr) (budget : U32) (s : State) : State :=
  let n := min budget.toNat maxBudget
  let s1 := modPowerCell (fun c => { c with budget := n }) s
  let x := shedLoop s1.power.grants.length s1 []
  examineBudget (completeCommand a .ok (leBytes 4 n ++ u8 (portsMask x.2).toNat) x.1)

/-- What the setting of the supply-low flag does to one port (R18). -/
def supplyLowPort (p : PortId) (s : State) : State :=
  let s1 := turnOff p .supplyLow s
  let s2 := if isPowered (powerOf p s) then setPortAlert p alertSupplyLow s1 else s1
  completeOn p .supplyLow (modPower p (fun w => { w with pendingOn := false }) s2)

/-- The supply-low flag is set (R18). -/
def supplyFell (s : State) : State :=
  setCellAlert cellAlertSupplyLow
    (forPorts allPorts supplyLowPort (modPowerCell (fun c => { c with supplyLow := true }) s))

/-- The supply is measured, in mV: the flag is set below 20.0 V and clears from 21.0 V on (R18, R19). DESIGN CHOICE (log 12): the
voltage stands until the next row that carries one. -/
def supplySampled (mv : U32) (s : State) : State :=
  let s1 := modPowerCell (fun c => { c with supplyMv := mv }) s
  if mv.toNat < supplyLowMv ∧ ¬ s.power.supplyLow then supplyFell s1
  else if supplyOkMv ≤ mv.toNat ∧ s.power.supplyLow then modPowerCell (fun c => { c with supplyLow := false }) s1
  else s1

/-! ## Cell stop -/

/-- A cell stop at one port (R22). -/
def stopPortPower (p : PortId) (s : State) : State :=
  let s1 := match powerOf p s with
    | .detect | .queued => turnOff p .stopped s
    | _ => s
  modPower p (fun w => { w with retries := 0, pendingOn := false }) (completeOn p .stopped s1)

/-- A cell stop at the Power Controller (R22). -/
def stopPower (s : State) : State := forPorts allPorts stopPortPower s

end Sys2Proof.Machine
end

