-- ==== Sys2Proof/Machine/ChannelEvents.lean ====
section
/-! DEFINITION. The events of the control channel: answers, HOLD and data of a transaction in progress (R44 to R47), head notes
(R51 to R54, R101), the identification retry (R55) and the lens deadline (R95). Where an answer is not awaited it is not taken
(log 29). -/

namespace Sys2Proof.Machine

/-- The transaction in progress of a channel that is SENDING. -/
def sending (c : Channel) : Option Txn := if c.state = .sending then c.txn else none

/-! ## Answers -/

/-- ACK or NACK to a header, to a written word, or NACK in place of the first word of a read (R44, R45). -/
def answered (p : PortId) (ack : Bool) (s : State) : State :=
  match sending (s.port p).ctl with
  | none => s
  | some t =>
    match t.stage with
    | .header => if ack then headerAcked p t s else finishTxn p .nack s
    | .word i => if ack then wordAcked p t i s else finishTxn p .nack s
    | .data => if !ack && t.data.isEmpty then finishTxn p .nack s else s
    | .hold => s

/-- Has a transaction the hold limit of the channel? All but LENS (R47). -/
def holdLimitOf (m : Message) : Option Nat := if isLensMessage m then none else some holdMs

/-- A HOLD sign: the final word of a part is held; anywhere else it counts as a NACK (R46, R47). -/
def holdSigned (p : PortId) (s : State) : State :=
  match sending (s.port p).ctl with
  | none => s
  | some t =>
    match t.stage with
    | .word i =>
      if finalWord t i then
        modCtl p (fun c => { c with txn := some { t with stage := .hold }, replyTimer := none
                                    holdTimer := holdLimitOf t.message }) s
      else finishTxn p .nack s
    | .header => finishTxn p .nack s
    | .data => finishTxn p .nack s
    | .hold => s

/-- The real answer after a HOLD (R46). -/
def holdAnswered (p : PortId) (ack : Bool) (s : State) : State :=
  match sending (s.port p).ctl with
  | none => s
  | some t =>
    if t.stage = .hold then
      (if ack then partDone p { t with acked := t.acked + 1 } s else finishTxn p .nack s)
    else s

/-- A data word of a READ (R44). -/
def dataWord (p : PortId) (w : U16) (s : State) : State :=
  match sending (s.port p).ctl with
  | none => s
  | some t =>
    if t.stage = .data then
      let t' := { t with data := t.data ++ [w] }
      let s1 := awaitAnswer p t' s
      match currentPart t with
      | none => s
      | some u => if t'.data.length < u.count then s1 else finishTxn p .acknowledged s1
    else s

/-- The reply timeout expires (R47). -/
def replyExpired (p : PortId) (s : State) : State :=
  let c := (s.port p).ctl
  if (sending c).isSome ∧ c.replyTimer.isSome then finishTxn p .noReply s else s

/-- The hold limit expires (R47). -/
def holdExpired (p : PortId) (s : State) : State :=
  let c := (s.port p).ctl
  if (sending c).isSome ∧ c.holdTimer.isSome then finishTxn p .noReply s else s

/-! ## Notes -/

/-- Put a message back at the head of its class (R51). -/
def putBack (m : Message) (c : Channel) : Channel :=
  match m with
  | .expose t => { c with exposes := t :: c.exposes }
  | .lens l => { c with lensMsgs := l :: c.lensMsgs }
  | .access h => { c with heads := .access h :: c.heads }
  | .ping => { c with heads := .ping :: c.heads }

/-- Is a symbol a header? -/
def isHeader : Symbol → Bool
  | .header .. => true
  | _ => false

/-- Enter NOTE with the limit between note parts running (R51, R52). -/
def enterNote (c : Channel) : Channel := { c with state := .note, noteTimer := some noteMs }

/-- The head's start mark (R51): on an IDLE channel, or in a collision with the card's own start, which is abandoned before its
header (log 21). -/
def noteBegins (p : PortId) (collides : Bool) (s : State) : State :=
  let c := (s.port p).ctl
  match c.state, c.txn with
  | .idle, _ => modCtl p enterNote s
  | .sending, some t =>
    if collides ∧ t.part = 0 ∧ t.stage = .header then
      modCtl p (fun c => enterNote (putBack t.message { c with txn := none, replyTimer := none, holdTimer := none }))
        { s with cable := s.cable.eraseP fun e => decide (e.port = p) && isHeader e.symbol }
    else s
  | _, _ => s

/-- An OVERTEMP note taken at its end mark (R53). -/
def overtempTaken (p : PortId) (s : State) : State :=
  if noteTaken (s.port p).ctl then endNote p (setPortAlert p alertOvertemp s) else s

/-- A LENS_FAULT note taken at its end mark; one whose unit is not 1 to 4 is discarded (R52, R53, R101). -/
def lensFaultTaken (p : PortId) (unit : Byte) (s : State) : State :=
  if noteTaken (s.port p).ctl then
    match unitOf unit.toNat with
    | some u => endNote p (setPortAlert p alertLensFault (setKnown p u none s))
    | none => endNote p s
  else s

/-- A HEAD_RESTARTED note taken at its end mark (R54, R55). -/
def headRestartTaken (p : PortId) (s : State) : State :=
  if noteTaken (s.port p).ctl then
    endNote p (queuePing p
      (modCtl p (fun c => { c with noCompare := true, retryTimer := none }) (headRestart p s)))
  else s

/-- A note discarded at its end mark (R52). -/
def noteDropped (p : PortId) (s : State) : State := if noteTaken (s.port p).ctl then endNote p s else s

/-- A part of a note does not arrive in time (R52). -/
def noteExpired (p : PortId) (s : State) : State := if (s.port p).ctl.state = .note then endNote p s else s

/-! ## Identification retry and lens deadline -/

/-- The identification retry timer expires (R55). -/
def retryExpired (p : PortId) (s : State) : State :=
  let c := (s.port p).ctl
  if c.retryTimer.isSome ∧ c.state ≠ .suspended then
    arbitrate p (queuePing p (modCtl p (fun c => { c with retryTimer := none }) s))
  else s

/-- The Lens Controller withdraws its LENS message: a transaction in progress is abandoned with an abort mark, a pending message
leaves its class (R47, R95). -/
def withdrawLens (p : PortId) (s : State) : State :=
  match sending (s.port p).ctl with
  | some t =>
    if isLensMessage t.message then
      sendSymbol p .abortMark
        (modCtl p (fun c => { c with state := .idle, txn := none, replyTimer := none, holdTimer := none }) s)
    else modCtl p (fun c => { c with lensMsgs := [] }) s
  | none => modCtl p (fun c => { c with lensMsgs := [] }) s

/-- The lens deadline expires before the LENS transaction has ended (R95): the unit in progress is CUT, the phase ends LATE, and
the next phase and the next message follow (R91, R50). -/
def deadlineExpired (p : PortId) (s : State) : State :=
  match (s.port p).lens.phase with
  | none => s
  | some ph =>
    if ph.deadline.isSome then
      arbitrate p (advanceLens p (endPhase p none true (withdrawLens p (settleTargets p .cut s))))
    else s

end Sys2Proof.Machine
end

