-- ==== Sys2Proof/Machine/Triggers.lean ====
section
/-! DEFINITION. The Trigger Sequencer and the Set Coordinator at a fire (04_triggers_and_take_patterns.md, 07_frame_sets.md):
the axes (R64), arming (R70), fires (R74), take patterns (R76), admission and binding of single ports (R77 to R80, R89) and of
sets (R130 to R133), PITCH points (R71) and the debouncers (R66, R72). -/

namespace Sys2Proof.Machine

/-! ## Sources -/

/-- The four sources, in ascending order. -/
def allSources : List SourceId := [0, 1, 2, 3]

/-- A source's state. -/
def State.source (s : State) (k : SourceId) : Source := s.trig.sources[k]

/-- Change one source. -/
def modSource (k : SourceId) (f : Source → Source) : State → State :=
  modTrig fun t => { t with sources := t.sources.set k (f t.sources[k]) }

/-- The trigger number at which a source is IDLE until hard reset (R67). -/
def lastNumber : U32 := 0xFFFFFFFF#32

/-- The source whose mask holds a port, if any (R69). -/
def State.sourceOf (s : State) (p : PortId) : Option SourceId :=
  allSources.find? fun k => (s.source k).mask.getLsbD p.val

/-- A point within the 32-bit range (R70, R71). -/
def pointInRange (n : Int) : Option U32 :=
  if -2147483648 ≤ n ∧ n ≤ 2147483647 then some (BitVec.ofInt 32 n) else none

/-- The grid point that follows a position in a direction (R70). -/
def nextGridPoint (dir : Direction) (origin pos : Int) (pitch : Nat) : Int :=
  match dir with
  | .forward => if pos < origin then origin else origin + ((pos - origin) / pitch + 1) * pitch
  | .reverse => if origin < pos then origin else origin - ((origin - pos) / pitch + 1) * pitch

/-- Has a source with a fires limit reached it? (R70, R71) -/
def limitReached (limit made : U32) : Bool := decide (limit ≠ 0) && decide (limit.toNat ≤ made.toNat)

/-- IDLE with no next point. -/
def idleSource (x : Source) : Source := { x with active := false, next := none }

/-- Arm a PITCH source from the position of its axis (R70). -/
def armPitch (g : PitchProgramme) (pos : U32) (x : Source) : Source :=
  if x.number = lastNumber ∨ limitReached g.limit x.made then idleSource x
  else
    match pointInRange (nextGridPoint g.direction g.origin.toInt pos.toInt g.pitch) with
    | some n => { x with active := true, next := some n }
    | none => idleSource x

/-- One pitch further in the source's direction, or IDLE where the range ends (R71). -/
def movePoint (g : PitchProgramme) (x : Source) : Source :=
  match x.next with
  | none => x
  | some n =>
    match pointInRange (match g.direction with | .forward => n.toInt + g.pitch | .reverse => n.toInt - g.pitch) with
    | some m => { x with next := some m }
    | none => idleSource x

/-- A source at a fire: number and fires-made count rise; it becomes IDLE at the last number and, for a PITCH source, at its
fires limit (R67, R71, R73, R74). -/
def countFire (x : Source) : Source :=
  let y := { x with number := x.number + 1, made := x.made + 1 }
  let ends := match y.kind with
    | .pitch g => limitReached g.limit y.made
    | _ => false
  if decide (y.number = lastNumber) || ends then idleSource y else y

/-! ## Take patterns -/

/-- The pattern position after one step (R76). -/
def nextPosition (t : Taker) : Nat := if t.position + 1 < t.length then t.position + 1 else 0

/-- Is the fire a take attempt for this pattern? (R76) -/
def takeBit (t : Taker) : Bool := t.bits.getLsbD t.position

/-- A fire reaches a port: its last trigger number, and one step of its pattern (R74, R76, R130). -/
def stepPattern (number : U32) (t : Taker) : Taker := { t with lastTrigger := number, position := nextPosition t }

/-! ## The take -/

/-- What a fire carries to every port (R74). -/
structure Fire where
  source : SourceId
  number : U32
  axisA : U32
  axisB : U32
  time : U64
  deriving DecidableEq, Repr

/-- Store formats by their value (R202). -/
def storeFormat : Nat → Option StoreFormat
  | 0 => some .packed
  | 1 => some .wide16
  | 2 => some .wide16Swap
  | _ => none

/-- The buffer fields of an image record, if it is sound: the image kind, a known store format, a stride above 0 (R79, R200). -/
def readImageRecord (a : Addr) (s : State) : Option (Addr × Nat × Nat × StoreFormat) :=
  let bs := readBytes s.mem a 0x21
  match storeFormat (field bs 0x20 1) with
  | none => none
  | some fmt =>
    if field bs 0 1 = 2 ∧ field bs 0x1C 4 ≠ 0 then
      some (BitVec.ofNat 64 (field bs 0x10 8), field bs 0x18 4, field bs 0x1C 4, fmt)
    else none

/-- The lens record a take finds: only in lens mode CHAIN (R79, R88). -/
def lensOffered (p : PortId) (s : State) : Option Addr := if (s.port p).lens.chain then need (.lens p) s else none

/-- Does check 4 hold: no lens record asked for, or one offered? (R77, R131) -/
def lensSupplied (p : PortId) (s : State) : Bool :=
  !((s.port p).lens.chain && decide ((s.port p).lens.policy = .skipTake)) || (need (.lens p) s).isSome

/-- The trigger fields of an image record from 0x21 to 0x47, written at bind (R79, R200). -/
def bindBytes (f : Fire) (set : Option (SetId × U32)) (lensRec : Option Addr) : List Byte :=
  u8 f.source.val ++ orFF (set.map (·.1)) ++ zeros 1 ++ u32 f.number ++ u32 ((set.map (·.2)).getD 0)
    ++ u32 f.axisA ++ u32 f.axisB ++ zeros 4 ++ u64 f.time ++ u64 (lensRec.getD 0)

/-- A taken lens record that is malformed is completed at once (R89, log 26). -/
def failMalformedLens (p : PortId) (f : Fire) (l : Addr) (s : State) : State :=
  completeLens p l .badRecord f.source f.number .none lensFlagBadRecord [] 0 0 s

/-- What a port's chains offer to a take (R79, R89): a sound image record with its buffer fields and, in lens mode CHAIN, a lens
record with its pairs, none where it is malformed. -/
structure Offer where
  image : Addr
  buffer : Addr × Nat × Nat × StoreFormat
  lens : Option (Addr × Option (List (UnitId × Int)))
  deriving DecidableEq, Repr

/-- The sound offer of a port's chains, if there is one (R79, R89, R131). -/
def soundOffer (p : PortId) (s : State) : Option Offer :=
  (need (.image p) s).bind fun a => (readImageRecord a s).map fun h =>
    { image := a, buffer := h, lens := (lensOffered p s).map fun l => (l, readLensRecord l s) }

/-- Bind a sound take (R79, R80, R89, R133): the image record and the lens record are taken, the trigger fields and BOUND are
written, a malformed lens record is completed, and the exposure entry is appended. DESIGN CHOICE (log 34): the lens record's TAKEN is
written first and the completion of a malformed one comes after BOUND; DESIGN CHOICE (log 42): the trigger fields go out in one write. -/
def bindTake (p : PortId) (f : Fire) (set : Option (SetId × U32)) (x : Offer) (s : State) : State :=
  let s1 := takeRecord (.image p) x.image s
  let s2 := match x.lens with
    | some (l, _) => writeRecordState l .taken (takeRecord (.lens p) l s1)
    | none => s1
  let s3 := writeRecordState x.image .bound (dmaWrite (x.image + 0x21) (bindBytes f set (x.lens.map (·.1))) s2)
  let s4 := match x.lens with
    | some (l, none) => failMalformedLens p f l s3
    | _ => s3
  let pairs := x.lens.bind (·.2)
  let e : Entry :=
    { source := f.source, trigger := f.number, axisA := f.axisA, axisB := f.axisB, time := f.time, image := x.image
      bufAddr := x.buffer.1, bufSize := x.buffer.2.1, stride := x.buffer.2.2.1, format := x.buffer.2.2.2
      lensRec := x.lens.map (·.1), lensPairs := pairs, badLens := x.lens.isSome && pairs.isNone, set := set
      phase := .lensWait, outcome := .none, flags := 0, exposedAt := 0, timer := none, opened := none }
  modTake p (fun t => { t with takes := t.takes + 1 })
    (modFrame p (fun r => { r with entries := r.entries ++ [e] }) s4)

/-- A bound entry is handed to the Lens Controller, and the channel may begin what it queued (R80, R91, R50). -/
def handEntry (p : PortId) (s : State) : State := arbitrate p (advanceLens p s)

/-! ## Single ports -/

/-- A refusal for want of an image record: counted, and the alert set (R78). -/
def refuseNoBuffer (p : PortId) (s : State) : State :=
  setPortAlert p alertNoBuffer (modTake p (fun t => { t with noBuffer := t.noBuffer + 1 }) s)

/-- The admission of a take attempt on a port that is in no set (R77), and its take (R79). -/
def admitSingle (p : PortId) (f : Fire) (s : State) : State :=
  let q := s.port p
  if !q.ctl.ready then modTake p (fun t => { t with notReady := t.notReady + 1 }) s
  else if 4 ≤ q.frame.entries.length then modTake p (fun t => { t with overtrigger := t.overtrigger + 1 }) s
  else
    match need (.image p) s with
    | none => refuseNoBuffer p s
    | some a =>
      if !lensSupplied p s then modTake p (fun t => { t with lensDry := t.lensDry + 1 }) s
      else
        match soundOffer p s with
        | some x => handEntry p (bindTake p f none x s)
        | none => refuseNoBuffer p (failImageAtBind p a (takeRecord (.image p) a s))

/-- A fire reaches a port that is in no set (R74, R76). -/
def fireSingle (p : PortId) (f : Fire) (s : State) : State :=
  let bit := takeBit (s.port p).take
  let t := modTake p (stepPattern f.number) s
  if bit then admitSingle p f t else modTake p (fun t => { t with skips := t.skips + 1 }) t

/-! ## Sets -/

/-- Why a take attempt of a set fails: the refusal and the member it is found on (R131). -/
def setRefusal (z : FrameSet) (s : State) : Option (Code × Option PortId) :=
  let ms := maskPorts z.mask
  match ms.find? fun p => !(s.port p).ctl.ready with
  | some p => some (.notReady, some p)
  | none =>
    match ms.find? fun p => decide (4 ≤ (s.port p).frame.entries.length) with
    | some p => some (.overtrigger, some p)
    | none =>
      if 4 ≤ z.items.length then some (.overtrigger, none)
      else
        match ms.find? fun p => (need (.image p) s).isNone with
        | some p => some (.noBuffer, some p)
        | none =>
          match ms.find? fun p => !lensSupplied p s with
          | some p => some (.lensDry, some p)
          | none =>
            (ms.find? fun p => ((need (.image p) s).bind fun a => readImageRecord a s).isNone).map fun p =>
              (.badRecord, some p)

/-- The unsound record that a member's image chain offers at check 5, if any (R131, R132). -/
def unsoundOffer (p : PortId) (s : State) : Option (PortId × Addr) :=
  (need (.image p) s).bind fun a => if (readImageRecord a s).isNone then some (p, a) else none

/-- An unsound record found at check 5 is taken from its member's chain and completed at once (R132). DEDUCED (log 40): as the check
found it, whatever the members before it have done. -/
def dropUnsound (x : PortId × Addr) (s : State) : State := failImageAtBind x.1 x.2 (takeRecord (.image x.1) x.2 s)

/-- A set skip (R132). -/
def skipSet (k : SetId) (reason : Code × Option PortId) (s : State) : State :=
  let ms := maskPorts s.sets[k].mask
  let t := modSet k (fun z => { z with skips := z.skips + 1, reason := some reason }) s
  match reason.1 with
  | .noBuffer => forPorts (ms.filter fun p => (need (.image p) s).isNone) (fun p => setPortAlert p alertNoBuffer) t
  | .badRecord => (ms.filterMap fun p => unsoundOffer p s).foldl (fun t x => dropUnsound x t) t
  | _ => t

/-- One member's share of an admitted take of a set (R133). DEDUCED (log 40): it binds what its chains offered at the checks, so that
one image record offered by two members' chains is bound by both. -/
def bindMember (f : Fire) (k : SetId) (n : U32) (x : PortId × Offer) : State → State := bindTake x.1 f (some (k, n)) x.2

/-- An admitted take of a set (R133): every member binds what its chains offer, the item is appended, and the entries go to their Lens
Controllers. -/
def takeSet (k : SetId) (f : Fire) (s : State) : State :=
  let ms := maskPorts s.sets[k].mask
  let n := s.sets[k].number + 1
  let offers := ms.filterMap fun p => (soundOffer p s).map fun x => (p, x)
  let t := offers.foldl (fun t x => bindMember f k n x t) s
  let item : SetItem :=
    { number := n, source := f.source, trigger := f.number
      slots := offers.map fun x => { port := x.1, image := x.2.image, status := none } }
  forPorts ms handEntry (modSet k (fun z => { z with number := n, items := z.items ++ [item] }) t)

/-- A fire reaches a formed set as one (R130, R131). -/
def fireSet (k : SetId) (f : Fire) (s : State) : State :=
  let z := s.sets[k]
  let ms := maskPorts z.mask
  let bit := match ms.head? with
    | some p => takeBit (s.port p).take
    | none => false
  let t := forPorts ms (fun p => modTake p (stepPattern f.number)) s
  if bit then
    match setRefusal z t with
    | some r => skipSet k r t
    | none => takeSet k f t
  else forPorts ms (fun p => modTake p fun t => { t with skips := t.skips + 1 }) t

/-! ## Fires -/

/-- A fire reaches one port of the mask; a set is reached once, at its lowest member (R74, R130). -/
def firePort (f : Fire) (p : PortId) (s : State) : State :=
  match s.setOf p with
  | none => fireSingle p f s
  | some k => if (maskPorts s.sets[k].mask).head? = some p then fireSet k f s else s

/-- A fire of a source (R74). -/
def fire (k : SourceId) (s : State) : State :=
  let t := modSource k countFire s
  let f : Fire := { source := k, number := (t.source k).number, axisA := s.trig.axisA.position
                    axisB := s.trig.axisB.position, time := s.now }
  forPorts (maskPorts (s.source k).mask) (firePort f) t

/-! ## Axes -/

/-- The direction of a change of the two channels between two samples: up, down or none (R64). -/
def quadrature (ch1 ch2 new1 new2 : Bool) : Option Bool :=
  match ch1, ch2, new1, new2 with
  | false, false, true, false | true, false, true, true | true, true, false, true | false, true, false, false => some true
  | false, false, false, true | false, true, true, true | true, true, true, false | true, false, false, false => some false
  | _, _, _, _ => none

/-- Replace an axis's state. -/
def setAxis (ax : Axis) (x : AxisState) : State → State :=
  modTrig fun t => match ax with
    | .a => { t with axisA := x }
    | .b => { t with axisB := x }

/-- A count of an axis at one source: an ACTIVE PITCH source whose next point is reached in its direction fires while RUNNING,
and its point moves one pitch on (R71). -/
def pitchCount (ax : Axis) (up : Bool) (pos : U32) (k : SourceId) (s : State) : State :=
  let x := s.source k
  match x.kind with
  | .pitch g =>
    if g.axis = ax ∧ x.active ∧ x.next = some pos ∧ (decide (g.direction = .forward)) = up then
      modSource k (movePoint g) (if s.running then fire k s else s)
    else s
  | _ => s

/-- The card samples an axis's channels: a valid single change is one count (R64, R71). -/
def sampleAxis (ax : Axis) (ch1 ch2 : Bool) (s : State) : State :=
  let x := axisState ax s.trig
  match quadrature x.ch1 x.ch2 ch1 ch2 with
  | none => setAxis ax { x with ch1 := ch1, ch2 := ch2 } s
  | some up =>
    let pos := if up then x.position + 1 else x.position - 1
    allSources.foldl (fun t k => pitchCount ax up pos k t) (setAxis ax { position := pos, ch1 := ch1, ch2 := ch2 } s)

/-! ## Inputs -/

/-- An input's debouncer. -/
def debouncer (i : Input) (t : TriggerCell) : Debouncer :=
  match i with
  | .in0 => t.in0
  | .in1 => t.in1

/-- Change an input's debouncer. -/
def modDebouncer (i : Input) (f : Debouncer → Debouncer) : State → State :=
  modTrig fun t => match i with
    | .in0 => { t with in0 := f t.in0 }
    | .in1 => { t with in1 := f t.in1 }

/-- A counted edge at one source: an ACTIVE INPUT source on the input fires (R72). -/
def edgeAt (i : Input) (k : SourceId) (s : State) : State :=
  let x := s.source k
  if x.kind = .input i ∧ x.active then fire k s else s

/-- A counted edge of an input: every INPUT source on it fires while RUNNING, and the edge is lost otherwise (R66, R72). -/
def countEdge (i : Input) (s : State) : State :=
  if s.running then allSources.foldl (fun t k => edgeAt i k t) s else s

/-- The line of an input rises (R66). -/
def lineRises (i : Input) (s : State) : State :=
  let d := debouncer i s.trig
  if d.state = .low then
    if d.setting = 0 then countEdge i (modDebouncer i (fun d => { d with state := .high }) s)
    else modDebouncer i (fun d => { d with state := .rising, timer := some d.setting }) s
  else s

/-- The line of an input falls (R66). -/
def lineFalls (i : Input) : State → State := modDebouncer i fun d => { d with state := .low, timer := none }

/-- The debounce timer of an input expires (R66). -/
def debounceExpires (i : Input) (s : State) : State :=
  if (debouncer i s.trig).state = .rising then
    countEdge i (modDebouncer i (fun d => { d with state := .high, timer := none }) s)
  else s

end Sys2Proof.Machine
end

