-- ==== Sys2Proof/Machine/TriggerCommands.lean ====
section
/-! DEFINITION. The commands of the Trigger Sequencer and the Set Coordinator: SET_SOURCE (R68, R69), SET_PATTERN (R75),
SOFT_TRIGGER (R73), SET_AXIS_POSITION (R65), FORM_SET (R128) and DISSOLVE_SET (R129). -/

namespace Sys2Proof.Machine

/-- A source named by a command field (R68, R73). -/
def sourceNamed (b : Byte) : Option SourceId := if h : b.toNat < 4 then some ⟨b.toNat, h⟩ else none

/-- A set named by a command field (R128, R129). -/
def setNamed (b : Byte) : Option SetId := if h : b.toNat < 4 then some ⟨b.toNat, h⟩ else none

/-- An axis named by a command field: A 1, B 2 (R202). -/
def axisNamed (b : Byte) : Option Axis :=
  if b = 1 then some .a else if b = 2 then some .b else none

/-- An input named by a command field: IN0 0, IN1 1 (R202). -/
def inputNamed (b : Byte) : Option Input := if b = 0 then some .in0 else if b = 1 then some .in1 else none

/-- A direction named by a command field (R202). -/
def directionNamed (b : Byte) : Option Direction := if b = 0 then some .forward else if b = 1 then some .reverse else none

/-- Does a mask name only ports below the port count of the run? (R68, R128, R191) -/
def maskWithin (m : BitVec 8) (s : State) : Bool := (maskPorts m).all fun p => decide (p.val < s.chain.portCount.toNat)

/-! ## SET_SOURCE -/

/-- The largest pitch (R67). -/
def maxPitch : Nat := 16777215
/-- The largest debounce setting, in microseconds (R66). -/
def maxDebounce : Nat := 1000

/-- The kind and programme a SET_SOURCE gives, or none where it names nothing (R68, check 1). DESIGN CHOICE (log 44): direction and pitch
are judged for kind PITCH only. -/
def programmeNamed (x : SourceArgs) : Option SourceKind :=
  if x.kind = 0 then some .none
  else if x.kind = 1 then (inputNamed x.which).map .input
  else if x.kind = 2 then
    match axisNamed x.which, directionNamed x.direction with
    | some ax, some d =>
      if x.pitch = 0 ∨ maxPitch < x.pitch.toNat then none
      else some (.pitch { axis := ax, origin := x.origin, pitch := x.pitch.toNat, direction := d, limit := x.limit })
    | _, _ => none
  else none

/-- Would the new mask of a source split a formed set at this port: move it out of its present source's mask, or into this one
from another source? (R68, check 2; log 31) -/
def splitsSet (k : SourceId) (mask : BitVec 8) (p : PortId) (s : State) : Bool :=
  (s.setOf p).isSome &&
    match s.sourceOf p with
    | none => false
    | some j => if j = k then !mask.getLsbD p.val else mask.getLsbD p.val

/-- The ports a source receives with a new mask (R69). -/
def receivedPorts (k : SourceId) (mask : BitVec 8) (s : State) : List PortId :=
  (maskPorts mask).filter fun p => !(s.source k).mask.getLsbD p.val

/-- The trigger number after the raise of R69: the highest last trigger number of the ports received, if higher. -/
def raisedNumber (k : SourceId) (mask : BitVec 8) (s : State) : U32 :=
  (receivedPorts k mask s).foldl (fun n p => if n.toNat < (s.port p).take.lastTrigger.toNat then (s.port p).take.lastTrigger else n)
    (s.source k).number

/-- Ports leave the masks of every other source (R69). -/
def takeFromOthers (k : SourceId) (mask : BitVec 8) (s : State) : State :=
  allSources.foldl (fun t j => if j = k then t else modSource j (fun x => { x with mask := x.mask &&& ~~~mask }) t) s

/-- A source as SET_SOURCE leaves it: kind, mask, number, fires-made count 0, and its state by kind (R67, R68, R70). -/
def newSource (kind : SourceKind) (mask : BitVec 8) (number : U32) (t : TriggerCell) : Source :=
  let x : Source := { kind := kind, active := false, next := none, mask := mask, number := number, made := 0 }
  match kind with
  | .none => x
  | .input _ => { x with active := decide (number ≠ lastNumber) }
  | .pitch g => armPitch g (axisState g.axis t).position x

/-- SET_SOURCE past its checks (R68, R69). -/
def applySource (k : SourceId) (kind : SourceKind) (x : SourceArgs) (s : State) : State :=
  let number := raisedNumber k x.mask s
  let s1 := modSource k (fun _ => newSource kind x.mask number s.trig) (takeFromOthers k x.mask s)
  match kind with
  | .input i => modDebouncer i (fun d => { d with setting := min x.debounce.toNat maxDebounce }) s1
  | _ => s1

/-- The results of a SET_SOURCE: trigger number, state, debounce applied, next point (R68, R201). -/
def sourceResults (kind : SourceKind) (x : SourceArgs) (y : Source) : List Byte :=
  u32 y.number ++ flag y.active ++ zeros 1
    ++ leBytes 2 (match kind with | .input _ => min x.debounce.toNat maxDebounce | _ => 0)
    ++ u32 (y.next.getD 0)

/-- SET_SOURCE (R68). -/
def takeSetSource (a : Addr) (x : SourceArgs) (s : State) : State :=
  match sourceNamed x.source, programmeNamed x with
  | some k, some kind =>
    if !maskWithin x.mask s then completeCommand a .badArgument [] s
    else if allPorts.any fun p => splitsSet k x.mask p s then completeCommand a .setConflict [] s
    else
      let t := applySource k kind x s
      completeCommand a .ok (sourceResults kind x (t.source k)) t
  | _, _ => completeCommand a .badArgument [] s

/-! ## SET_PATTERN, SOFT_TRIGGER, SET_AXIS_POSITION -/

/-- The ports that share a port's pattern: its set, or itself (R75, R82). -/
def patternPorts (p : PortId) (s : State) : List PortId :=
  match s.setOf p with
  | some k => maskPorts s.sets[k].mask
  | none => [p]

/-- SET_PATTERN (R75). -/
def takeSetPattern (a : Addr) (p : PortId) (length : Byte) (bits : U16) (s : State) : State :=
  let n := length.toNat
  if n = 0 ∨ 16 < n then completeCommand a .badArgument [] s
  else
    let kept : U16 := bits &&& BitVec.ofNat 16 (2 ^ n - 1)
    completeCommand a .ok []
      (forPorts (patternPorts p s) (fun q => modTake q fun t => { t with length := n, bits := kept, position := 0 }) s)

/-- SOFT_TRIGGER (R73). -/
def takeSoftTrigger (a : Addr) (source : Byte) (s : State) : State :=
  match sourceNamed source with
  | none => completeCommand a .badArgument [] s
  | some k =>
    if (s.source k).number = lastNumber then completeCommand a .badArgument [] s
    else completeCommand a .ok (u32 ((s.source k).number + 1)) (fire k s)

/-- Arm a source again after its axis has been loaded, if it is an ACTIVE PITCH source on the axis (R65). -/
def rearm (ax : Axis) (pos : U32) (x : Source) : Source :=
  match x.kind with
  | .pitch g => if g.axis = ax ∧ x.active then armPitch g pos x else x
  | _ => x

/-- SET_AXIS_POSITION (R65). -/
def takeSetAxisPosition (a : Addr) (axis : Byte) (value : U32) (s : State) : State :=
  match axisNamed axis with
  | none => completeCommand a .badArgument [] s
  | some ax =>
    let t := setAxis ax { axisState ax s.trig with position := value } s
    completeCommand a .ok (u32 value) (allSources.foldl (fun t k => modSource k (rearm ax value) t) t)

/-! ## FORM_SET and DISSOLVE_SET -/

/-- Why FORM_SET is refused, if it is (R128). -/
def formRefusal (k : SetId) (mask : BitVec 8) (s : State) : Option Code :=
  let ms := maskPorts mask
  if s.sets[k].formed then some .setConflict
  else if ms.any fun p => (s.setOf p).isSome then some .setConflict
  else if !(allSources.any fun j => ms.all fun p => (s.source j).mask.getLsbD p.val) then some .mixedSource
  else if ms.any fun p => !(s.port p).frame.entries.isEmpty then some .portBusy
  else none

/-- Do a set's members number two to four, all below the port count? (R128, check 1) -/
def membersValid (mask : BitVec 8) (s : State) : Bool :=
  decide (2 ≤ (maskPorts mask).length) && decide ((maskPorts mask).length ≤ 4) && maskWithin mask s

/-- The set is formed: the first member's pattern is copied, positions and counts start at 0 (R128). -/
def formSetNow (k : SetId) (mask : BitVec 8) (lead : Taker) (s : State) : State :=
  let ms := maskPorts mask
  let t := forPorts ms (fun p => modTake p fun t => { t with length := lead.length, bits := lead.bits, position := 0 }) s
  forPorts ms touchPort
    (modSet k (fun z => { z with formed := true, mask := mask, number := 0, skips := 0, reason := none }) t)

/-- FORM_SET (R128). -/
def takeFormSet (a : Addr) (set members : Byte) (s : State) : State :=
  match setNamed set, (maskPorts members).head? with
  | some k, some first =>
    if !membersValid members s then completeCommand a .badArgument [] s
    else
      match formRefusal k members s with
      | some c => completeCommand a c [] s
      | none =>
        let lead := (s.port first).take
        completeCommand a .ok (u32 0 ++ u8 members.toNat ++ u8 lead.length ++ u16 lead.bits) (formSetNow k members lead s)
  | _, _ => completeCommand a .badArgument [] s

/-- A set is dissolved (R129): its former members' mirrors are written. -/
def dissolve (k : SetId) (s : State) : State :=
  forPorts (maskPorts s.sets[k].mask) touchPort (modSet k (fun z => { z with formed := false, mask := 0 }) s)

/-- The results of a DISSOLVE_SET that dissolves nothing: no reason, and no member (R198, log 18). -/
def noDissolveResults : List Byte := flag false ++ u8 0 ++ orFF (none : Option PortId)

/-- The results of a DISSOLVE_SET (R129, R201). -/
def dissolveResults (z : FrameSet) : List Byte :=
  if z.formed then
    flag true ++ (match z.reason with | none => u8 0 ++ u8 0xFF | some (c, m) => u8 (codeNumber c) ++ orFF m)
      ++ zeros 1 ++ u32 z.number ++ u32 z.skips
  else noDissolveResults

/-- DISSOLVE_SET (R129). -/
def takeDissolveSet (a : Addr) (set : Byte) (s : State) : State :=
  match setNamed set with
  | none => completeCommand a .badArgument noDissolveResults s
  | some k =>
    let z := s.sets[k]
    if !z.formed then completeCommand a .ok (dissolveResults z) s
    else if !z.items.isEmpty then completeCommand a .portBusy noDissolveResults s
    else completeCommand a .ok (dissolveResults z) (dissolve k s)

end Sys2Proof.Machine
end

