-- ==== Sys2Proof/Machine/FlexCommands.lean ====
section
/-! DEFINITION. The commands of the Flex Mapper: SET_FLEX_AXIS (R163), READ_FLEX_MAP (R168), CLEAR_FLEX_MAP (R169) and
RELEASE_SNAPSHOT (R173). -/

namespace Sys2Proof.Machine

/-- Clear a flex map: bins, total charge, suspect list and overflow count (R169). -/
def clearMap (x : FlexMap) : FlexMap := { x with bins := .replicate 32 0, total := 0, suspects := [], overflow := 0 }

/-- The suspect threshold applied (R163). -/
def thresholdApplied (t : U16) : Nat := max 16 t.toNat

/-- The flex axis and range a SET_FLEX_AXIS gives, or none where it is refused (R163). -/
def flexRange (axis : Byte) (low high : U32) : Option (Option Axis × U32 × U32) :=
  if axis = 0 then some (none, 0, 0)
  else
    match axisNamed axis with
    | none => none
    | some ax => if low.toInt < high.toInt then some (some ax, low, high) else none

/-- SET_FLEX_AXIS (R163). -/
def takeSetFlexAxis (a : Addr) (p : PortId) (axis : Byte) (threshold : U16) (low high : U32) (s : State) : State :=
  match flexRange axis low high with
  | none => completeCommand a .badArgument [] s
  | some (ax, lo, hi) =>
    let t := thresholdApplied threshold
    completeCommand a .ok (u8 (axisNumber ax) ++ zeros 1 ++ leBytes 2 t ++ u32 lo ++ u32 hi)
      (modFlex p (fun x => clearMap { x with axis := ax, low := lo, high := hi, threshold := t }) s)

/-- The bin with the highest count, the lowest-numbered among equals, or none when every bin is 0 (R168). -/
def peakBin (bins : Vector Nat 32) : Option BinId :=
  (List.finRange 32).foldl (fun best b =>
    match best with
    | none => if bins[b] = 0 then none else some b
    | some c => if bins[c] < bins[b] then some b else some c) none

/-- The results of a READ_FLEX_MAP (R168, R201). -/
def flexMapResults (x : FlexMap) : List Byte :=
  u8 (axisNumber x.axis) ++ u8 x.suspects.length ++ leBytes 2 x.threshold ++ u32 x.low ++ u32 x.high
    ++ (x.bins.toList.map (leBytes 2)).flatten
    ++ (x.suspects.map fun b => u8 b.val).flatten ++ zeros (8 - x.suspects.length)
    ++ u8 x.overflow ++ orFF (peakBin x.bins) ++ zeros 2 ++ u32 x.total

/-- The results of a READ_FLEX_MAP of no port: 0, and no peak bin at its offset 0x55 (R198, R201, log 18). -/
def noFlexMapResults : List Byte := zeros 0x55 ++ orFF (none : Option BinId)

/-- READ_FLEX_MAP (R168). -/
def takeReadFlexMap (a : Addr) (p : PortId) (s : State) : State := completeCommand a .ok (flexMapResults (s.port p).flex) s

/-- CLEAR_FLEX_MAP (R169). -/
def takeClearFlexMap (a : Addr) (p : PortId) (s : State) : State := completeCommand a .ok [] (modFlex p clearMap s)

/-- The results of a RELEASE_SNAPSHOT (R173, R201): with no snapshot, a present flag of 0 and nothing else. -/
def snapshotResults (x : FlexMap) : List Byte :=
  match x.snapshot with
  | none => []
  | some c =>
    flag true ++ u8 (dropCauseNumber c.cause) ++ u8 (powerStateNumber c.power) ++ orFF c.bin ++ u16 c.current
      ++ u8 x.dropsLocked ++ u8 c.history.length
      ++ (match c.frame with
          | none => flag false ++ u8 0 ++ zeros 2 ++ u32 0
          | some (k, n) => flag true ++ u8 k.val ++ zeros 2 ++ u32 n)
      ++ u32 c.axisA ++ u32 c.axisB ++ u32 c.bursts ++ u32 c.damaged ++ u64 c.time
      ++ (c.history.map fun h => u8 (historyByte h)).flatten ++ zeros (8 - c.history.length)

/-- RELEASE_SNAPSHOT (R173). -/
def takeReleaseSnapshot (a : Addr) (p : PortId) (s : State) : State :=
  completeCommand a .ok (snapshotResults (s.port p).flex)
    (match (s.port p).flex.snapshot with
      | none => s
      | some _ => modFlex p (fun x => { x with snapshot := none, dropsLocked := 0 }) s)

end Sys2Proof.Machine
end

