-- ==== Sys2Proof/Machine/SweepAnalysis.lean ====
section
/-! DEFINITION. The arithmetic of a cable sweep (R147 to R157): averaged samples, the launch, echoes, distances, classes and
the verdict, and the result block (R159, R199). -/

namespace Sys2Proof.Machine

/-! ## Averaged samples -/

/-- How many samples a repetition takes (R147). -/
def sampleCount : Nat := 2048

/-- Add one repetition to the running sums (R147). -/
def addRepetition (sums : List Int) (rep : List (BitVec 14)) : List Int :=
  if sums.isEmpty then rep.map (·.toInt) else List.zipWith (fun a x => a + x.toInt) sums rep

/-- The running sums after some repetitions (R147). -/
def sumSamples (sums : List Int) (reps : List (List (BitVec 14))) : List Int := reps.foldl addRepetition sums

/-- The averaged samples: each sum divided by N, truncated toward zero (R147). -/
def averagedSamples (n : Nat) (sums : List Int) : List Int := sums.map fun x => x.tdiv n

/-- The averaged sample at k. -/
def sampleAt (xs : List Int) (k : Nat) : Int := xs.getD k 0

/-! ## Launch -/

/-- The baseline: the mean of samples 0 to 15, truncated toward zero (R149). -/
def baselineOf (xs : List Int) : Int := (xs.take 16).sum.tdiv 16

/-- k0: the first sample from 16 to 1983 above the baseline plus 256 (R149). -/
def launchSample (xs : List Int) : Option Nat :=
  (List.range' 16 1968).find? fun k => decide (baselineOf xs + 256 < sampleAt xs k)

/-- Does a pair straddle a level rising? (R150) -/
def risingPair (a b h : Int) : Bool := decide (a ≤ h) && decide (h < b)

/-- Does a pair straddle a level falling? (R150) -/
def fallingPair (a b h : Int) : Bool := decide (h ≤ a) && decide (b < h)

/-- The time of a crossing of h between samples k (value a) and k + 1 (value b), in ticks (R150). -/
def crossingTime (k : Nat) (a b h : Int) : Nat := 16 * k + ((16 * (h - a)).fdiv (b - a)).toNat

/-- The first crossing of a level among the pairs (k, k + 1) with k from `first` to `first + n - 1` (R150, R151, R153). -/
def firstCrossing (rising : Bool) (xs : List Int) (h : Int) (first n : Nat) : Option Nat :=
  ((List.range' first n).find? fun k =>
    if rising then risingPair (sampleAt xs k) (sampleAt xs (k + 1)) h
    else fallingPair (sampleAt xs k) (sampleAt xs (k + 1)) h).map fun k =>
      crossingTime k (sampleAt xs k) (sampleAt xs (k + 1)) h

/-- What the search for the launch found (R149, R151): baseline, amplitude, and the settled level and launch time of a launch. -/
structure Launch where
  baseline : Int
  amplitude : Int
  found : Option (Int × Nat)
  deriving DecidableEq, Repr

/-- Find the launch (R149, R151). DESIGN CHOICE (log 37): A/2 alone is truncated, before the baseline is added. -/
def findLaunch (xs : List Int) : Launch :=
  let base := baselineOf xs
  match launchSample xs with
  | none => { baseline := base, amplitude := 0, found := none }
  | some k0 =>
    let settled := sampleAt xs (k0 + 64)
    let amp := settled - base
    { baseline := base, amplitude := amp
      found := if amp < 1024 then none
        else (firstCrossing true xs (base + amp.tdiv 2) (k0 - 1) 65).map fun t => (settled, t) }

/-! ## Echoes -/

/-- A run: its first sample, its peak and the peak's sample (R152). -/
structure Run where
  first : Nat
  peak : Int
  peakAt : Nat
  deriving DecidableEq, Repr

/-- The runs of some residuals, the first of which belongs to sample k; `cur` is the run under way (R152). -/
def runsFrom : Nat → List Int → Option Run → List Run
  | _, [], cur => cur.toList
  | k, r :: rs, cur =>
    if r = 0 then cur.toList ++ runsFrom (k + 1) rs none
    else
      match cur with
      | none => runsFrom (k + 1) rs (some ⟨k, r, k⟩)
      | some c =>
        if decide (0 < c.peak) = decide (0 < r) then
          runsFrom (k + 1) rs (some (if c.peak.natAbs < r.natAbs then { c with peak := r, peakAt := k } else c))
        else c :: runsFrom (k + 1) rs (some ⟨k, r, k⟩)

/-- The first sample of the echo search: the first at t0 + 64 ticks or later (R152). -/
def searchStart (t0 : Nat) : Nat := (t0 + 64 + 15) / 16

/-- ρ of a peak in per-mille of the launch amplitude, truncated toward zero and held within ±1000 (R152). -/
def reflection (peak amp : Int) : Int := max (-1000) (min 1000 ((peak * 1000).tdiv amp))

/-- The time of an echo: the crossing of its half peak by the residuals, or the run's first sample (R153). -/
def echoTime (residuals : List Int) (r : Run) : Nat :=
  (firstCrossing (decide (0 < r.peak)) residuals (r.peak.tdiv 2) (r.first - 1) (r.peakAt + 1 - r.first)).getD (16 * r.first)

/-- The classes of an echo (R156). -/
inductive EchoClass where
  | none | open | short | impedanceUp | impedanceDown
  deriving DecidableEq, Repr

/-- Class an echo by its ρ (R156). -/
def echoClass (rho : Int) : EchoClass :=
  if 600 ≤ rho then .open else if rho ≤ -600 then .short else if 0 < rho then .impedanceUp else .impedanceDown

/-- An echo (R154). -/
structure Echo where
  time : Nat
  delay : Int
  distance : Nat
  rho : Int
  cls : EchoClass
  atPort : Bool
  beyondEnd : Bool
  deriving DecidableEq, Repr

/-- The cable length for the distance limit (R145, R155). -/
def effectiveLength (w : SweepSettings) : Nat := if w.length = 0 then 100000 else w.length

/-- The distance of a delay that is not negative, in mm, before the limit (R155). -/
def rawDistance (delay vf : Nat) : Nat := (delay * 14990 * vf + 1000000) / 2000000

/-- Distance, AT_PORT and BEYOND_END of an echo delay (R155). -/
def distanceOf (w : SweepSettings) (delay : Int) : Nat × Bool × Bool :=
  if delay < 0 then (0, true, false)
  else
    let d := rawDistance delay.toNat w.vf
    let limit := effectiveLength w + w.tolerance
    if limit < d then (limit, false, true) else (d, false, false)

/-- The echo of a run (R153 to R156). -/
def echoOf (w : SweepSettings) (residuals : List Int) (t0 : Nat) (amp : Int) (r : Run) : Echo :=
  let t1 := echoTime residuals r
  let delay : Int := (t1 : Int) - t0 - w.offset
  let d := distanceOf w delay
  let rho := reflection r.peak amp
  { time := t1, delay := delay, distance := d.1, rho := rho, cls := echoClass rho, atPort := d.2.1, beyondEnd := d.2.2 }

/-- Every echo of a sweep with a launch, those beyond the list of four included, in order of time (R152 to R156). -/
def findEchoes (w : SweepSettings) (xs : List Int) (settled : Int) (t0 : Nat) (amp : Int) : List Echo :=
  let residuals := xs.map (· - settled)
  let ks := searchStart t0
  ((runsFrom ks (residuals.drop ks) none).filter fun r => decide (w.minor ≤ (reflection r.peak amp).natAbs)).map
    (echoOf w residuals t0 amp)

/-! ## Verdict -/

/-- Verdicts (R157). -/
inductive Verdict where
  | noLaunch | clean | endOpen | endShort | breakOpen | breakShort | damage
  deriving DecidableEq, Repr

/-- Is an echo OPEN or SHORT? -/
def hardEcho (e : Echo) : Bool := decide (e.cls = .open) || decide (e.cls = .short)

/-- The echo of largest magnitude, the earliest on a tie, with its place counted from 1; `i` is the place of the next echo. -/
def largestEcho : Nat → Echo × Nat → List Echo → Echo × Nat
  | _, best, [] => best
  | i, best, e :: es => largestEcho (i + 1) (if best.1.rho.natAbs < e.rho.natAbs then (e, i) else best) es

/-- The verdict and its echo with the echo's place among all found, from 1 (R157). -/
def verdictOf (w : SweepSettings) (es : List Echo) : Verdict × Option (Echo × Nat) :=
  match es with
  | [] => (.clean, none)
  | e0 :: rest =>
    match es.find? hardEcho with
    | some e =>
      let place := es.idxOf e + 1
      let atEnd := decide (w.length ≠ 0) && decide ((w.length : Int) - w.tolerance ≤ e.distance)
      if e.cls = .open then (if atEnd then .endOpen else .breakOpen, some (e, place))
      else (if atEnd then .endShort else .breakShort, some (e, place))
    | none => (.damage, some (largestEcho 2 (e0, 1) rest))

/-- A verdict echo's place in the list of four, or 0 when it was counted in the overflow (R157). -/
def listedPlace (place : Nat) : Nat := if place ≤ 4 then place else 0

/-! ## The result -/

/-- The result of a sweep (R149 to R157). -/
structure SweepResult where
  launch : Launch
  echoes : List Echo
  verdict : Verdict
  chosen : Option (Echo × Nat)
  deriving DecidableEq, Repr

/-- The result of a sweep from its averaged samples (R149 to R157). -/
def analyseSweep (w : SweepSettings) (xs : List Int) : SweepResult :=
  let l := findLaunch xs
  match l.found with
  | none => { launch := l, echoes := [], verdict := .noLaunch, chosen := none }
  | some (settled, t0) =>
    let es := findEchoes w xs settled t0 l.amplitude
    { launch := l, echoes := es, verdict := (verdictOf w es).1, chosen := (verdictOf w es).2 }

/-- The value of an echo class (R202). -/
def echoClassNumber : EchoClass → Nat
  | .none => 0 | .open => 1 | .short => 2 | .impedanceUp => 3 | .impedanceDown => 4

/-- The value of a verdict (R202). -/
def verdictNumber : Verdict → Nat
  | .noLaunch => 1 | .clean => 2 | .endOpen => 3 | .endShort => 4 | .breakOpen => 5 | .breakShort => 6 | .damage => 7

/-- A signed 16-bit field. -/
def i16 (v : Int) : List Byte := u16 (BitVec.ofInt 16 v)
/-- A signed 32-bit field. -/
def i32 (v : Int) : List Byte := u32 (BitVec.ofInt 32 v)

/-- One of the four echo places (R199). -/
def echoBytes (e : Echo) : List Byte :=
  leBytes 2 e.time ++ i16 e.rho ++ i32 e.delay ++ leBytes 4 e.distance ++ u8 (echoClassNumber e.cls)
    ++ u8 ((if e.atPort then 1 else 0) + (if e.beyondEnd then 2 else 0)) ++ zeros 2

/-- The result block from offset 0x04 to 0x7F (R159, R199). -/
def sweepBody (m : Measuring) (done : U64) (r : SweepResult) : List Byte :=
  let w := m.settings
  let listed := r.echoes.take 4
  u8 m.entry.port.val ++ u8 (originNumber m.entry.origin) ++ u8 (codeNumber m.entry.cause)
    ++ u8 (powerStateNumber m.powerAtStart)
    ++ u8 m.entry.averages ++ u8 listed.length ++ leBytes 2 (r.echoes.length - listed.length)
    ++ leBytes 4 w.length ++ leBytes 2 w.tolerance ++ leBytes 2 w.vf ++ leBytes 2 w.offset ++ leBytes 2 w.minor
    ++ u64 m.started ++ u64 done
    ++ i16 r.launch.baseline ++ i16 r.launch.amplitude ++ leBytes 2 ((r.launch.found.map (·.2)).getD 0)
    ++ u8 (verdictNumber r.verdict) ++ u8 ((r.chosen.map fun c => echoClassNumber c.1.cls).getD 0)
    ++ leBytes 4 ((r.chosen.map fun c => c.1.distance).getD 0) ++ i16 ((r.chosen.map fun c => c.1.rho).getD 0)
    ++ u8 ((r.chosen.map fun c => listedPlace c.2).getD 0) ++ zeros 1
    ++ (listed.map echoBytes).flatten ++ zeros (16 * (4 - listed.length)) ++ zeros 8

end Sys2Proof.Machine
end

