-- ==== Sys2Proof/Machine/Sweeps.lean ====
section
/-! DEFINITION. CABLE_SWEEP (R143), the delivery of a completed sweep (R158) and the abandonment of sweeps at a cell stop
(R161). -/

namespace Sys2Proof.Machine

/-- CABLE_SWEEP (R143). -/
def takeCableSweep (a : Addr) (p : PortId) (averages : Byte) (s : State) : State :=
  match powerOf p s with
  | .off | .tripped =>
    if underTest p s then completeCommand a .portBusy [] s
    else joinSweeps { port := p, origin := .host, cause := .ok, averages := averagesUsed averages.toNat, recAt := some a } s
  | _ => completeCommand a .portPowered [] s

/-- Where a port's break record lies in the Cell Block (R199). -/
def breakRecordOffset (p : PortId) : Nat := 0x840 + 0x80 * p.val

/-- Steps 1 to 3 of a delivery: the break record with its sweep count last, then the command record of a host sweep or the alert
of an auto sweep (R158). -/
def deliverSweep (m : Measuring) (r : SweepResult) (s : State) : State :=
  let p := m.entry.port
  let count := (s.port p).sweep.count + 1
  let body := sweepBody m s.now r
  let s1 := dmaWrite (blockAt (breakRecordOffset p) s) (u32 count)
    (dmaWrite (blockAt (breakRecordOffset p + 4) s) body s)
  let s2 := match m.entry.recAt with
    | some a => completeCommand a .ok (u32 count ++ body) s1
    | none => s1
  match m.entry.origin with
  | .auto => setPortAlert p alertSweepDone s2
  | .host => s2

/-- A measurement completes with the samples of its repetitions (R147, R158, log 23). -/
def sweepDone (samples : List (List (BitVec 14))) (s : State) : State :=
  match s.sweeps.front with
  | none => s
  | some m =>
    let p := m.entry.port
    let xs := averagedSamples m.entry.averages (sumSamples m.sums samples)
    let s1 := deliverSweep m (analyseSweep m.settings xs) s
    let s2 := modSweep p (fun w => { w with state := .none, count := w.count + 1 }) s1
    examineSweeps (modSweeps (fun w => { w with front := none }) (sweepEnded p s2))

/-- The sweeps under way and waiting, in their order. -/
def allSweeps (w : SweepUnit) : List SweepEntry := (w.front.map (·.entry)).toList ++ w.queue

/-- The result area of an abandoned host sweep: the averages used, and no result (R161). -/
def abandonedResult (e : SweepEntry) : List Byte := zeros 8 ++ u8 e.averages

/-- One sweep is abandoned: its port's state is NONE and a host sweep's record fails with STOPPED (R161). -/
def abandonSweep (e : SweepEntry) (s : State) : State :=
  let t := setSweepState e.port .none s
  match e.recAt with
  | some a => completeCommand a .stopped (abandonedResult e) t
  | none => t

/-- A cell stop at the Cable Test Unit, after the Power Controller's share of the stop (R161): every sweep is abandoned, and the
Power Controller then takes the notices. DESIGN CHOICE (log 27): the records complete in the order of the sweeps. -/
def stopSweeps (s : State) : State :=
  let es := allSweeps s.sweeps
  let t := es.foldl (fun t e => abandonSweep e t) (modSweeps (fun _ => { front := none, queue := [] }) s)
  es.foldl (fun t e => sweepEnded e.port t) t

end Sys2Proof.Machine
end

