-- ==== Sys2Proof/Machine/PortCommands.lean ====
section
/-! DEFINITION. The commands that act on a port or on the Chain Engine: CONFIGURE_PORT (R194 with R1, R88, R107, R145),
RESET_PORT (R195), CLEAR_ALERTS (R191), SET_GATHER (R189), HEAD_ACCESS (R58) and SET_LENS_TABLE (R86). -/

namespace Sys2Proof.Machine

/-- A number held within a range (R1, R88, R107, R145, R189). -/
def clampTo (lo hi n : Nat) : Nat := max lo (min hi n)

/-! ## CONFIGURE_PORT -/

/-- A power class by its value (R202). -/
def powerClassNamed (b : Byte) : Option PowerClass :=
  if b = 0 then some .a else if b = 1 then some .b else if b = 2 then some .c else if b = 3 then some .d else none

/-- The POWER group: checked and clamped (R1); none where it is refused. -/
def configurePower (x : ConfigArgs) (w : PortPower) : Option PortPower :=
  match powerClassNamed x.cls with
  | none => none
  | some c =>
    if 1 < x.autoSweep.toNat then none
    else some { w with cls := c, retryCount := min x.retryCount.toNat 7, cooldownS := clampTo 1 60 x.cooldown.toNat
                       autoSweep := decide (x.autoSweep = 1) }

/-- Underrun policies by their value (R202). -/
def underrunNamed (b : Byte) : Option Underrun :=
  if b = 0 then some .hold else if b = 1 then some .fallback else if b = 2 then some .skipTake else none

/-- Late actions by their value (R202). -/
def lateActionNamed (b : Byte) : Option LateAction :=
  if b = 0 then some .expose else if b = 1 then some .drop else none

/-- The LENS group: checked and clamped (R88, R201); none where it is refused. -/
def configureLens (x : ConfigArgs) (l : LensState) : Option LensState :=
  if 1 < x.lensMode.toNat ∨ 4 < x.fallbackCount.toNat then none
  else
    match underrunNamed x.policy, lateActionNamed x.lateAction,
        soundPairs ((x.fallback.toList.take x.fallbackCount.toNat).map fun q => (q.1.toNat, q.2.toInt)) with
    | some u, some late, some ps =>
      some { l with chain := decide (x.lensMode = 1), policy := u, fallback := ps, lateAction := late
                    deadlineMs := clampTo 1 2000 x.deadline.toNat }
    | _, _, _ => none

/-- Erasure fills by their value (R202). -/
def erasureNamed (b : Byte) : Option Erasure :=
  if b = 0 then some .zero else if b = 1 then some .fill else if b = 2 then some .copyLast else none

/-- The FRAME group: checked and clamped (R107); none where it is refused. -/
def configureFrame (x : ConfigArgs) (r : FrameRx) : Option FrameRx :=
  (erasureNamed x.erasure).map fun e =>
    { r with limitMs := clampTo 1 10000 x.timeLimit.toNat, erasure := e, fillValue := x.fillValue }

/-- The SWEEP group, clamped (R145). -/
def configureSweep (x : ConfigArgs) (w : PortSweep) : PortSweep :=
  { w with settings :=
    { length := if x.cableLength = 0 then 0 else clampTo 1000 100000 x.cableLength.toNat
      tolerance := min x.tolerance.toNat 5000, vf := clampTo 500 990 x.vf.toNat
      offset := min x.offset.toNat 2047, minor := clampTo 20 500 x.minor.toNat } }

/-- A group's new settings if it is named, its old ones if not; none where a named group is refused (R194). -/
def ifNamed {α : Type} (groups : Byte) (bit : Nat) (old : α) (new : Option α) : Option α :=
  if groups.getLsbD bit then new else some old

/-- A port with the named groups applied; none where one of them is refused (R194). -/
def configured (x : ConfigArgs) (q : Port) : Option Port :=
  match ifNamed x.groups 0 q.power (configurePower x q.power), ifNamed x.groups 1 q.lens (configureLens x q.lens),
      ifNamed x.groups 2 q.frame (configureFrame x q.frame),
      ifNamed x.groups 3 q.sweep (some (configureSweep x q.sweep)) with
  | some w, some l, some r, some v => some { q with power := w, lens := l, frame := r, sweep := v }
  | _, _, _, _ => none

/-- The fallback pairs as CONFIGURE_PORT lays them out (R201). -/
def fallbackBytes (ps : List (UnitId × Int)) : List Byte :=
  (ps.map fun q => u8 (q.1.val + 1) ++ zeros 1 ++ i16 q.2).flatten ++ zeros (4 * (4 - ps.length))

/-- The settings in force of a port, in the layout of CONFIGURE_PORT with group mask 0 (R194, R201). -/
def settingsBytes (q : Port) : List Byte :=
  u8 0 ++ u8 (powerClassNumber q.power.cls) ++ u8 q.power.retryCount ++ flag q.power.autoSweep
    ++ leBytes 2 q.power.cooldownS ++ flag q.lens.chain ++ u8 (underrunNumber q.lens.policy)
    ++ u8 (lateActionNumber q.lens.lateAction) ++ u8 q.lens.fallback.length ++ leBytes 2 q.lens.deadlineMs
    ++ fallbackBytes q.lens.fallback
    ++ leBytes 2 q.frame.limitMs ++ u8 (erasureNumber q.frame.erasure) ++ zeros 1 ++ u16 q.frame.fillValue ++ zeros 2
    ++ leBytes 4 q.sweep.settings.length ++ leBytes 2 q.sweep.settings.tolerance ++ leBytes 2 q.sweep.settings.vf
    ++ leBytes 2 q.sweep.settings.offset ++ leBytes 2 q.sweep.settings.minor

/-- Is a port inactive: OFF or TRIPPED and not under test? (R1, R194) -/
def portInactive (p : PortId) (s : State) : Bool :=
  (decide (powerOf p s = .off) || decide (powerOf p s = .tripped)) && !underTest p s

/-- CONFIGURE_PORT (R194): whatever the outcome, the result area holds the settings in force. -/
def takeConfigurePort (a : Addr) (p : PortId) (x : ConfigArgs) (s : State) : State :=
  if !portInactive p s then completeCommand a .portActive (settingsBytes (s.port p)) s
  else
    match configured x (s.port p) with
    | none => completeCommand a .badArgument (settingsBytes (s.port p)) s
    | some q => completeCommand a .ok (settingsBytes q) (modPort p (fun _ => q) s)

/-! ## RESET_PORT -/

/-- RESET_PORT at the link and the channel (R42, R61): only in ON and FOLDBACK. -/
def resetLink (p : PortId) (s : State) : State :=
  match powerOf p s with
  | .on | .foldback =>
    modLink p (fun l => if l.state = .down then l else huntAgain l) (suspendChannel p .portReset false s)
  | _ => s

/-- RESET_PORT (R195): entries closed, link and channel, lens codes (R103), pattern positions (R82). -/
def takeResetPort (a : Addr) (p : PortId) (s : State) : State :=
  let t := forgetCodes p (resetLink p (closeAll p .portReset s))
  completeCommand a .ok [] (forPorts (patternPorts p t) (fun q => modTake q fun x => { x with position := 0 }) t)

/-! ## CLEAR_ALERTS and SET_GATHER -/

/-- The results of CLEAR_ALERTS: the cell's flags and every port's (R191, R201). -/
def alertResults (s : State) : List Byte :=
  u16 (s.chain.cellAlerts.setWidth 16) ++ (allPorts.map fun p => u16 ((s.port p).alerts.setWidth 16)).flatten

/-- Clear cell alert flags; a change makes the cell mirror due (R191, R193). -/
def clearCellAlerts (flags : Byte) (s : State) : State :=
  let new := s.chain.cellAlerts &&& ~~~(flags.setWidth 2)
  if new = s.chain.cellAlerts then s else modChain (fun c => { c with cellAlerts := new, mirrorDue := true }) s

/-- CLEAR_ALERTS (R191). -/
def takeClearAlerts (a : Addr) (ports cellFlags : Byte) (portFlags : U16) (s : State) : State :=
  if !maskWithin ports s then completeCommand a .badArgument [] s
  else
    let t := clearCellAlerts cellFlags
      (forPorts (maskPorts ports)
        (fun p => modPort p fun q => { q with alerts := q.alerts &&& ~~~(portFlags.setWidth 11) }) s)
    completeCommand a .ok (alertResults t) t

/-- A gather group named by a command field (R202). -/
def gatherNamed (b : Byte) : Option GatherGroup :=
  if b = 0 then some .frames else if b = 1 then some .commands else none

/-- SET_GATHER (R189). -/
def takeSetGather (a : Addr) (group count : Byte) (time : U16) (s : State) : State :=
  match gatherNamed group with
  | none => completeCommand a .badArgument [] s
  | some g =>
    let n := clampTo 1 64 count.toNat
    let ms := clampTo 1 100 time.toNat
    let s1 := if 0 < (gatherOf g s.chain).pending then setCause (gatherGroup g) s else s
    completeCommand a .ok (u8 n ++ zeros 1 ++ leBytes 2 ms)
      (modChain (setGatherOf g { count := n, timeMs := ms, pending := 0, timer := none }) s1)

/-! ## HEAD_ACCESS -/

/-- The HEAD_ACCESS commands of a port accepted and not completed (R58). -/
def headAccesses (c : Channel) : Nat :=
  (c.heads.filter fun h => match h with | .access _ => true | .ping => false).length
    + (match c.txn with
        | some t => match t.message with | .access _ => 1 | _ => 0
        | none => 0)

/-- The unit part of a HEAD_ACCESS, or none where its arguments are refused (R58, check 1). -/
def headPart (x : HeadArgs) : Option UnitPart :=
  let n := x.count.toNat
  if 4 < x.unit.toNat ∨ 1 < x.direction.toNat ∨ n = 0 ∨ 8 < n then none
  else some { unit := x.unit.toNat, write := decide (x.direction = 0), address := x.address
              words := if x.direction = 0 then x.words.toList.take n else [], count := n }

/-- HEAD_ACCESS (R58): an accepted command joins the HEAD class and stays TAKEN. -/
def takeHeadAccess (a : Addr) (p : PortId) (x : HeadArgs) (s : State) : State :=
  match headPart x with
  | none => completeCommand a .badArgument [] s
  | some u =>
    let c := (s.port p).ctl
    if !c.ready then completeCommand a .linkDown [] s
    else if 4 ≤ headAccesses c then completeCommand a .portBusy [] s
    else arbitrate p (modCtl p (fun c => { c with heads := c.heads ++ [.access { recAt := a, part := u }] }) s)

/-! ## SET_LENS_TABLE -/

/-- SET_LENS_TABLE (R86): applied at once, or held while a phase is in LENS_MOVING. -/
def takeSetLensTable (a : Addr) (p : PortId) (x : TableArgs) (s : State) : State :=
  match unitOf x.unit.toNat, checkTable x with
  | some u, some pts =>
    let h : HeldTable := { recAt := a, unit := u, points := pts }
    if (s.port p).lens.phase.isSome then modLens p (fun l => { l with held := l.held ++ [h] }) s else applyTable p h s
  | _, _ => completeCommand a .badArgument [] s

end Sys2Proof.Machine
end

