-- ==== Sys2Proof/Machine/Records.lean ====
section
/-! DEFINITION. Command records (R201): reading one from its bytes and laying one out, the start of a command by its owner
(R184), and the walk of the command chain (R183). -/

namespace Sys2Proof.Machine

/-! ## The command list -/

/-- The name of a command as R201 numbers it. -/
def commandName : Command → Nat
  | .portPower .. => 0x01 | .setBudget .. => 0x02 | .configurePort .. => 0x03 | .resetPort .. => 0x04
  | .clearAlerts .. => 0x05 | .setGather .. => 0x06 | .headAccess .. => 0x10 | .setSource .. => 0x20
  | .setPattern .. => 0x21 | .softTrigger .. => 0x22 | .setAxisPosition .. => 0x23 | .setLensTable .. => 0x30
  | .formSet .. => 0x40 | .dissolveSet .. => 0x41 | .cableSweep .. => 0x50 | .setFlexAxis .. => 0x60
  | .readFlexMap .. => 0x61 | .clearFlexMap .. => 0x62 | .releaseSnapshot .. => 0x63

/-- The port byte of a command that names a port (R184, R201). -/
def commandPort : Command → Option Byte
  | .portPower p _ => some p | .configurePort p _ => some p | .resetPort p => some p | .headAccess p _ => some p
  | .setPattern p _ _ => some p | .setLensTable p _ => some p | .cableSweep p _ => some p
  | .setFlexAxis p _ _ _ _ => some p | .readFlexMap p => some p | .clearFlexMap p => some p
  | .releaseSnapshot p => some p
  | .setBudget _ | .clearAlerts .. | .setGather .. | .setSource _ | .softTrigger _ | .setAxisPosition .. | .formSet ..
  | .dissolveSet _ => none

/-! ## Reading a record -/

/-- A u8 field of a record. -/
def recU8 (bs : List Byte) (off : Nat) : Byte := BitVec.ofNat 8 (field bs off 1)
/-- A u16 or i16 field of a record. -/
def recU16 (bs : List Byte) (off : Nat) : U16 := BitVec.ofNat 16 (field bs off 2)
/-- A u32 or i32 field of a record. -/
def recU32 (bs : List Byte) (off : Nat) : U32 := BitVec.ofNat 32 (field bs off 4)

/-- The arguments of CONFIGURE_PORT (R201). -/
def readConfigArgs (bs : List Byte) : ConfigArgs where
  groups := recU8 bs 0x18
  cls := recU8 bs 0x19
  retryCount := recU8 bs 0x1A
  autoSweep := recU8 bs 0x1B
  cooldown := recU16 bs 0x1C
  lensMode := recU8 bs 0x1E
  policy := recU8 bs 0x1F
  lateAction := recU8 bs 0x20
  fallbackCount := recU8 bs 0x21
  deadline := recU16 bs 0x22
  fallback := Vector.ofFn fun i : Fin 4 => (recU8 bs (0x24 + 4 * i.val), recU16 bs (0x26 + 4 * i.val))
  timeLimit := recU16 bs 0x34
  erasure := recU8 bs 0x36
  fillValue := recU16 bs 0x38
  cableLength := recU32 bs 0x3C
  tolerance := recU16 bs 0x40
  vf := recU16 bs 0x42
  offset := recU16 bs 0x44
  minor := recU16 bs 0x46

/-- The arguments of HEAD_ACCESS (R201). -/
def readHeadArgs (bs : List Byte) : HeadArgs where
  unit := recU8 bs 0x18
  direction := recU8 bs 0x19
  count := recU8 bs 0x1A
  address := recU16 bs 0x1C
  words := Vector.ofFn fun i : Fin 8 => recU16 bs (0x1E + 2 * i.val)

/-- The arguments of SET_SOURCE (R201). -/
def readSourceArgs (bs : List Byte) : SourceArgs where
  source := recU8 bs 0x18
  kind := recU8 bs 0x19
  which := recU8 bs 0x1A
  direction := recU8 bs 0x1B
  mask := recU8 bs 0x1C
  debounce := recU16 bs 0x1E
  origin := recU32 bs 0x20
  pitch := recU32 bs 0x24
  limit := recU32 bs 0x28

/-- The arguments of SET_LENS_TABLE (R201). -/
def readTableArgs (bs : List Byte) : TableArgs where
  unit := recU8 bs 0x18
  count := recU8 bs 0x19
  points := Vector.ofFn fun i : Fin 9 => (recU16 bs (0x1C + 4 * i.val), recU16 bs (0x1E + 4 * i.val))

/-- The command of a record, from its first 0x60 bytes; none where the command name is not in the list (R184, R201). -/
def decodeCommand (bs : List Byte) : Option Command :=
  let p := recU8 bs 0x12
  let b := recU8 bs 0x18
  let c := recU8 bs 0x19
  match field bs 0x10 2 with
  | 0x01 => some (.portPower p b)
  | 0x02 => some (.setBudget (recU32 bs 0x18))
  | 0x03 => some (.configurePort p (readConfigArgs bs))
  | 0x04 => some (.resetPort p)
  | 0x05 => some (.clearAlerts b c (recU16 bs 0x1A))
  | 0x06 => some (.setGather b c (recU16 bs 0x1A))
  | 0x10 => some (.headAccess p (readHeadArgs bs))
  | 0x20 => some (.setSource (readSourceArgs bs))
  | 0x21 => some (.setPattern p b (recU16 bs 0x1A))
  | 0x22 => some (.softTrigger b)
  | 0x23 => some (.setAxisPosition b (recU32 bs 0x1C))
  | 0x30 => some (.setLensTable p (readTableArgs bs))
  | 0x40 => some (.formSet b c)
  | 0x41 => some (.dissolveSet b)
  | 0x50 => some (.cableSweep p b)
  | 0x60 => some (.setFlexAxis p b (recU16 bs 0x1A) (recU32 bs 0x1C) (recU32 bs 0x20))
  | 0x61 => some (.readFlexMap p)
  | 0x62 => some (.clearFlexMap p)
  | 0x63 => some (.releaseSnapshot p)
  | _ => none

/-! ## Laying a record out -/

/-- One byte as a field. -/
def byteField (b : Byte) : List Byte := [b]

/-- The argument area of a command from 0x18 on (R201); what it does not name stays out. -/
def argumentBytes : Command → List Byte
  | .portPower _ action => byteField action
  | .setBudget n => u32 n
  | .configurePort _ x =>
    byteField x.groups ++ byteField x.cls ++ byteField x.retryCount ++ byteField x.autoSweep ++ u16 x.cooldown
      ++ byteField x.lensMode ++ byteField x.policy ++ byteField x.lateAction ++ byteField x.fallbackCount
      ++ u16 x.deadline ++ (x.fallback.toList.map fun q => byteField q.1 ++ zeros 1 ++ u16 q.2).flatten
      ++ u16 x.timeLimit ++ byteField x.erasure ++ zeros 1 ++ u16 x.fillValue ++ zeros 2 ++ u32 x.cableLength
      ++ u16 x.tolerance ++ u16 x.vf ++ u16 x.offset ++ u16 x.minor
  | .resetPort _ => []
  | .clearAlerts ports cellFlags portFlags => byteField ports ++ byteField cellFlags ++ u16 portFlags
  | .setGather group count time => byteField group ++ byteField count ++ u16 time
  | .headAccess _ x =>
    byteField x.unit ++ byteField x.direction ++ byteField x.count ++ zeros 1 ++ u16 x.address
      ++ (x.words.toList.map u16).flatten
  | .setSource x =>
    byteField x.source ++ byteField x.kind ++ byteField x.which ++ byteField x.direction ++ byteField x.mask ++ zeros 1
      ++ u16 x.debounce ++ u32 x.origin ++ u32 x.pitch ++ u32 x.limit
  | .setPattern _ length bits => byteField length ++ zeros 1 ++ u16 bits
  | .softTrigger source => byteField source
  | .setAxisPosition axis value => byteField axis ++ zeros 3 ++ u32 value
  | .setLensTable _ x =>
    byteField x.unit ++ byteField x.count ++ zeros 2 ++ (x.points.toList.map fun q => u16 q.1 ++ u16 q.2).flatten
  | .formSet set members => byteField set ++ byteField members
  | .dissolveSet set => byteField set
  | .cableSweep _ averages => byteField averages
  | .setFlexAxis _ axis threshold low high => byteField axis ++ zeros 1 ++ u16 threshold ++ u32 low ++ u32 high
  | .readFlexMap _ => []
  | .clearFlexMap _ => []
  | .releaseSnapshot _ => []

/-- A command record as the host posts it: 0x60 bytes with kind, POSTED, link, name, port and arguments (R200, R201). -/
def encodeRecord (link : Addr) (c : Command) : List Byte :=
  let args := argumentBytes c
  u8 1 ++ zeros 3 ++ leBytes 4 (recordStateNumber .posted) ++ u64 link
    ++ leBytes 2 (commandName c) ++ byteField ((commandPort c).getD 0) ++ zeros 5 ++ args ++ zeros (0x48 - args.length)

/-! ## The start of a command -/

/-- A port named by a command: 0 to 7 and below the port count of the run (R184, check 3). -/
def portNamed (b : Byte) (s : State) : Option PortId :=
  if h : b.toNat < 8 ∧ b.toNat < s.chain.portCount.toNat then some ⟨b.toNat, h.1⟩ else none

/-- Hand a command that names a port to its owner, or complete it with BAD_PORT and the results of a command without a port
(R184, check 3). -/
def withPort (a : Addr) (port : Byte) (f : PortId → State → State) (s : State) (noPort : List Byte := []) : State :=
  match portNamed port s with
  | some p => f p s
  | none => completeCommand a .badPort noPort s

/-- PORT_POWER by its action (R3, R14). -/
def takePortPower (a : Addr) (action : Byte) (p : PortId) (s : State) : State :=
  if action = 1 then takePowerOn a p s
  else if action = 0 then takePowerOff a p s
  else completeCommand a .badArgument [] s

/-- The owner of a command takes it (R184). -/
def ownCommand (a : Addr) (c : Command) (s : State) : State :=
  match c with
  | .portPower port action => withPort a port (takePortPower a action) s
  | .setBudget n => takeSetBudget a n s
  | .configurePort port x => withPort a port (fun p => takeConfigurePort a p x) s
  | .resetPort port => withPort a port (takeResetPort a) s
  | .clearAlerts ports cellFlags portFlags => takeClearAlerts a ports cellFlags portFlags s
  | .setGather group count time => takeSetGather a group count time s
  | .headAccess port x => withPort a port (fun p => takeHeadAccess a p x) s
  | .setSource x => takeSetSource a x s
  | .setPattern port length bits => withPort a port (fun p => takeSetPattern a p length bits) s
  | .softTrigger source => takeSoftTrigger a source s
  | .setAxisPosition axis value => takeSetAxisPosition a axis value s
  | .setLensTable port x => withPort a port (fun p => takeSetLensTable a p x) s
  | .formSet set members => takeFormSet a set members s
  | .dissolveSet set => takeDissolveSet a set s
  | .cableSweep port averages => withPort a port (fun p => takeCableSweep a p averages) s
  | .setFlexAxis port axis threshold low high => withPort a port (fun p => takeSetFlexAxis a p axis threshold low high) s
  | .readFlexMap port => withPort a port (takeReadFlexMap a) s noFlexMapResults
  | .clearFlexMap port => withPort a port (takeClearFlexMap a) s
  | .releaseSnapshot port => withPort a port (takeReleaseSnapshot a) s

/-- The Chain Engine takes a command record: cursor, count in hand, TAKEN (R182, R184). -/
def takeCommand (a : Addr) (s : State) : State := writeRecordState a .taken (takeRecord .command a s)

/-- A command record with these contents is taken and started, and the mirrors follow (R184, R192, R193). -/
def runCommand (a : Addr) (c : Command) (s : State) : State := flushMirrors (ownCommand a c (takeCommand a s))

/-- A command record of the chain is taken and started from its bytes in host memory (R184). -/
def startRecord (a : Addr) (s : State) : State :=
  let t := takeCommand a s
  if recordKind a t ≠ 1 then flushMirrors (completeCommand a .badRecord [] t)
  else
    match decodeCommand (readBytes t.mem a 0x60) with
    | none => flushMirrors (completeCommand a .badCommand [] t)
    | some c => flushMirrors (ownCommand a c t)

/-- A walk of the command chain in at most `n` needs (R183, log 24). -/
def walkSteps : Nat → State → State
  | 0, s => s
  | n + 1, s =>
    if s.chain.walking then
      match need .command s with
      | some a => walkSteps n (startRecord a s)
      | none =>
        if s.chain.tapPending then walkSteps n (modChain (fun c => { c with tapPending := false }) s)
        else modChain (fun c => { c with walking := false }) s
    else s

/-- The walk under way goes on until the chain is dry (R183). Every taken record leaves POSTED, so the bytes of host memory bound
the needs (log 24). -/
def continueWalk (s : State) : State := walkSteps (s.mem.length + 2) s

/-- A walk begins (R183). -/
def beginWalk (s : State) : State := continueWalk (modChain (fun c => { c with walking := true }) s)

end Sys2Proof.Machine
end

