-- ==== Sys2Proof/Machine/Cell.lean ====
section
/-! DEFINITION. The register window (R177, R178, R188, R197), the start and the stop of the cell (R179, R180), hard reset (R196)
and the gather timer (R187). -/

namespace Sys2Proof.Machine

/-! ## Start -/

/-- The format word of the Cell Block (R199). -/
def formatWord : Nat := 0x56430801

/-- The port count of a header that passes the checks of a start: address, format word, 1 to 8 ports (R178, R179). -/
def headerPorts (s : State) : Option Nat :=
  let n := readField s.mem (blockAt 4 s) 4
  if s.chain.block ≠ 0 ∧ aligned64 s.chain.block ∧ readField s.mem s.chain.block 4 = formatWord ∧ 1 ≤ n ∧ n ≤ 8 then some n
  else none

/-- A start that ends in BLOCK_FAULT: the cell alert, and the ALERTS cause whether or not the flag was set (R179, R190). -/
def blockFault (s : State) : State :=
  setCause .alerts (modChain (fun c => { c with
    cell := .blockFault, cellAlerts := c.cellAlerts ||| BitVec.twoPow 2 cellAlertBlockFault }) s)

/-- Does a set have a member at or beyond the port count? (R179) -/
def setBeyond (n : Nat) (z : FrameSet) : Bool := z.formed && (maskPorts z.mask).any fun p => decide (n ≤ p.val)

/-- Step 2 of a start for one port at or beyond the port count: out of every mask, and switched off if it is powered (R179). -/
def excludePort (p : PortId) (s : State) : State :=
  let t := allSources.foldl
    (fun t k => modSource k (fun x => { x with mask := x.mask &&& ~~~BitVec.twoPow 8 p.val }) t) s
  if isPowered (powerOf p t) then hostOff p t else t

/-- Step 2 of a start: sets dissolved, ports excluded (R179). -/
def applyPortCount (n : Nat) (s : State) : State :=
  let t := ([0, 1, 2, 3] : List SetId).foldl (fun t k => if setBeyond n t.sets[k] then dissolve k t else t) s
  forPorts (allPorts.filter fun p => decide (n ≤ p.val)) excludePort t

/-- Steps 3 and 4 of a start: cursors empty, progress 0 and written (R179, R186). DESIGN CHOICE (log 41): the whole progress area goes
out in one write. -/
def clearProgress (s : State) : State :=
  let t := modChain (fun c => { c with cursors := .replicate 17 none, progress := .replicate 17 {} }) s
  dmaWrite (blockAt 0xC0 t) (zeros 0x110) t

/-- A start whose header passed its checks (R179, steps 1 to 7). -/
def startRun (n : Nat) (s : State) : State :=
  let s1 := modChain (fun c => { c with cell := .starting, portCount := BitVec.ofNat 8 n }) s
  let s2 := clearProgress (applyPortCount n s1)
  let s3 := forPorts allPorts writePortMirror (writeCellMirror s2)
  beginWalk (writeCellMirror (modChain (fun c => { c with cell := .running }) s3))

/-- A start of the cell (R179). -/
def startCell (s : State) : State :=
  match headerPorts s with
  | none => blockFault s
  | some n => startRun n s

/-! ## Stop -/

/-- A cell stop at the Frame Writer and the Lens Controller: one request, which closes the entries of every port in ascending trigger
number (R122, R125), the units in progress CUT before (R100). -/
def stopEntries (s : State) : State :=
  let s1 := forPorts allPorts (fun p => settleTargets p .cut) s
  closeEntries .stopped (allEntries s1) s1

/-- The rest of a cell stop at one port: its held SET_LENS_TABLE commands and its channel (R60, R86, R100). -/
def stopPort (p : PortId) (s : State) : State := stopChannel p (afterCloses p s)

/-- A stop of the cell (R180): STOPPING shown, the walk ended, and the stop handed to every block; the Cable Test Unit's notices
come after the Power Controller's share (R161). -/
def stopCell (s : State) : State :=
  let s1 := writeCellMirror (modChain (fun c => { c with cell := .stopping, walking := false, tapPending := false }) s)
  stopSweeps (stopPower (forPorts allPorts stopPort (stopEntries s1)))

/-- STOPPING ends when no record is in hand: STOPPED is shown, and a start follows at once if RUN is 1 again (R180). -/
def enterStopped (s : State) : State :=
  if s.chain.cell = .stopping ∧ s.chain.inHand = 0 then
    let t := writeCellMirror (modChain (fun c => { c with cell := .stopped }) s)
    if t.chain.run then startCell t else t
  else s

/-! ## Registers -/

/-- IDENT: part code and revision (R197). -/
def identWord : U32 := 0x5C080001#32

/-- A write of CONTROL: a change of RUN is taken by the cell state (R177, R179, R180). -/
def writeControl (v : U32) (s : State) : State :=
  let run := v.getLsbD 0
  if run = s.chain.run then s
  else
    let t := modChain (fun c => { c with run := run }) s
    match run, s.chain.cell with
    | true, .stopped => startCell t
    | true, .blockFault => startCell t
    | false, .running => stopCell t
    | _, _ => t

/-- A write of BLOCK_LO or BLOCK_HI (R178). -/
def writeBlockHalf (high : Bool) (v : U32) (s : State) : State :=
  match s.chain.cell with
  | .stopped | .blockFault =>
    modChain (fun c => { c with
      block := if high then v ++ c.block.setWidth 32 else (c.block >>> 32).setWidth 32 ++ v }) s
  | _ => s

/-- A tap (R183). -/
def writeTap (s : State) : State :=
  if s.running then
    if s.chain.walking then modChain (fun c => { c with tapPending := true }) s else beginWalk s
  else s

/-- A write of CAUSE: a 1 clears the bit (R188). -/
def writeCause (v : U32) : State → State := modChain fun c => { c with cause := c.cause &&& ~~~(v.setWidth 3) }

/-- The message of a group whose enable goes from 0 to 1 while its cause bit is 1 (R188). -/
def enableMessage (old : BitVec 3) (g : Group) (s : State) : State :=
  let i := groupBit g
  if !old.getLsbD i && s.chain.enable.getLsbD i && s.chain.cause.getLsbD i then sendMessage g s else s

/-- A write of CAUSE_ENABLE (R188). DESIGN CHOICE (log 35): several messages go out as FRAMES, COMMANDS, ALERTS. -/
def writeEnable (v : U32) (s : State) : State :=
  enableMessage s.chain.enable .alerts (enableMessage s.chain.enable .commands (enableMessage s.chain.enable .frames
    (modChain (fun c => { c with enable := v.setWidth 3 }) s)))

/-- Is an access one that the register window ignores or that only reads: a wrong width, a wrong offset, no value? (R197, log 25) -/
def accessIgnored (x : RegAccess) : Bool :=
  decide (x.width ≠ 32) || decide (x.offset % 4 ≠ 0) || x.value.isNone
    || decide (x.offset = 0x00) || decide (x.offset = 0x08) || decide (0x20 ≤ x.offset)

/-- An access of the register window (R177, R197). -/
def accessRegister (x : RegAccess) (s : State) : State :=
  if accessIgnored x then s
  else
    let v := x.value.getD 0
    match x.offset with
    | 0x04 => writeControl v s
    | 0x0C => writeBlockHalf false v s
    | 0x10 => writeBlockHalf true v s
    | 0x14 => writeTap s
    | 0x18 => writeCause v s
    | 0x1C => writeEnable v s
    | _ => s

/-- What a read of the register window returns: all ones for a wrong width or alignment (R177, R197); log 25 beyond the window. -/
def readRegister (offset width : Nat) (s : State) : U32 :=
  if width ≠ 32 ∨ offset % 4 ≠ 0 then BitVec.allOnes 32
  else
    match offset with
    | 0x00 => identWord
    | 0x04 => (BitVec.ofBool s.chain.run).setWidth 32
    | 0x08 => BitVec.ofNat 32 (cellStateNumber s.chain.cell)
    | 0x0C => s.chain.block.setWidth 32
    | 0x10 => (s.chain.block >>> 32).setWidth 32
    | 0x14 => 0
    | 0x18 => s.chain.cause.setWidth 32
    | 0x1C => s.chain.enable.setWidth 32
    | _ => BitVec.allOnes 32

/-- The host's writes into its own memory that come with a register write (log 7). -/
def hostPost (ws : List HostWrite) (s : State) : State :=
  { s with mem := ws.foldl (fun m w => writeBytes m w.addr w.bytes) s.mem }

/-! ## Gather timer and hard reset -/

/-- A gather timer expires (R187). -/
def gatherExpires (g : GatherGroup) (s : State) : State :=
  let x := gatherOf g s.chain
  if x.timer.isSome then
    let t := modChain (setGatherOf g { x with pending := 0, timer := none }) s
    if 0 < x.pending then setCause (gatherGroup g) t else t
  else s

/-- A debouncer at hard reset, by the level of its line (R66). -/
def resetDebouncer (level : Bool) : Debouncer := { state := if level then .high else .low }

/-- Hard reset (R23, R43, R62, R83, R104, R126, R140, R162, R176, R196): every field at its reset value with the inputs as they
are found; host memory and what has been sent stand; then the supply is evaluated (R19). -/
def hardReset (x : ResetInputs) (s : State) : State :=
  let t : State :=
    { pending := s.pending, mem := s.mem, bus := s.bus, cable := s.cable
      power := { supplyMv := x.supplyMv, supplyLow := decide (x.supplyMv.toNat < supplyLowMv) }
      trig := { axisA := { ch1 := x.a1, ch2 := x.a2 }, axisB := { ch1 := x.b1, ch2 := x.b2 }
                in0 := resetDebouncer x.in0, in1 := resetDebouncer x.in1 } }
  if x.supplyMv.toNat < supplyLowMv then setCellAlert cellAlertSupplyLow t else t

/-! ## The card by itself -/

/-- One microsecond of the cell clock (R63). -/
def tickClock : State → State := modTrig fun t => { t with clock := t.clock + 1 }

/-- What the card does with no command waiting: a walk under way goes on (R183), a stop that is due ends (R180), and otherwise
the cell clock moves by one microsecond (R63; log 1, log 14). -/
def idleStep (s : State) : State :=
  if s.running && s.chain.walking then flushMirrors (continueWalk s)
  else if decide (s.chain.cell = .stopping) && decide (s.chain.inHand = 0) then flushMirrors (enterStopped s)
  else tickClock s

end Sys2Proof.Machine
end

