-- ==== Sys2Proof/Machine/ExecRegisters.lean ====
section
/-! DEFINITION. The meanings of the register window's commands, of hard reset and of the gather timer (R177 to R180, R183, R187, R188, R196, R197). -/

namespace Sys2Proof.Machine

/-- A command ends: the mirrors that are due are written (R192, R193), and the card goes on. -/
def endCommand (s : State) : Host.Outcome State Fault Refusal := .next (flushMirrors s)

/-- CELL_START: a write of CONTROL after the host's writes into its memory (R177, R179). -/
def execCellStart (value : U32) (posted : List HostWrite) (s : State) : Host.Outcome State Fault Refusal :=
  endCommand (writeControl value (hostPost posted s))

/-- CELL_STOP: a write of CONTROL (R177, R180). -/
def execCellStop (value : U32) (s : State) : Host.Outcome State Fault Refusal :=
  endCommand (writeControl value s)

/-- CELL_STOPPED: STOPPING ends when no record is in hand (R180, log 14). -/
def execCellStopped (s : State) : Host.Outcome State Fault Refusal :=
  endCommand (enterStopped s)

/-- BLOCK_ADDRESS_WRITE (R178). -/
def execBlockAddressWrite (high : Bool) (value : U32) (s : State) : Host.Outcome State Fault Refusal :=
  endCommand (writeBlockHalf high value s)

/-- TAP, whatever the value written, after the host's writes into its memory (R177, R183). -/
def execTap (_value : U32) (posted : List HostWrite) (s : State) : Host.Outcome State Fault Refusal :=
  endCommand (writeTap (hostPost posted s))

/-- CAUSE_CLEAR: a write of CAUSE (R188). -/
def execCauseClear (value : U32) (s : State) : Host.Outcome State Fault Refusal :=
  endCommand (writeCause value s)

/-- CAUSE_ENABLE_WRITE (R188). -/
def execCauseEnableWrite (value : U32) (s : State) : Host.Outcome State Fault Refusal :=
  endCommand (writeEnable value s)

/-- REGISTER_WRITE_IGNORED: an access the register window ignores; the access decides (R177, R197). -/
def execRegisterWriteIgnored (access : RegAccess) (s : State) : Host.Outcome State Fault Refusal :=
  endCommand (accessRegister access s)

/-- HARD_RESET (R196). -/
def execHardReset (inputs : ResetInputs) (s : State) : Host.Outcome State Fault Refusal :=
  endCommand (hardReset inputs s)

/-- GATHER_TIMEOUT (R187). -/
def execGatherTimeout (group : GatherGroup) (s : State) : Host.Outcome State Fault Refusal :=
  endCommand (gatherExpires group s)

/-- RUN_CHANGE_IN_STOPPING_OR_FAULT: a write of CONTROL (R177, R180). -/
def execRunChangeInStoppingOrFault (value : U32) (s : State) : Host.Outcome State Fault Refusal :=
  endCommand (writeControl value s)

end Sys2Proof.Machine
end

