-- ==== Sys2Proof/Machine/ExecChannel.lean ====
section
/-! DEFINITION. The meanings of the control channel's events and of the lens deadline (R44 to R56, R95, R101). -/

namespace Sys2Proof.Machine

/-- UNIT_ANSWER (R44, R45). -/
def execUnitAnswer (p : PortId) (ack : Bool) (s : State) : Host.Outcome State Fault Refusal :=
  endCommand (answered p ack s)

/-- HOLD_SIGN (R46). -/
def execHoldSign (p : PortId) (s : State) : Host.Outcome State Fault Refusal :=
  endCommand (holdSigned p s)

/-- HOLD_ANSWER (R46). -/
def execHoldAnswer (p : PortId) (ack : Bool) (s : State) : Host.Outcome State Fault Refusal :=
  endCommand (holdAnswered p ack s)

/-- READ_DATA_WORD (R44). -/
def execReadDataWord (p : PortId) (word : U16) (s : State) : Host.Outcome State Fault Refusal :=
  endCommand (dataWord p word s)

/-- REPLY_TIMEOUT (R47). -/
def execReplyTimeout (p : PortId) (s : State) : Host.Outcome State Fault Refusal :=
  endCommand (replyExpired p s)

/-- HOLD_LIMIT (R47). -/
def execHoldLimit (p : PortId) (s : State) : Host.Outcome State Fault Refusal :=
  endCommand (holdExpired p s)

/-- NOTE_START (R51). -/
def execNoteStart (p : PortId) (collides : Bool) (s : State) : Host.Outcome State Fault Refusal :=
  endCommand (noteBegins p collides s)

/-- OVERTEMP_NOTE (R52, R53). -/
def execOvertempNote (p : PortId) (s : State) : Host.Outcome State Fault Refusal :=
  endCommand (overtempTaken p s)

/-- LENS_FAULT_NOTE (R52, R53, R101). -/
def execLensFaultNote (p : PortId) (unit : Byte) (s : State) : Host.Outcome State Fault Refusal :=
  endCommand (lensFaultTaken p unit s)

/-- HEAD_RESTARTED_NOTE (R54). -/
def execHeadRestartedNote (p : PortId) (s : State) : Host.Outcome State Fault Refusal :=
  endCommand (headRestartTaken p s)

/-- NOTE_DISCARDED (R52). -/
def execNoteDiscarded (p : PortId) (s : State) : Host.Outcome State Fault Refusal :=
  endCommand (noteDropped p s)

/-- NOTE_TIMEOUT (R52). -/
def execNoteTimeout (p : PortId) (s : State) : Host.Outcome State Fault Refusal :=
  endCommand (noteExpired p s)

/-- PING_RETRY_TIMEOUT (R55). -/
def execPingRetryTimeout (p : PortId) (s : State) : Host.Outcome State Fault Refusal :=
  endCommand (retryExpired p s)

/-- LENS_DEADLINE (R95). -/
def execLensDeadline (p : PortId) (s : State) : Host.Outcome State Fault Refusal :=
  endCommand (deadlineExpired p s)

end Sys2Proof.Machine
end

