-- ==== Sys2Proof/Machine/ExecCommands.lean ====
section
/-! DEFINITION. The meanings of the command records (R184, R201). -/

namespace Sys2Proof.Machine

/-- A command record with these contents is taken and started while the cell is RUNNING; the chain is not read otherwise (R181,
R183, R184, log 8). -/
def execRecord (a : Addr) (c : Command) (s : State) : Host.Outcome State Fault Refusal :=
  .next (if s.running then runCommand a c s else s)

/-- PORT_POWER with action ON (R3). -/
def execPortPowerOn (a : Addr) (port : Byte) (s : State) : Host.Outcome State Fault Refusal :=
  execRecord a (.portPower port 1) s

/-- PORT_POWER with action OFF (R14). -/
def execPortPowerOff (a : Addr) (port : Byte) (s : State) : Host.Outcome State Fault Refusal :=
  execRecord a (.portPower port 0) s

/-- SET_BUDGET (R16, R17). -/
def execSetBudget (a : Addr) (budget : U32) (s : State) : Host.Outcome State Fault Refusal :=
  execRecord a (.setBudget budget) s

/-- CONFIGURE_PORT (R194). -/
def execConfigurePort (a : Addr) (port : Byte) (args : ConfigArgs) (s : State) : Host.Outcome State Fault Refusal :=
  execRecord a (.configurePort port args) s

/-- RESET_PORT (R195). -/
def execResetPort (a : Addr) (port : Byte) (s : State) : Host.Outcome State Fault Refusal :=
  execRecord a (.resetPort port) s

/-- CLEAR_ALERTS (R191). -/
def execClearAlerts (a : Addr) (ports cellFlags : Byte) (portFlags : U16) (s : State) : Host.Outcome State Fault Refusal :=
  execRecord a (.clearAlerts ports cellFlags portFlags) s

/-- SET_GATHER (R189). -/
def execSetGather (a : Addr) (group count : Byte) (time : U16) (s : State) : Host.Outcome State Fault Refusal :=
  execRecord a (.setGather group count time) s

/-- HEAD_ACCESS (R58). -/
def execHeadAccess (a : Addr) (port : Byte) (args : HeadArgs) (s : State) : Host.Outcome State Fault Refusal :=
  execRecord a (.headAccess port args) s

/-- SET_SOURCE (R68). -/
def execSetSource (a : Addr) (args : SourceArgs) (s : State) : Host.Outcome State Fault Refusal :=
  execRecord a (.setSource args) s

/-- SET_PATTERN (R75). -/
def execSetPattern (a : Addr) (port length : Byte) (bits : U16) (s : State) : Host.Outcome State Fault Refusal :=
  execRecord a (.setPattern port length bits) s

/-- SOFT_TRIGGER (R73). -/
def execSoftTrigger (a : Addr) (source : Byte) (s : State) : Host.Outcome State Fault Refusal :=
  execRecord a (.softTrigger source) s

/-- SET_AXIS_POSITION (R65). -/
def execSetAxisPosition (a : Addr) (axis : Byte) (value : U32) (s : State) : Host.Outcome State Fault Refusal :=
  execRecord a (.setAxisPosition axis value) s

/-- SET_LENS_TABLE (R86). -/
def execSetLensTable (a : Addr) (port : Byte) (args : TableArgs) (s : State) : Host.Outcome State Fault Refusal :=
  execRecord a (.setLensTable port args) s

/-- FORM_SET (R128). -/
def execFormSet (a : Addr) (set members : Byte) (s : State) : Host.Outcome State Fault Refusal :=
  execRecord a (.formSet set members) s

/-- DISSOLVE_SET (R129). -/
def execDissolveSet (a : Addr) (set : Byte) (s : State) : Host.Outcome State Fault Refusal :=
  execRecord a (.dissolveSet set) s

/-- CABLE_SWEEP (R143). -/
def execCableSweep (a : Addr) (port averages : Byte) (s : State) : Host.Outcome State Fault Refusal :=
  execRecord a (.cableSweep port averages) s

/-- SET_FLEX_AXIS (R163). -/
def execSetFlexAxis (a : Addr) (port axis : Byte) (threshold : U16) (low high : U32) (s : State) : Host.Outcome State Fault Refusal :=
  execRecord a (.setFlexAxis port axis threshold low high) s

/-- READ_FLEX_MAP (R168). -/
def execReadFlexMap (a : Addr) (port : Byte) (s : State) : Host.Outcome State Fault Refusal :=
  execRecord a (.readFlexMap port) s

/-- CLEAR_FLEX_MAP (R169). -/
def execClearFlexMap (a : Addr) (port : Byte) (s : State) : Host.Outcome State Fault Refusal :=
  execRecord a (.clearFlexMap port) s

/-- RELEASE_SNAPSHOT (R173). -/
def execReleaseSnapshot (a : Addr) (port : Byte) (s : State) : Host.Outcome State Fault Refusal :=
  execRecord a (.releaseSnapshot port) s

end Sys2Proof.Machine
end

