-- ==== Sys2Proof/Machine/LinkEvents.lean ====
section
/-! DEFINITION. The events of the camera link (R24, R28 to R32, R109): marks at their boundaries, the recovery window, the carrier,
and the frame time limit. -/

namespace Sys2Proof.Machine

/-- Does a mark in LOCKED or CONFIRM stand at a boundary: is no burst with an announced length still arriving? (R24, R26) -/
def atBoundary (l : LinkRx) : Bool := !burstArriving l

/-- An exact mark found in HUNT with the carrier present (R28). -/
def markInHunt (p : PortId) (mark : U64) (s : State) : State :=
  let l := (s.port p).link
  match judgeMark mark with
  | some n =>
    if l.state = .hunt ∧ l.carrier then modLink p (fun l => beginBurst n { l with state := .confirm, confirm := 1 }) s else s
  | none => s

/-- A mark at the expected boundary in CONFIRM (R29, R30). -/
def markInConfirm (p : PortId) (mark : U64) (s : State) : State :=
  let l := (s.port p).link
  if l.state = .confirm ∧ atBoundary l then
    match judgeMark mark with
    | some n =>
      if l.confirm < 3 then modLink p (fun l => beginBurst n { l with confirm := l.confirm + 1 }) s
      else enterLocked p (modLink p (beginBurst n) s)
    | none => modLink p huntAgain s
  else s

/-- A mark at the expected boundary in LOCKED (R31); a burst begun by a bad mark ends first (R26). -/
def markInLocked (p : PortId) (mark : U64) (s : State) : State :=
  let l := (s.port p).link
  if l.state = .locked ∧ atBoundary l then
    let t := endBadBurst p s
    match judgeMark mark with
    | some n => modLink p (fun l => beginBurst n { l with misses := 0 }) t
    | none => badLockedMark p t
  else s

/-- A recovery window closes without an exact mark: a bad mark at its end (R24, R31). -/
def windowCloses (p : PortId) (s : State) : State :=
  let l := (s.port p).link
  if l.state = .locked ∧ l.boundary.isWindow then badLockedMark p (endBadBurst p s) else s

/-- The carrier has been absent for 2 microseconds (R32). -/
def carrierLost (p : PortId) (s : State) : State :=
  match (s.port p).link.state with
  | .down => s
  | .hunt => modLink p (fun l => { l with carrier := false }) s
  | .confirm => modLink p (fun l => { huntAgain l with carrier := false }) s
  | .locked => linkDrop p .signal (modLink p (fun l => { l with carrier := false }) s)

/-- The carrier is back (R32). -/
def carrierBack (p : PortId) (s : State) : State :=
  match (s.port p).link.state with
  | .down => s
  | _ => modLink p (fun l => { l with carrier := true }) s

/-- The frame time limit of an entry expires (R109). -/
def frameExpired (p : PortId) (trigger : U32) (s : State) : State :=
  match findEntry (s.port p).frame trigger with
  | none => s
  | some e => if e.timer.isSome then closeEntry p trigger .timedOut 0 s else s

end Sys2Proof.Machine
end

