-- ==== Sys2Proof/Machine/ExecLink.lean ====
section
/-! DEFINITION. The meanings of the camera link's events and of its bursts (R24 to R42, R109 to R120). -/

namespace Sys2Proof.Machine

/-- HUNT_EXACT_MARK (R28). -/
def execHuntExactMark (p : PortId) (mark : U64) (s : State) : Host.Outcome State Fault Refusal :=
  endCommand (markInHunt p mark s)

/-- CONFIRM_MARK (R29, R30). -/
def execConfirmMark (p : PortId) (mark : U64) (s : State) : Host.Outcome State Fault Refusal :=
  endCommand (markInConfirm p mark s)

/-- LOCKED_MARK (R31). -/
def execLockedMark (p : PortId) (mark : U64) (s : State) : Host.Outcome State Fault Refusal :=
  endCommand (markInLocked p mark s)

/-- RECOVERY_WINDOW_CLOSE (R24, R31). -/
def execRecoveryWindowClose (p : PortId) (s : State) : Host.Outcome State Fault Refusal :=
  endCommand (windowCloses p s)

/-- CARRIER_LOSS (R32). -/
def execCarrierLoss (p : PortId) (s : State) : Host.Outcome State Fault Refusal :=
  endCommand (carrierLost p s)

/-- CARRIER_RETURN (R32). -/
def execCarrierReturn (p : PortId) (s : State) : Host.Outcome State Fault Refusal :=
  endCommand (carrierBack p s)

/-- CONFIRM_BURST_END (R26, R29). -/
def execConfirmBurstEnd (p : PortId) (burst : List Byte) (s : State) : Host.Outcome State Fault Refusal :=
  endCommand (endBurst p burst s)

/-- FRAME_OPEN: a burst ends; its bytes say what it is (R26, R33, R110). -/
def execFrameOpen (p : PortId) (burst : List Byte) (s : State) : Host.Outcome State Fault Refusal :=
  endCommand (endBurst p burst s)

/-- LINE: a burst ends; its bytes say what it is (R26, R33, R114). -/
def execLine (p : PortId) (burst : List Byte) (s : State) : Host.Outcome State Fault Refusal :=
  endCommand (endBurst p burst s)

/-- FRAME_CLOSE: a burst ends; its bytes say what it is (R26, R33, R120). -/
def execFrameClose (p : PortId) (burst : List Byte) (s : State) : Host.Outcome State Fault Refusal :=
  endCommand (endBurst p burst s)

/-- FILL_BURST: a burst ends; its bytes say what it is (R26, R33). -/
def execFillBurst (p : PortId) (burst : List Byte) (s : State) : Host.Outcome State Fault Refusal :=
  endCommand (endBurst p burst s)

/-- DAMAGED_BURST: a burst ends; its bytes and its mark say what it is (R26, R34). -/
def execDamagedBurst (p : PortId) (burst : List Byte) (s : State) : Host.Outcome State Fault Refusal :=
  endCommand (endBurst p burst s)

/-- FRAME_TIMEOUT of the entry with a trigger number (R109, log 28). -/
def execFrameTimeout (p : PortId) (trigger : U32) (s : State) : Host.Outcome State Fault Refusal :=
  endCommand (frameExpired p trigger s)

end Sys2Proof.Machine
end

