-- ==== Sys2Proof/Machine/ExecPower.lean ====
section
/-! DEFINITION. The meanings of the events of port power, of the supply and of the sweep front end (R5 to R21, R158). -/

namespace Sys2Proof.Machine

/-- DETECT_COMPLETE (R5). -/
def execDetectComplete (p : PortId) (ohms : Nat) (s : State) : Host.Outcome State Fault Refusal :=
  endCommand (detectDone p ohms s)

/-- INRUSH_COMPLETE (R9). -/
def execInrushComplete (p : PortId) (s : State) : Host.Outcome State Fault Refusal :=
  endCommand (inrushDone p s)

/-- INRUSH_TIMEOUT (R9). -/
def execInrushTimeout (p : PortId) (s : State) : Host.Outcome State Fault Refusal :=
  endCommand (inrushExpired p s)

/-- FOLDBACK_ENTRY: a current sample in mA (R10, R11). -/
def execFoldbackEntry (p : PortId) (ma : U16) (s : State) : Host.Outcome State Fault Refusal :=
  endCommand (currentSampled p ma s)

/-- FOLDBACK_RETURN: a current sample in mA (R10, R11). -/
def execFoldbackReturn (p : PortId) (ma : U16) (s : State) : Host.Outcome State Fault Refusal :=
  endCommand (currentSampled p ma s)

/-- FOLDBACK_TIMEOUT (R10). -/
def execFoldbackTimeout (p : PortId) (s : State) : Host.Outcome State Fault Refusal :=
  endCommand (foldbackExpired p s)

/-- SHORT_THRESHOLD: a current sample in mA (R11). -/
def execShortThreshold (p : PortId) (ma : U16) (s : State) : Host.Outcome State Fault Refusal :=
  endCommand (currentSampled p ma s)

/-- COOLDOWN_EXPIRY (R13). -/
def execCooldownExpiry (p : PortId) (s : State) : Host.Outcome State Fault Refusal :=
  endCommand (cooldownExpired p s)

/-- SUPPLY_LOW: a supply sample in mV (R18). -/
def execSupplyLow (mv : U32) (s : State) : Host.Outcome State Fault Refusal :=
  endCommand (supplySampled mv s)

/-- SUPPLY_RESTORED: a supply sample in mV (R19). -/
def execSupplyRestored (mv : U32) (s : State) : Host.Outcome State Fault Refusal :=
  endCommand (supplySampled mv s)

/-- SWEEP_COMPLETE (R147, R158). -/
def execSweepComplete (samples : List (List (BitVec 14))) (s : State) : Host.Outcome State Fault Refusal :=
  endCommand (sweepDone samples s)

end Sys2Proof.Machine
end

