-- ==== Sys2Proof/Machine/ExecTriggers.lean ====
section
/-! DEFINITION. The meanings of the axes' and inputs' events (R64, R66, R71, R72). -/

namespace Sys2Proof.Machine

/-- AXIS_COUNT: a sample of an axis's two channels (R64, R71). -/
def execAxisCount (axis : Axis) (ch1 ch2 : Bool) (s : State) : Host.Outcome State Fault Refusal :=
  endCommand (sampleAxis axis ch1 ch2 s)

/-- INPUT_RISE (R66). -/
def execInputRise (input : Input) (s : State) : Host.Outcome State Fault Refusal :=
  endCommand (lineRises input s)

/-- INPUT_FALL (R66). -/
def execInputFall (input : Input) (s : State) : Host.Outcome State Fault Refusal :=
  endCommand (lineFalls input s)

/-- DEBOUNCE_EXPIRY (R66). -/
def execDebounceExpiry (input : Input) (s : State) : Host.Outcome State Fault Refusal :=
  endCommand (debounceExpires input s)

end Sys2Proof.Machine
end

