-- ==== Sys2Proof/Machine/Dispatch.lean ====
section
/-! DEFINITION. Every command and its meaning, one arm each. -/

namespace Sys2Proof.Machine

def exec (i : Instr) (s : State) : Host.Outcome State Fault Refusal :=
  match i with
  | .cellStart value posted => Sys2Proof.Machine.execCellStart value posted s
  | .cellStop value => Sys2Proof.Machine.execCellStop value s
  | .cellStopped => Sys2Proof.Machine.execCellStopped s
  | .blockAddressWrite high value => Sys2Proof.Machine.execBlockAddressWrite high value s
  | .tap value posted => Sys2Proof.Machine.execTap value posted s
  | .causeClear value => Sys2Proof.Machine.execCauseClear value s
  | .causeEnableWrite value => Sys2Proof.Machine.execCauseEnableWrite value s
  | .registerWriteIgnored access => Sys2Proof.Machine.execRegisterWriteIgnored access s
  | .hardReset inputs => Sys2Proof.Machine.execHardReset inputs s
  | .portPowerOn a port => Sys2Proof.Machine.execPortPowerOn a port s
  | .portPowerOff a port => Sys2Proof.Machine.execPortPowerOff a port s
  | .setBudget a budget => Sys2Proof.Machine.execSetBudget a budget s
  | .configurePort a port args => Sys2Proof.Machine.execConfigurePort a port args s
  | .resetPort a port => Sys2Proof.Machine.execResetPort a port s
  | .clearAlerts a ports cellFlags portFlags => Sys2Proof.Machine.execClearAlerts a ports cellFlags portFlags s
  | .setGather a group count time => Sys2Proof.Machine.execSetGather a group count time s
  | .headAccess a port args => Sys2Proof.Machine.execHeadAccess a port args s
  | .setSource a args => Sys2Proof.Machine.execSetSource a args s
  | .setPattern a port length bits => Sys2Proof.Machine.execSetPattern a port length bits s
  | .softTrigger a source => Sys2Proof.Machine.execSoftTrigger a source s
  | .setAxisPosition a axis value => Sys2Proof.Machine.execSetAxisPosition a axis value s
  | .setLensTable a port args => Sys2Proof.Machine.execSetLensTable a port args s
  | .formSet a set members => Sys2Proof.Machine.execFormSet a set members s
  | .dissolveSet a set => Sys2Proof.Machine.execDissolveSet a set s
  | .cableSweep a port averages => Sys2Proof.Machine.execCableSweep a port averages s
  | .setFlexAxis a port axis threshold low high => Sys2Proof.Machine.execSetFlexAxis a port axis threshold low high s
  | .readFlexMap a port => Sys2Proof.Machine.execReadFlexMap a port s
  | .clearFlexMap a port => Sys2Proof.Machine.execClearFlexMap a port s
  | .releaseSnapshot a port => Sys2Proof.Machine.execReleaseSnapshot a port s
  | .detectComplete p ohms => Sys2Proof.Machine.execDetectComplete p ohms s
  | .inrushComplete p => Sys2Proof.Machine.execInrushComplete p s
  | .inrushTimeout p => Sys2Proof.Machine.execInrushTimeout p s
  | .foldbackEntry p ma => Sys2Proof.Machine.execFoldbackEntry p ma s
  | .foldbackReturn p ma => Sys2Proof.Machine.execFoldbackReturn p ma s
  | .foldbackTimeout p => Sys2Proof.Machine.execFoldbackTimeout p s
  | .shortThreshold p ma => Sys2Proof.Machine.execShortThreshold p ma s
  | .cooldownExpiry p => Sys2Proof.Machine.execCooldownExpiry p s
  | .supplyLow mv => Sys2Proof.Machine.execSupplyLow mv s
  | .supplyRestored mv => Sys2Proof.Machine.execSupplyRestored mv s
  | .huntExactMark p mark => Sys2Proof.Machine.execHuntExactMark p mark s
  | .confirmMark p mark => Sys2Proof.Machine.execConfirmMark p mark s
  | .lockedMark p mark => Sys2Proof.Machine.execLockedMark p mark s
  | .recoveryWindowClose p => Sys2Proof.Machine.execRecoveryWindowClose p s
  | .carrierLoss p => Sys2Proof.Machine.execCarrierLoss p s
  | .carrierReturn p => Sys2Proof.Machine.execCarrierReturn p s
  | .confirmBurstEnd p burst => Sys2Proof.Machine.execConfirmBurstEnd p burst s
  | .frameOpen p burst => Sys2Proof.Machine.execFrameOpen p burst s
  | .line p burst => Sys2Proof.Machine.execLine p burst s
  | .frameClose p burst => Sys2Proof.Machine.execFrameClose p burst s
  | .fillBurst p burst => Sys2Proof.Machine.execFillBurst p burst s
  | .damagedBurst p burst => Sys2Proof.Machine.execDamagedBurst p burst s
  | .frameTimeout p trigger => Sys2Proof.Machine.execFrameTimeout p trigger s
  | .unitAnswer p ack => Sys2Proof.Machine.execUnitAnswer p ack s
  | .holdSign p => Sys2Proof.Machine.execHoldSign p s
  | .holdAnswer p ack => Sys2Proof.Machine.execHoldAnswer p ack s
  | .readDataWord p word => Sys2Proof.Machine.execReadDataWord p word s
  | .replyTimeout p => Sys2Proof.Machine.execReplyTimeout p s
  | .holdLimit p => Sys2Proof.Machine.execHoldLimit p s
  | .noteStart p collides => Sys2Proof.Machine.execNoteStart p collides s
  | .overtempNote p => Sys2Proof.Machine.execOvertempNote p s
  | .lensFaultNote p unit => Sys2Proof.Machine.execLensFaultNote p unit s
  | .headRestartedNote p => Sys2Proof.Machine.execHeadRestartedNote p s
  | .noteDiscarded p => Sys2Proof.Machine.execNoteDiscarded p s
  | .noteTimeout p => Sys2Proof.Machine.execNoteTimeout p s
  | .pingRetryTimeout p => Sys2Proof.Machine.execPingRetryTimeout p s
  | .axisCount axis ch1 ch2 => Sys2Proof.Machine.execAxisCount axis ch1 ch2 s
  | .inputRise input => Sys2Proof.Machine.execInputRise input s
  | .inputFall input => Sys2Proof.Machine.execInputFall input s
  | .debounceExpiry input => Sys2Proof.Machine.execDebounceExpiry input s
  | .lensDeadline p => Sys2Proof.Machine.execLensDeadline p s
  | .sweepComplete samples => Sys2Proof.Machine.execSweepComplete samples s
  | .gatherTimeout group => Sys2Proof.Machine.execGatherTimeout group s
  | .runChangeInStoppingOrFault value => Sys2Proof.Machine.execRunChangeInStoppingOrFault value s

end Sys2Proof.Machine
end

