-- ==== Sys2Proof/Safety.lean ====
section
/-! DEFINITION. The laws of the device that the spec names, as checks on a state: the power budget and the inrush slot (R6, R8),
the sweep front end (R141), the links (R27, R105), the trigger masks (R69), the frame sets (R127), the exposure lists (R105), the
drive codes (R87), and the canonical form of host memory; and the terms in which the statements say what a command changes. -/

namespace Sys2Proof.Machine

/-- The reservation a port holds. -/
def heldBy (s : State) (p : PortId) : Nat := reservation (s.port p).power.clsInUse

/-- The law of the budget (R6, R8): the grant-order list holds exactly the powered ports, each once; the reserved sum is the sum of
their reservations and does not exceed the budget; the queue holds exactly the QUEUED ports, each once; at most one port is in
INRUSH. -/
structure PowerLaw (s : State) : Prop where
  grantsOnce : s.power.grants.Nodup
  grantsPowered : ∀ p, p ∈ s.power.grants ↔ isPowered (powerOf p s) = true
  reservedSum : s.power.reserved = (s.power.grants.map (heldBy s)).sum
  withinBudget : s.power.reserved ≤ s.power.budget
  budgetMax : s.power.budget ≤ maxBudget
  queueOnce : s.power.queue.Nodup
  queueQueued : ∀ p, p ∈ s.power.queue ↔ powerOf p s = .queued
  oneInrush : ∀ p q, powerOf p s = .inrush → powerOf q s = .inrush → p = q

/-- The law of the trigger masks (R69): a port is in at most one source's mask. -/
abbrev MaskLaw (s : State) : Prop :=
  ∀ (j k : SourceId) (p : PortId), (s.source j).mask.getLsbD p.val → (s.source k).mask.getLsbD p.val → j = k

/-- The law of the frame sets (R127): a port is in at most one formed set, and the members of a formed set are all in the mask of
one source. -/
abbrev SetLaw (s : State) : Prop :=
  (∀ (j k : SetId) (p : PortId), s.sets[j].formed → s.sets[k].formed → s.sets[j].mask.getLsbD p.val →
    s.sets[k].mask.getLsbD p.val → j = k) ∧
  (∀ k : SetId, s.sets[k].formed →
    ∃ j : SourceId, ∀ p : PortId, s.sets[k].mask.getLsbD p.val → (s.source j).mask.getLsbD p.val)

/-- The law of the sweep front end (R141, R142): the sweeps under way and waiting are of different ports, and exactly those ports
are under test; a port under test is OFF or TRIPPED; nothing waits while the front end is free. -/
structure SweepLaw (s : State) : Prop where
  once : ((allSweeps s.sweeps).map (·.port)).Nodup
  measuring : ∀ p, (s.port p).sweep.state = .measuring ↔ (s.sweeps.front.map (·.entry.port)) = some p
  queued : ∀ p, (s.port p).sweep.state = .queued ↔ p ∈ s.sweeps.queue.map (·.port)
  inactive : ∀ p, (s.port p).sweep.state ≠ .none → powerOf p s = .off ∨ powerOf p s = .tripped
  freeEmpty : s.sweeps.front = none → s.sweeps.queue = []

/-- The law of the links (R27, R36, R57, R105): a port not in ON or FOLDBACK has its link DOWN and an empty exposure list; a port
whose link is not LOCKED has its channel SUSPENDED without READY, and an empty exposure list. -/
structure LinkLaw (s : State) : Prop where
  unpowered : ∀ p, powerOf p s ≠ .on → powerOf p s ≠ .foldback →
    (s.port p).link.state = .down ∧ (s.port p).frame.entries = []
  unlocked : ∀ p, (s.port p).link.state ≠ .locked →
    (s.port p).ctl.state = .suspended ∧ (s.port p).ctl.ready = false ∧ (s.port p).frame.entries = []

/-- Host memory after the bus events of a list, newest first. -/
def applyBus : List BusEvent → List Host.Cell → List Host.Cell
  | [], m => m
  | .write a bs :: rest, m => writeBytes (applyBus rest m) a bs
  | .message _ :: rest, m => applyBus rest m

/-- From one state to another, host memory has changed by the card's logged writes and by nothing else. -/
def DmaOnly (s t : State) : Prop := ∃ new, t.bus = new ++ s.bus ∧ t.mem = applyBus new s.mem

/-- Between commands no mirror is due (log 11). -/
abbrev Quiet (s : State) : Prop := s.chain.mirrorDue = false ∧ ∀ p, (s.port p).mirrorDue = false

/-- How far an address lies past a base, counted round the address space (log 6). -/
def distanceFrom (a : Addr) (x : Nat) : Nat := (x + addressSpace - a.toNat) % addressSpace

/-- The drive codes of a table lie between 0 and 4095 and its points ascend (R84). -/
def tableWf (t : List TablePoint) : Bool := ascending t && t.all fun q => decide (q.2 ≤ 4095)

/-- The law of the trigger numbers (R67, R69, R105, R133): an ACTIVE source has not reached the last number; no port of a mask has
seen a number above its source's; the entries of a port carry different numbers, rising, none above the last one the port has
seen; there are at most four entries in a port's list and at most four items in a set's. -/
structure TriggerLaw (s : State) : Prop where
  activeBelow : ∀ k : SourceId, (s.source k).active = true → (s.source k).number ≠ lastNumber
  maskBelow : ∀ (k : SourceId) (p : PortId), (s.source k).mask.getLsbD p.val = true →
    (s.port p).take.lastTrigger.toNat ≤ (s.source k).number.toNat
  entriesRise : ∀ p : PortId, ((s.port p).frame.entries.map (·.trigger.toNat)).Pairwise (· < ·)
  entriesSeen : ∀ (p : PortId) (e : Entry), e ∈ (s.port p).frame.entries →
    e.trigger.toNat ≤ (s.port p).take.lastTrigger.toNat
  entriesRoom : ∀ p : PortId, (s.port p).frame.entries.length ≤ 4
  itemsRoom : ∀ k : SetId, s.sets[k].items.length ≤ 4

/-! ## What a command changes

A claim about a command names the state `u` that the command's effect gives; `Ends` says that the card then holds what `u` holds
and that host memory has changed by the writes named and by mirror writes alone. -/

/-- A port without the bookkeeping of its mirror. -/
def portView (q : Port) : Port := { q with mirrorCount := 0, mirrorDue := false }

/-- Everything the card holds but the bookkeeping of the mirrors; host memory and the bus log are left out. -/
def deviceView (s : State) : State :=
  { s with mem := [], bus := [], chain := { s.chain with mirrorCount := 0, mirrorDue := false }
           ports := s.ports.map portView }

/-- Is a bus event a write of a port's mirror or of the cell mirror, in its place in the Cell Block? (R192, R193, R199) -/
def isMirrorWrite (s : State) : BusEvent → Bool
  | .write a bs =>
    (decide (a = blockAt 0x200 s) && decide (bs.length = 0x40))
      || allPorts.any fun p => decide (a = blockAt (portMirrorOffset p) s) && decide (bs.length = 0xC0)
  | .message _ => false

/-- The runs of bytes that bus events store to: address and length. -/
def storedRuns : List BusEvent → List (Addr × Nat)
  | [] => []
  | .write a bs :: es => (a, bs.length) :: storedRuns es
  | .message _ :: es => storedRuns es

/-- The area of the mirrors (R199), which the card writes while RUNNING. -/
def mirrorRuns (s : State) : List (Addr × Nat) := if s.running then [(blockAt 0x200 s, 0x640)] else []

/-- Every byte of host memory outside some runs reads as before. -/
def StoresWithin (s t : State) (runs : List (Addr × Nat)) : Prop :=
  ∀ x, x < addressSpace → (∀ r ∈ runs, r.2 ≤ distanceFrom r.1 x) → readByte t.mem x = readByte s.mem x

/-- From `s` to `t`: the card holds what `u` holds, and it has put on the bus the events `writes`, newest first, and after them
nothing but mirror writes, made only while RUNNING. That the mirror writes of an event come after its other writes is the model's
reading (log 11). -/
structure Ends (s t u : State) (writes : List BusEvent) : Prop where
  device : deviceView t = deviceView u
  bus : ∃ ms, t.bus = ms ++ writes ++ s.bus ∧ (∀ e ∈ ms, isMirrorWrite s e = true) ∧ (s.running = false → ms = [])
  memory : StoresWithin s t (mirrorRuns s ++ storedRuns writes)

/-- The Chain Engine when it takes a command record: the cursor moves to it and one record more is in hand (R182). -/
def afterTake (a : Addr) (c : ChainEngine) : ChainEngine :=
  { c with cursors := c.cursors.set 0 (some a), inHand := c.inHand + 1 }

/-- The Chain Engine when a record of the chain with place `i`, counted in group `g`, completes (R185, R186, R187): one record less
in hand, the chain's count one higher with the record's address, and the completion counted toward the group. -/
def afterCompletionOf (i : Fin 17) (g : GatherGroup) (a : Addr) (c : ChainEngine) : ChainEngine :=
  let x := gatherOf g c
  let fills := decide (x.pending + 1 = x.count)
  setGatherOf g
    { x with
      pending := if fills then 0 else x.pending + 1
      timer := if fills then none else if x.pending = 0 then some x.timeMs else x.timer }
    { c with
      inHand := c.inHand - 1
      progress := c.progress.set i ⟨c.progress[i].count + 1, a⟩
      cause := if fills then c.cause ||| BitVec.twoPow 3 (groupBit (gatherGroup g)) else c.cause }

/-- The Chain Engine when a command record completes. -/
def afterCompletion (a : Addr) (c : ChainEngine) : ChainEngine := afterCompletionOf 0 .commands a c

/-- The write of TAKEN into a command record (R182, R200). -/
def takenWrite (a : Addr) : BusEvent := .write (a + 4) (leBytes 4 2)

/-- What follows the result fields at a completion, newest first (R185, R186, R188): the message of the group if this completion sets
its cause bit anew while enabled, the count and before it the address of the progress entry, and the state word DONE or FAILED. -/
def completionTail (s : State) (c : ChainEngine) (i : Fin 17) (g : GatherGroup) (a : Addr) (done : Bool) : List BusEvent :=
  let x := gatherOf g c
  let bit := groupBit (gatherGroup g)
  (if x.pending + 1 = x.count ∧ c.cause.getLsbD bit = false ∧ c.enable.getLsbD bit = true
    then [.message (gatherGroup g)] else [])
  ++ [.write (blockAt (0xC0 + 16 * i.val) s) (u32 (c.progress[i].count + 1)),
      .write (blockAt (0xC0 + 16 * i.val + 8) s) (u64 a),
      .write (a + 4) (leBytes 4 (if done then 6 else 7))]

/-- What a completion of a command record puts on the bus, newest first: result area and completion code before the tail (R185,
R201). The completion code before the result area, each in one write, is the model's choice (log 42). -/
def completionWrites (s : State) (c : ChainEngine) (a : Addr) (code : Code) (results : List Byte) : List BusEvent :=
  completionTail s c 0 .commands a (decide (code = .ok))
  ++ [.write (a + 0x60) (results ++ zeros (0xA0 - results.length)), .write (a + 0x14) (leBytes 2 (codeNumber code))]

/-- A command record at `a` is taken and completes at once with a code and results; the state of every block is that of `u`, and the
Chain Engine is `u`'s with the take and the completion. -/
def CommandDone (a : Addr) (code : Code) (results : List Byte) (s t u : State) : Prop :=
  Ends s t { u with chain := afterCompletion a (afterTake a u.chain) }
    (completionWrites s u.chain a code results ++ [takenWrite a])

/-- The budget queue is examined (R6, R7, R9): with no port in INRUSH and the reservation of the head fitting the budget, the head is
granted, and enters INRUSH with its timer started and no current read yet (log 12). -/
def examined (s : State) : State :=
  match s.power.queue with
  | [] => s
  | p :: rest =>
    let r := reservation (s.port p).power.clsInUse
    if (∀ q, powerOf q s ≠ .inrush) ∧ s.power.reserved + r ≤ s.power.budget then
      { modPower p (fun w => { w with state := .inrush, inrushTimer := some 50, loadMa := 0 }) s with
        power := { s.power with queue := rest, grants := s.power.grants ++ [p], reserved := s.power.reserved + r } }
    else s

/-- An auto sweep is asked for at a port (R12, R144): taken while RUNNING, with auto sweep on and the port not under test, it is
measured at once if the front end is free, and otherwise waits at the tail of the queue (R141, R146). -/
def autoSwept (p : PortId) (cause : Code) (s : State) : State :=
  let e : SweepEntry := { port := p, origin := .auto, cause := cause, averages := 16, recAt := none }
  if (s.port p).power.autoSweep = true ∧ s.running = true ∧ (s.port p).sweep.state = .none then
    match s.sweeps.front with
    | none => { modSweep p (fun w => { w with state := .measuring }) s with
        sweeps := { queue := [], front := some { entry := e, settings := (s.port p).sweep.settings, started := s.trig.clock
                                                 powerAtStart := powerOf p s, sums := [] } } }
    | some _ => { modSweep p (fun w => { w with state := .queued }) s with
        sweeps := { s.sweeps with queue := s.sweeps.queue ++ [e] } }
  else s

/-- The Link Receiver after a burst that ended in LOCKED: counted, and entered in the window of the last eight (R34, R39, R40). -/
def heard (k : BurstKind) (exact : Bool) (l : LinkRx) : LinkRx := { l with
  burst := none, bursts := l.bursts + 1, damaged := if k = .damaged then l.damaged + 1 else l.damaged
  history := l.history.drop (l.history.length - 7) ++ [⟨k, exact⟩] }

/-- May the record at an address be taken as a command record now? The cell is RUNNING, no mirror waits, and the record is of the
command kind (R181, R184, R200). -/
abbrev CommandReady (a : Addr) (s : State) : Prop := Quiet s ∧ s.running = true ∧ recordKind a s = 1

/-- The message of ALERTS that a newly set port alert sends (R188, R190). -/
def alertMessage (p : PortId) (bit : Nat) (s : State) : List BusEvent :=
  if (s.port p).alerts.getLsbD bit = false ∧ s.chain.cause.getLsbD 2 = false ∧ s.chain.enable.getLsbD 2 = true
    then [.message .alerts] else []

/-- A port alert is set, and the cause of ALERTS with it if the alert is new (R187, R190). -/
def withAlert (p : PortId) (bit : Nat) (s : State) : State :=
  if (s.port p).alerts.getLsbD bit then s
  else
    modPort p (fun q => { q with alerts := q.alerts ||| BitVec.twoPow 11 bit })
      { s with chain := { s.chain with cause := s.chain.cause ||| 4 } }

/-- A charge on a port's flex map (R165, R166, R167): the bin of the axis position and the total rise by the weight, and a bin that
reaches the threshold is listed as a suspect with its alert, or counted where the list is full. With it, the message sent. -/
def flexCharged (p : PortId) (weight : Nat) (s : State) : State × List BusEvent :=
  let x := (s.port p).flex
  match x.axis with
  | none => (s, [])
  | some ax =>
    let b := flexBin x.low.toInt x.high.toInt (axisState ax s.trig).position.toInt
    let n := min (x.bins[b] + weight) 65535
    let y : FlexMap := { x with bins := x.bins.set b n, total := x.total + BitVec.ofNat 32 weight }
    let u (y : FlexMap) := modFlex p (fun _ => y) s
    if x.bins[b] < x.threshold ∧ x.threshold ≤ n then
      if x.suspects.length < 8 then (withAlert p 8 (u { y with suspects := x.suspects ++ [b] }), alertMessage p 8 s)
      else (u { y with overflow := x.overflow + 1 }, [])
    else (u y, [])

/-- The bytes that fill an erased line (R117). -/
def fillBytes (r : FrameRx) (e : Entry) (f : Filling) : List Byte :=
  match r.erasure with
  | .zero => zeros f.bytesPerLine
  | .fill => fillLine e.format f.header.width f.header.depth (min r.fillValue.toNat (2 ^ f.header.depth - 1))
  | .copyLast => f.lastLine.getD (zeros f.bytesPerLine)

/-- The frame being filled after its next `n` lines have been erased, and the writes that fill them, newest first (R115, R117,
R118): a line that does not fit the buffer is not written and makes the frame truncated. -/
def erasedLines (r : FrameRx) (e : Entry) : Nat → Filling → Filling × List BusEvent
  | 0, f => (f, [])
  | n + 1, f =>
    let x := erasedLines r e n f
    let g := x.1
    let fits := decide (g.next * e.stride + g.bytesPerLine ≤ e.bufSize)
    let ranges := addRange g.ranges g.next
    ({ g with next := g.next + 1, erased := g.erased + 1, truncated := g.truncated || !fits
              ranges := ranges.1, overflow := g.overflow || ranges.2 },
     if fits then .write (e.bufAddr + BitVec.ofNat 64 (g.next * e.stride)) (fillBytes r e g) :: x.2 else x.2)

/-- A burst that ends as damaged in LOCKED (R34, R39, R116, R165): counted, the next line of a frame being filled erased, and the flex
map charged. With it, what goes out, newest first. -/
def damagedHeard (p : PortId) (exact : Bool) (s : State) : State × List BusEvent :=
  let s1 := modLink p (heard .damaged exact) s
  let x := match (s.port p).frame.recv, (s.port p).frame.entries with
    | .filling f, e :: _ =>
      if f.next < f.header.height then
        let g := erasedLines (s.port p).frame e 1 f
        (modFrame p (fun r => { r with recv := .filling g.1 }) s1, g.2)
      else (s1, [])
    | _, _ => (s1, [])
  let y := flexCharged p 1 x.1
  (y.1, y.2 ++ x.2)

/-- The frame being filled, if there is one, is that of the oldest exposure entry (R110, R111). -/
abbrev FillsOldest (p : PortId) (s : State) : Prop :=
  ∀ f, (s.port p).frame.recv = .filling f → ∃ e ∈ (s.port p).frame.entries.head?, e.trigger = f.trigger

/-- Does a slot's record complete DONE (R121, R136)? -/
def slotDone (x : Slot) : Bool :=
  match x.status with
  | some .complete | some .partialFrame | some .truncated | some .closeLost => true
  | _ => false

/-- The Chain Engine when the records of an item's slots complete (R136). -/
def itemChain (c : ChainEngine) (slots : List Slot) : ChainEngine :=
  slots.foldl (fun c x => afterCompletionOf ⟨1 + x.port.val, by omega⟩ .frames x.image c) c

/-- The counting of the records of an item's slots, one record after the other, newest first (R136, R185, R186; log 36). -/
def itemCounts (s : State) (c : ChainEngine) : List Slot → List BusEvent
  | [] => []
  | x :: rest =>
    itemCounts s (afterCompletionOf ⟨1 + x.port.val, by omega⟩ .frames x.image c) rest
      ++ (completionTail s c ⟨1 + x.port.val, by omega⟩ .frames x.image (slotDone x)).dropLast

/-- The writes of an item's completion, newest first (R136): set status, PARTIAL with a member that failed and COMPLETE without, and
failed mask into every record, in one write each (log 43), then the state words, then the counting. -/
def itemWrites (s : State) (c : ChainEngine) (slots : List Slot) : List BusEvent :=
  let failed := slots.filter fun x => !slotDone x
  let mask : Byte := failed.foldl (fun m x => m ||| BitVec.twoPow 8 x.port.val) 0
  itemCounts s c slots
    ++ (slots.reverse.map fun x => .write (x.image + 4) (leBytes 4 (if slotDone x then 6 else 7)))
    ++ (slots.reverse.map fun x => .write (x.image + 0x4A) (u8 (if failed = [] then 1 else 2) ++ [mask]))

/-- The completion of a lens record (R99, R100, R185): the result fields, then the tail of a completion; newest first. The one write
of the result fields is the model's choice (log 42). -/
def lensWrites (s : State) (p : PortId) (a : Addr) (code : Code) (e : Entry) (outcome : LensOutcome) (flags : BitVec 4)
    (targets : List Target) (started ended : U64) : List BusEvent :=
  completionTail s s.chain ⟨9 + p.val, by omega⟩ .commands a (decide (code = .ok))
  ++ [.write (a + 0x24)
    (leBytes 2 (codeNumber code) ++ u8 p.val ++ u8 e.source.val ++ u32 e.trigger ++ u8 (lensOutcomeNumber outcome)
      ++ u8 flags.toNat ++ zeros 2 ++ (targets.map targetBytes).flatten
      ++ (List.replicate (4 - targets.length) (u16 0xFFFF ++ zeros 2)).flatten ++ u64 started ++ u64 ended)]

/-- The end of an entry's sound lens record, at the end of its phase or at its close before that (R99, R100): the Chain Engine after it,
and its writes, newest first; nothing where the entry has none. -/
def lensRecordEnds (s : State) (p : PortId) (code : Code) (e : Entry) (outcome : LensOutcome) (flags : BitVec 4)
    (targets : List Target) (started ended : U64) : ChainEngine × List BusEvent :=
  match e.lensRec, e.lensPairs with
  | some a, some _ =>
    (afterCompletionOf ⟨9 + p.val, by omega⟩ .commands a s.chain, lensWrites s p a code e outcome flags targets started ended)
  | _, _ => (s.chain, [])

/-- A port's image records complete at the close of their entries, one after the other (R121, R123, R185), each with its status, DONE
or FAILED, and its result fields from 0x4C on: the Chain Engine after them, and their writes, newest first. The one write of a record's
result fields is the model's choice (log 43). -/
def closesOf (s : State) (p : PortId) (c : ChainEngine) : List (Entry × Nat × Bool × List Byte) → ChainEngine × List BusEvent
  | [] => (c, [])
  | (e, status, done, body) :: rest =>
    let x := closesOf s p (afterCompletionOf ⟨1 + p.val, by omega⟩ .frames e.image c) rest
    (x.1, x.2 ++ completionTail s c ⟨1 + p.val, by omega⟩ .frames e.image done
      ++ [.write (e.image + 0x48) (leBytes 2 status ++ zeros 2 ++ body)])

/-- The targets of a phase that has ended before every unit answered (R94, R95, R100): the unit in progress gets `r`, every other unit
without a result NOT_REACHED. -/
def settled (inProgress : Option UnitId) (r : UnitResult) (ts : List Target) : List Target :=
  ts.map fun y =>
    if y.result = none then { y with result := some (if inProgress = some y.unit then r else .notReached) } else y

/-- The channel after its transaction has ended, with nothing begun since (R45, R47). -/
def freed (c : Channel) : Channel := { c with state := .idle, txn := none, replyTimer := none, holdTimer := none }

/-- A channel that has just begun a message and waits for the answer to its first header (R44, R47, R50). -/
def begun (m : Message) (c : Channel) : Channel := { c with
  state := .sending, txn := some { message := m, part := 0, stage := .header, acked := 0, data := [] }
  replyTimer := some 2, holdTimer := none }

/-- A port's taker after a fire of number `n` that its pattern skips, or whose take attempt is refused for want of READY or of room
(R76, R77, R78); none where the chains of the port are asked. -/
def refusedTaker (n : U32) (q : Port) : Option Taker :=
  let x : Taker := { q.take with
    lastTrigger := n, position := if q.take.position + 1 < q.take.length then q.take.position + 1 else 0 }
  if takeBit q.take = false then some { x with skips := x.skips + 1 }
  else if q.ctl.ready = false then some { x with notReady := x.notReady + 1 }
  else if 4 ≤ q.frame.entries.length then some { x with overtrigger := x.overtrigger + 1 }
  else none

/-- A take attempt of a port that is admitted at once, with lens mode OFF and no older entry (R77, R79): the record and the buffer
fields that its image chain offers. -/
structure TakesAtOnce (p : PortId) (r : Addr) (b : Addr × Nat × Nat × StoreFormat) (s : State) : Prop where
  bit : takeBit (s.port p).take = true
  ready : (s.port p).ctl.ready = true
  empty : (s.port p).frame.entries = []
  noPhase : (s.port p).lens.phase = none
  noTable : (s.port p).lens.held = []
  lensOff : (s.port p).lens.chain = false
  noExpose : (s.port p).ctl.state = .idle → (s.port p).ctl.exposes = []
  offered : need (.image p) s = some r
  sound : readImageRecord r s = some b

/-- The card after such a take by the fire of number `n` of a source, at the axis positions and the clock of `s` (R74, R76, R79, R98):
the entry is in EXPOSE_QUEUED, its EXPOSE queued, or begun on an IDLE channel. -/
def takenAtOnce (k : SourceId) (n : U32) (p : PortId) (r : Addr) (b : Addr × Nat × Nat × StoreFormat) (s : State) : State :=
  let e : Entry := {
    source := k, trigger := n, axisA := s.trig.axisA.position, axisB := s.trig.axisB.position, time := s.trig.clock
    image := r, bufAddr := b.1, bufSize := b.2.1, stride := b.2.2.1, format := b.2.2.2, lensRec := none, lensPairs := none
    badLens := false, set := none, phase := .exposeQueued, outcome := .none, flags := 0, exposedAt := 0, timer := none
    opened := none }
  let idle := decide ((s.port p).ctl.state = .idle)
  { modPort p (fun q => { q with
        take := { q.take with
          lastTrigger := n, takes := q.take.takes + 1
          position := if q.take.position + 1 < q.take.length then q.take.position + 1 else 0 }
        frame := { q.frame with entries := [e] }
        ctl := if idle then { begun (.expose n) q.ctl with holdTimer := q.ctl.holdTimer }
               else { q.ctl with exposes := q.ctl.exposes ++ [n] }
        lens := { q.lens with clamped := .replicate 4 false } }) s with
      cable := if idle then ⟨p, .header 0 true 16⟩ :: ⟨p, .startMark⟩ :: s.cable else s.cable
      chain := { s.chain with
        cursors := s.chain.cursors.set (chainIndex (.image p)) (some r), inHand := s.chain.inHand + 1 } }

/-- What such a take puts on the bus, newest first (R79): BOUND after the trigger fields, which go out in one write (log 42). -/
def boundWrites (k : SourceId) (n : U32) (r : Addr) (s : State) : List BusEvent :=
  [.write (r + 4) (leBytes 4 3),
   .write (r + 0x21) (u8 k.val ++ u8 0xFF ++ zeros 1 ++ u32 n ++ zeros 4 ++ u32 s.trig.axisA.position
     ++ u32 s.trig.axisB.position ++ zeros 4 ++ u64 s.trig.clock ++ zeros 8)]

/-- Nothing of a port but its power is in hand: no exposure entry, frame, transaction, waiting HEAD message, lens phase or held
command. -/
abbrev IdlePort (p : PortId) (s : State) : Prop :=
  (s.port p).frame.entries = [] ∧ (s.port p).frame.recv = .idle ∧ (s.port p).ctl.txn = none ∧ (s.port p).ctl.heads = []
    ∧ (s.port p).lens.phase = none ∧ (s.port p).lens.held = []

/-- A powered port whose power has been removed, with nothing of it in hand: its reservation is released, its link DOWN, its channel
SUSPENDED without an identity, its lens units UNKNOWN (R8, R15, R27, R57, R85). -/
def unpowered (p : PortId) (s : State) : State :=
  modPort p (fun q => { q with
      link := { q.link with state := .down, confirm := 0, misses := 0, boundary := .none, burst := none }
      ctl := { q.ctl with
        state := .suspended, txn := none, replyTimer := none, holdTimer := none, noteTimer := none, exposes := []
        lensMsgs := [], heads := [], identity := none, noCompare := false, ready := false, retryTimer := none }
      lens := { q.lens with known := .replicate 4 none } })
    { s with power := { s.power with
      grants := s.power.grants.erase p, reserved := s.power.reserved - reservation (s.port p).power.clsInUse } }

/-- The ON command in flight of a port completes, if there is one (R4). -/
def withAnswer (p : PortId) (s : State) : State :=
  match (s.port p).power.onCommand with
  | none => s
  | some a => { modPower p (fun w => { w with onCommand := none }) s with chain := afterCompletion a s.chain }

/-- What the completion of a port's ON command in flight puts on the bus. -/
def answerWrites (p : PortId) (code : Code) (s : State) : List BusEvent :=
  match (s.port p).power.onCommand with
  | none => []
  | some a => completionWrites s s.chain a code []

/-- The ON command in flight of a port, if there is one, is a record of the command kind. -/
def AnswerReady (p : PortId) (s : State) : Prop := ∀ a, (s.port p).power.onCommand = some a → recordKind a s = 1

/-- Does an address lie outside a record and outside the progress entry of the command chain? -/
abbrev apartFrom (b a : Addr) (s : State) : Prop :=
  0x100 ≤ distanceFrom b a.toNat ∧ 0x10 ≤ distanceFrom (blockAt 0xC0 s) a.toNat

/-- The record address and the command of a row that stands for a command record (R184, R201). -/
def commandOf : Instr → Option (Addr × Command)
  | .portPowerOn a port => some (a, .portPower port 1)
  | .portPowerOff a port => some (a, .portPower port 0)
  | .setBudget a n => some (a, .setBudget n)
  | .configurePort a port x => some (a, .configurePort port x)
  | .resetPort a port => some (a, .resetPort port)
  | .clearAlerts a ports cellFlags portFlags => some (a, .clearAlerts ports cellFlags portFlags)
  | .setGather a group count time => some (a, .setGather group count time)
  | .headAccess a port x => some (a, .headAccess port x)
  | .setSource a x => some (a, .setSource x)
  | .setPattern a port length bits => some (a, .setPattern port length bits)
  | .softTrigger a source => some (a, .softTrigger source)
  | .setAxisPosition a axis value => some (a, .setAxisPosition axis value)
  | .setLensTable a port x => some (a, .setLensTable port x)
  | .formSet a set members => some (a, .formSet set members)
  | .dissolveSet a set => some (a, .dissolveSet set)
  | .cableSweep a port averages => some (a, .cableSweep port averages)
  | .setFlexAxis a port axis threshold low high => some (a, .setFlexAxis port axis threshold low high)
  | .readFlexMap a port => some (a, .readFlexMap port)
  | .clearFlexMap a port => some (a, .clearFlexMap port)
  | .releaseSnapshot a port => some (a, .releaseSnapshot port)
  | _ => none

/-- The host memory that a command of the register window finds: CELL_START and TAP come after the host's writes (log 7). -/
def hostWritten (c : Instr) (m : List Host.Cell) : List Host.Cell :=
  let put (ws : List HostWrite) := ws.foldl (fun m w => writeBytes m w.addr w.bytes) m
  match c with
  | .cellStart _ ws => put ws
  | .tap _ ws => put ws
  | _ => m

/-- May a command walk the command chain while the cell is RUNNING: a tap, or an access judged to be one (log 3)? -/
def mayWalk : Instr → Bool
  | .tap _ _ => true
  | .registerWriteIgnored _ => true
  | _ => false

/-- The code with which a command record is refused that no row of the table stands for (R184, checks 1 to 3, R201): of another kind,
of a name that is not in the list, or a PORT_POWER whose action is neither ON nor OFF; none for every other record. -/
def refusal (a : Addr) (h : State) : Option Code :=
  if recordKind a h ≠ 1 then some .badRecord
  else
    match decodeCommand (readBytes h.mem a 0x60) with
    | none => some .badCommand
    | some (.portPower port action) =>
      if action.toNat ≤ 1 then none
      else if port.toNat < 8 ∧ port.toNat < h.chain.portCount.toNat then some .badArgument
      else some .badPort
    | some _ => none

/-- The card after a walk has taken such a record and completed it FAILED with its code. -/
def refusedAt (a : Addr) (code : Code) (h : State) : State := flushMirrors (completeCommand a code [] (takeCommand a h))

/-- From `h` a walk of the command chain takes some records, one after the other, and comes to `t`, where the chain is dry (R183,
R184): each record is the one that the chain's need finds, and it reads as the command of its row, which runs from where the row before
it ended, or is refused, where the list has none. -/
def Walks : List (Option Instr) → State → State → Prop
  | [], h, t => need .command h = none ∧ t = h
  | some i :: rest, h, t => ∃ (a : Addr) (c : Command) (u : State), commandOf i = some (a, c) ∧ need .command h = some a ∧
      recordKind a h = 1 ∧ decodeCommand (readBytes h.mem a 0x60) = some c ∧ exec i h = .next u ∧ Walks rest u t
  | none :: rest, h, t => ∃ (a : Addr) (code : Code), need .command h = some a ∧ refusal a h = some code ∧
      Walks rest (refusedAt a code h) t

/-- May a command start a walk of the command chain, clear alerts, or reset the card? -/
def mayClearAlerts : Instr → Bool
  | .cellStart _ _ => true
  | .cellStop _ => true
  | .cellStopped => true
  | .tap _ _ => true
  | .registerWriteIgnored _ => true
  | .runChangeInStoppingOrFault _ => true
  | .hardReset _ => true
  | .clearAlerts _ _ _ _ => true
  | _ => false

end Sys2Proof.Machine
end

