-- ==== Sys2Proof/Certificates/Slice0/Obligations.lean ====
section
/-! DEFINITION. The statements for the provers: what the machine, the register window, each command and each event do, by the
rules of the spec. -/

open Sys2Proof Sys2Proof.Machine

/-! ## The whole machine -/

/-- A step runs the command at the front of the queue on the state with the queue's rest. -/
def Obligations.StepRunsFrontCommand : Prop :=
  ∀ (c : Instr) (rest : List Instr) (s : State), s.pending = c :: rest → step s = exec c { s with pending := rest }

/-- The model's choice (log 1): on an empty queue a due stop ends as at CELL_STOPPED; with no stop due and no walk under way one
step is one microsecond of the cell clock (R63) and nothing else. -/
def Obligations.IdleCardKeepsTime : Prop :=
  ∀ s : State, s.pending = [] →
    (¬ (s.running = true ∧ s.chain.walking = true) → ¬ (s.chain.cell = .stopping ∧ s.chain.inHand = 0) →
      step s = .next { s with trig := { s.trig with clock := s.trig.clock + 1 } }) ∧
    (s.chain.cell = .stopping → s.chain.inHand = 0 → step s = exec .cellStopped s)

/-- Host memory keeps its canonical form through every step (the model's form of memory, log 5). -/
def Obligations.StepKeepsMemoryForm : Prop :=
  ∀ s t : State, memWf s.mem = true → step s = .next t → memWf t.mem = true

/-- Every change a command makes to host memory is a write the card has put on the bus, in the order of the bus (R185, R186), made
to the memory as the host has left it.
The host's own writes come with CELL_START and TAP (the model's choice, log 7). -/
def Obligations.MemoryFollowsBus : Prop :=
  ∀ (c : Instr) (s t : State), exec c s = .next t →
    ∃ new, t.bus = new ++ s.bus ∧ t.mem = applyBus new (hostWritten c s.mem)

/-- The laws of the device that R6 names, with R7, R8 and R16: through every step the reserved sum is that of the powered ports and
within the budget, the budget within 1920 dW, at most one port in INRUSH. And the law of R105, with R27, R36 and R57: through every
step a port not in ON or FOLDBACK has its link DOWN and an empty exposure list, and a port whose link is not LOCKED has its channel
SUSPENDED without READY. -/
def Obligations.StepKeepsPowerLaw : Prop :=
  (∀ s t : State, PowerLaw s → step s = .next t → PowerLaw t) ∧
  (∀ s t : State, PowerLaw s → LinkLaw s → step s = .next t → LinkLaw t)

/-- Through every step each port is in at most one mask and in at most one formed set, and a formed set stays within one mask (R69,
R127); and the ports under test are exactly those of the sweeps in the front end and its queue, each of them OFF or TRIPPED, with
nothing waiting at a free front end (R141, R142). -/
def Obligations.StepKeepsMaskSetAndSweepLaws : Prop :=
  (∀ s t : State, MaskLaw s → SetLaw s → step s = .next t → MaskLaw t ∧ SetLaw t) ∧
  (∀ s t : State, PowerLaw s → SweepLaw s → step s = .next t → SweepLaw t)

/-- Through every step the trigger numbers of a port's exposure entries rise, no port is ahead of its source, and lists keep their
bounds (R67, R69, R105, R133). -/
def Obligations.StepKeepsTriggerLaw : Prop :=
  ∀ s t : State, MaskLaw s → SetLaw s → TriggerLaw s → step s = .next t → TriggerLaw t

/-- The alert flags are sticky: a command that is not CLEAR_ALERTS, HARD_RESET or one that may start a walk clears no flag of a port
or of the cell (R190). A flag newly set sets the ALERTS cause bit, whatever command set it (R187, R190). -/
def Obligations.AlertsStayAndRaiseTheCause : Prop :=
  (∀ (c : Instr) (s t : State), mayClearAlerts c = false → exec c s = .next t →
     (∀ (p : PortId) (i : Nat), (s.port p).alerts.getLsbD i = true → (t.port p).alerts.getLsbD i = true) ∧
     (∀ i : Nat, s.chain.cellAlerts.getLsbD i = true → t.chain.cellAlerts.getLsbD i = true)) ∧
  (∀ (c : Instr) (s t : State), exec c s = .next t →
     ((∃ (p : PortId) (i : Nat), (s.port p).alerts.getLsbD i = false ∧ (t.port p).alerts.getLsbD i = true) ∨
       (∃ i : Nat, s.chain.cellAlerts.getLsbD i = false ∧ t.chain.cellAlerts.getLsbD i = true)) →
     t.chain.cause.getLsbD 2 = true)

/-- Between commands no mirror waits (log 11). While the cell stays RUNNING, a port whose mirrored items have changed, an entry of which has
closed, or whose set has been formed or dissolved, has had its mirror written in its place, whole, by the end of the command, and so has
the cell where the budget, the reserved sum, the supply-low flag or a cell alert flag has changed (R192, R193). Where the command walks
no chain, the mirror shows the port and the cell as the command leaves them. -/
def Obligations.MirrorsFollowChanges : Prop :=
  ∀ (c : Instr) (s t : State), Quiet s → exec c s = .next t →
    Quiet t ∧
    (s.running = true → t.running = true →
      ∃ new, t.bus = new ++ s.bus ∧
        (∀ p : PortId, (mirrorKey (t.port p) ≠ mirrorKey (s.port p) ∨ t.setOf p ≠ s.setOf p ∨
            ∃ e ∈ (s.port p).frame.entries, ∀ x ∈ (t.port p).frame.entries, x.trigger ≠ e.trigger) →
          ∃ bytes : List Byte, bytes.length = 0xC0 ∧ BusEvent.write (blockAt (portMirrorOffset p) t) bytes ∈ new ∧
            (mayWalk c = false → bytes = portMirrorBytes t p (t.port p).mirrorCount)) ∧
        ((t.power.budget, t.power.reserved, t.power.supplyLow, t.chain.cellAlerts)
            ≠ (s.power.budget, s.power.reserved, s.power.supplyLow, s.chain.cellAlerts) →
          ∃ bytes : List Byte, bytes.length = 0x40 ∧ BusEvent.write (blockAt 0x200 t) bytes ∈ new ∧
            (mayWalk c = false → bytes = cellMirrorBytes t t.chain.mirrorCount)))

/-- At State.reset every law holds: power, links, masks, sets, sweeps, trigger numbers, host memory, and no mirror waits. -/
def Obligations.ResetHoldsTheLaws : Prop :=
  PowerLaw State.reset ∧ LinkLaw State.reset ∧ MaskLaw State.reset ∧ SetLaw State.reset ∧ SweepLaw State.reset ∧
    TriggerLaw State.reset ∧ memWf State.reset.mem = true ∧ Quiet State.reset ∧ State.reset.pending = []

/-! ## The register window, the start and the stop -/

/-- R178: a half of the Cell Block address is replaced in STOPPED and BLOCK_FAULT and the write ignored otherwise; from the start of
a run to the end of its stop the address is constant, hard reset apart; an address of 0 or off a 64-byte boundary ends the next start
in BLOCK_FAULT. -/
def Obligations.BlockAddress : Prop :=
  (∀ (high : Bool) (v : U32) (s : State), Quiet s → (s.chain.cell = .stopped ∨ s.chain.cell = .blockFault) →
    exec (.blockAddressWrite high v) s = .next { s with chain := { s.chain with
      block := if high then v ++ s.chain.block.setWidth 32 else s.chain.block.extractLsb' 32 32 ++ v } }) ∧
  (∀ (high : Bool) (v : U32) (s : State), Quiet s → s.chain.cell ≠ .stopped → s.chain.cell ≠ .blockFault →
    exec (.blockAddressWrite high v) s = .next s) ∧
  (∀ (c : Instr) (s t : State), s.chain.cell ≠ .stopped → s.chain.cell ≠ .blockFault → (∀ x, c ≠ .hardReset x) →
    exec c s = .next t → t.chain.block = s.chain.block) ∧
  (∀ (v : U32) (posted : List HostWrite) (s : State), (s.chain.cell = .stopped ∨ s.chain.cell = .blockFault) →
    s.chain.run = false → v.getLsbD 0 = true → (s.chain.block = 0 ∨ s.chain.block.toNat % 64 ≠ 0) →
    ∃ t, exec (.cellStart v posted) s = .next t ∧ t.chain.cell = .blockFault)

/-- R188: a group's message goes out when its cause bit goes from 0 to 1 while enabled, whatever command sets it and in every cell
state (hard reset, which clears every enable, apart), and when its enable goes from 0 to 1 while the bit is 1; a 1 written to CAUSE
clears the bit and nothing else, and a write of CAUSE_ENABLE leaves the bits as they are.
That one write of CAUSE_ENABLE sends the messages of several groups in the order FRAMES, COMMANDS, ALERTS is the model's choice (log 35). -/
def Obligations.InterruptMessages : Prop :=
  (∀ (g : Group) (s : State),
    setCause g s = if s.chain.cause.getLsbD (groupBit g) then s else
      { s with
        chain := { s.chain with cause := s.chain.cause ||| BitVec.twoPow 3 (groupBit g) }
        bus := if s.chain.enable.getLsbD (groupBit g) then .message g :: s.bus else s.bus }) ∧
  (∀ (c : Instr) (g : Group) (s t : State), (∀ x, c ≠ .hardReset x) → exec c s = .next t →
    s.chain.cause.getLsbD (groupBit g) = false → t.chain.cause.getLsbD (groupBit g) = true →
    s.chain.enable.getLsbD (groupBit g) = true → ∃ new, t.bus = new ++ s.bus ∧ BusEvent.message g ∈ new) ∧
  (∀ (v : U32) (s : State), Quiet s →
    exec (.causeEnableWrite v) s = .next { s with
      chain := { s.chain with enable := v.setWidth 3 }
      bus := (([.alerts, .commands, .frames] : List Group).filter fun g =>
        !s.chain.enable.getLsbD (groupBit g) && v.getLsbD (groupBit g) && s.chain.cause.getLsbD (groupBit g)).map .message
        ++ s.bus }) ∧
  (∀ (v : U32) (s : State), Quiet s →
    exec (.causeClear v) s = .next { s with chain := { s.chain with cause := s.chain.cause &&& ~~~ v.setWidth 3 } })

/-- Gathering (R187): the completion that fills a gather sets the cause bit, empties the count and stops the timer; the first of a
gather starts the timer; at the timer's expiry a pending count above 0 sets the bit and becomes 0. Nothing else changes, but for the
message of R188.
That a timeout with no timer running changes nothing is the model's reading (log 2). -/
def Obligations.Gathering : Prop :=
  (∀ (g : GatherGroup) (s : State),
    let x := gatherOf g s.chain
    countToward g s =
      if x.pending + 1 = x.count then
        setCause (gatherGroup g) { s with chain := setGatherOf g { x with pending := 0, timer := none } s.chain }
      else
        { s with chain := (setGatherOf g
          { x with pending := x.pending + 1, timer := if x.pending = 0 then some x.timeMs else x.timer } s.chain) }) ∧
  (∀ (g : GatherGroup) (s : State), Quiet s → (gatherOf g s.chain).timer.isSome = true →
    let x := gatherOf g s.chain
    let s1 : State := { s with chain := setGatherOf g { x with pending := 0, timer := none } s.chain }
    exec (.gatherTimeout g) s = .next (if 0 < x.pending then setCause (gatherGroup g) s1 else s1)) ∧
  (∀ (g : GatherGroup) (s : State), Quiet s → (gatherOf g s.chain).timer = none → exec (.gatherTimeout g) s = .next s)

/-- A start whose header fails a check (R178, R179): BLOCK_FAULT, the cell alert and the ALERTS cause, and nothing else; the message
goes out if the cause bit is new and enabled.
A start whose header passes (R179): RUNNING with every cursor emptied, every progress count 0, and ports beyond the count out of every
mask; such a port that is powered is OFF with HOST_OFF and unpowered, and a set with such a member is dissolved; the bus shows the
progress area, the cell mirror, the eight port mirrors and the cell mirror again, in that order, and nothing else, the first cell
mirror with STATE STARTING and the second with RUNNING, both with the port count of the run (R193). Then the command chain is walked
as at a tap: with a null anchor the walk ends at once, and otherwise it runs as TapWalksTheChain says.
The host's writes come with the row (the model's choice, log 7). The port mirrors in ascending order, the one write of the progress
area, and mirror writes at the places of R179 are the model's choices (log 27, 41 and 11). -/
def Obligations.CellStart : Prop :=
  (∀ (v : U32) (posted : List HostWrite) (s : State), Quiet s → (s.chain.cell = .stopped ∨ s.chain.cell = .blockFault) →
     s.chain.run = false → v.getLsbD 0 = true →
     let m := hostWritten (.cellStart v posted) s.mem
     let n := readField m (s.chain.block + 4) 4
     ¬ (s.chain.block ≠ 0 ∧ s.chain.block.toNat % 64 = 0 ∧ readField m s.chain.block 4 = 0x56430801 ∧ 1 ≤ n ∧ n ≤ 8) →
     exec (.cellStart v posted) s = .next { s with
       mem := m
       chain := { s.chain with
         run := true, cell := .blockFault, cellAlerts := s.chain.cellAlerts ||| 1, cause := s.chain.cause ||| 4 }
       bus := if s.chain.cause.getLsbD 2 = false ∧ s.chain.enable.getLsbD 2 = true then .message .alerts :: s.bus else s.bus }) ∧
  (∀ (v : U32) (posted : List HostWrite) (s : State), Quiet s → (s.chain.cell = .stopped ∨ s.chain.cell = .blockFault) →
     s.chain.run = false → v.getLsbD 0 = true → s.chain.tapPending = false → s.power.queue = [] →
     let m := hostWritten (.cellStart v posted) s.mem
     let n := readField m (s.chain.block + 4) 4
     s.chain.block ≠ 0 → s.chain.block.toNat % 64 = 0 → readField m s.chain.block 4 = 0x56430801 → 1 ≤ n → n ≤ 8 →
     let excluded := allPorts.filter fun p => decide (n ≤ p.val) && isPowered (powerOf p s)
     (∀ p ∈ excluded, (s.port p).frame.entries = [] ∧ (∀ f, (s.port p).frame.recv ≠ .filling f) ∧ headAccesses (s.port p).ctl = 0 ∧
       (s.port p).lens.phase = none ∧ (s.port p).lens.held = [] ∧ (s.port p).power.onCommand = none) →
     let off (p : PortId) (u : State) : State := modPort p (fun q => { q with
       frame := { q.frame with recv := .idle }
       power := { q.power with state := .off, cause := .hostOff, retries := 0, pendingOn := false, detectTimer := none
                               inrushTimer := none, foldbackTimer := none } }) (unpowered p u)
     let sizes (es : List BusEvent) := es.map fun e => match e with | .write a bs => some (a, bs.length) | .message _ => none
     ∃ u,
       deviceView u = deviceView { forPorts excluded off s with
         chain := { s.chain with
           run := true, cell := .running, portCount := BitVec.ofNat 8 n, cursors := .replicate 17 none
           progress := .replicate 17 {}, walking := true }
         trig := { s.trig with sources := s.trig.sources.map fun x => { x with mask := x.mask &&& BitVec.ofNat 8 (2 ^ n - 1) } }
         sets := s.sets.map fun z =>
           if z.formed = true ∧ ∃ p : PortId, n ≤ p.val ∧ z.mask.getLsbD p.val = true then { z with formed := false, mask := 0 } else z } ∧
       sizes u.bus =
         [some (blockAt 0x200 s, 0x40)] ++ (allPorts.reverse.map fun p => some (blockAt (portMirrorOffset p) s, 0xC0))
           ++ [some (blockAt 0x200 s, 0x40), some (blockAt 0xC0 s, 0x110)] ++ sizes s.bus ∧
       (∃ (starting running : List Byte) (between : List BusEvent),
         u.bus = .write (blockAt 0x200 s) running :: between ++ [.write (blockAt 0x200 s) starting,
           .write (blockAt 0xC0 s) (zeros 0x110)] ++ s.bus ∧ between.length = 8 ∧
           starting[4]? = some 1 ∧ running[4]? = some 2 ∧ starting[6]? = some (BitVec.ofNat 8 n) ∧
           running[6]? = some (BitVec.ofNat 8 n)) ∧
       (∀ x, x < addressSpace → 0x110 ≤ distanceFrom (blockAt 0xC0 s) x → 0x640 ≤ distanceFrom (blockAt 0x200 s) x →
         readByte u.mem x = readByte m x) ∧
       (∀ i, i < 0x110 → readByte u.mem ((blockAt 0xC0 s).toNat + i) = 0 ∨ addressSpace ≤ (blockAt 0xC0 s).toNat + i) ∧
       u.chain.mirrorCount = s.chain.mirrorCount + 2 ∧
       (∀ p : PortId, (u.port p).mirrorCount = (s.port p).mirrorCount + 1) ∧ Quiet u ∧
       (readField m (s.chain.block + 8) 8 = 0 →
         exec (.cellStart v posted) s = .next { u with chain := { u.chain with walking := false } }) ∧
       ∀ (rows : List (Option Instr)) (t : State), rows.length ≤ u.mem.length → Walks rows u t →
         exec (.cellStart v posted) s = .next { t with chain := { t.chain with walking := false } })

/-- A tap (R183): ignored while not RUNNING; sets tap-pending during a walk; on a dry command chain it begins a walk that ends with
tap-pending clear.
A walk takes and starts, one after the other, the records its needs find, each as the row of its command does from where the row
before it ended, and ends when the chain is then dry (R183, R184; as many records as one step walks, log 24). It goes on past a record
that is refused.
A record that is not of the command kind completes FAILED with BAD_RECORD, within the length of its own kind, a command name that
is not in the list FAILED with BAD_COMMAND, and a PORT_POWER whose action is neither ON nor OFF FAILED with BAD_PORT or BAD_ARGUMENT
(R184, checks 1 to 3, R200; the length of an unknown kind and the zeros of the result area are the model's choice, log 19 and 18).
The host's writes come with the row (the model's choice, log 7).
Mirror writes last, and the completion code before the results: the model's choices (log 11 and 42). -/
def Obligations.TapWalksTheChain : Prop :=
  (∀ (v : U32) (posted : List HostWrite) (s : State), Quiet s →
     let h : State := { s with mem := hostWritten (.tap v posted) s.mem }
     (s.running = false → exec (.tap v posted) s = .next h) ∧
     (s.running = true → s.chain.walking = true →
       exec (.tap v posted) s = .next { h with chain := { s.chain with tapPending := true } }) ∧
     (s.running = true → s.chain.walking = false → need .command h = none →
       exec (.tap v posted) s = .next { h with chain := { s.chain with tapPending := false } })) ∧
  (∀ (v : U32) (posted : List HostWrite) (rows : List (Option Instr)) (s t : State),
     let h : State := { s with mem := hostWritten (.tap v posted) s.mem, chain := { s.chain with walking := true } }
     Quiet s → s.running = true → s.chain.walking = false → s.chain.tapPending = false → rows.length ≤ h.mem.length →
     Walks rows h t → exec (.tap v posted) s = .next { t with chain := { t.chain with walking := false } }) ∧
  (∀ (v : U32) (posted : List HostWrite) (a : Addr) (s : State),
     let h : State := { s with mem := hostWritten (.tap v posted) s.mem }
     let kind := recordKind a h
     let code : Code := if kind = 1 then .badCommand else .badRecord
     Quiet s → s.running = true → s.chain.walking = false → s.chain.tapPending = false → need .command h = some a →
     (kind = 1 → decodeCommand (readBytes h.mem a 0x60) = none) →
     readField h.mem (a + 8) 8 = 0 → (∀ i, i < 8 → 0x10 ≤ distanceFrom (blockAt 0xC0 s) (a + 8 + BitVec.ofNat 64 i).toNat) →
     ∃ t, exec (.tap v posted) s = .next t ∧
       Ends h t { s with chain := afterCompletion a (afterTake a s.chain) }
         (completionTail s s.chain 0 .commands a false
           ++ [.write (a + 0x60) (zeros (if kind = 3 then 0x20 else 0xA0)), .write (a + 0x14) (leBytes 2 (codeNumber code)),
               takenWrite a])) ∧
  (∀ (a : Addr) (code : Code) (h : State), Quiet h → h.running = true → refusal a h = some code →
     Ends h (refusedAt a code h) { h with chain := afterCompletion a (afterTake a h.chain) }
       (completionTail h h.chain 0 .commands a false
         ++ [.write (a + 0x60) (zeros (if recordKind a h = 3 then 0x20 else 0xA0)), .write (a + 0x14) (leBytes 2 (codeNumber code)),
             takenWrite a]))

/-- A stop (R180, R22, R60, R122, R139, R161): STOPPING with the walk ended; every exposure entry is closed, every HEAD_ACCESS and ON
command in flight, every sweep and every open-set item whose open slots belong to entries is gone, ports in DETECT and QUEUED are OFF
with cause STOPPED, powered ports stay as they are, retries and pending-on are cleared; budget, reservations, sources and settings are
kept. The records of all of them complete with STOPPED, the entries of
all ports in ascending trigger number, a held SET_LENS_TABLE with OK, and the count in hand falls by one for each
progress entry written.
That STOPPING lasts beyond this step even with nothing in hand is the model's reading (log 14). -/
def Obligations.StopHandsTheCellBack : Prop :=
  ∀ (v : U32) (s : State), s.running = true → s.chain.run = true → v.getLsbD 0 = false → PowerLaw s →
    ∃ t, exec (.cellStop v) s = .next t ∧
      t.chain.cell = .stopping ∧ t.chain.run = false ∧ t.chain.walking = false ∧ t.chain.tapPending = false ∧
      t.sweeps = { front := none, queue := [] } ∧ t.trig = s.trig ∧ t.power = { s.power with queue := [] } ∧
      (∃ new, t.bus = new ++ s.bus ∧
        t.chain.inHand = s.chain.inHand
          - (new.filter fun e => match e with | .write _ bs => decide (bs.length = 8) | .message _ => false).length ∧
        (∀ (p : PortId) (a : Addr), (s.port p).power.onCommand = some a → BusEvent.write (a + 0x14) (leBytes 2 22) ∈ new) ∧
        (∀ (p : PortId) (h : HeadAccess), (.access h ∈ (s.port p).ctl.heads ∨ ∃ x ∈ (s.port p).ctl.txn, x.message = .access h) →
          BusEvent.write (h.recAt + 0x14) (leBytes 2 22) ∈ new) ∧
        (∀ e ∈ allSweeps s.sweeps, ∀ a, e.recAt = some a → BusEvent.write (a + 0x14) (leBytes 2 22) ∈ new) ∧
        (∀ (p : PortId) (h : HeldTable), h ∈ (s.port p).lens.held → BusEvent.write (h.recAt + 0x14) (leBytes 2 0) ∈ new) ∧
        ((∀ p : PortId, ((s.port p).frame.entries.map (·.trigger)).Nodup) →
          ∀ (p : PortId) (e : Entry), e ∈ (s.port p).frame.entries → (∃ rest, BusEvent.write (e.image + 0x48) (leBytes 2 22 ++ rest) ∈ new) ∧
            ∀ a, e.lensRec = some a → e.lensPairs.isSome = true →
              (e.phase = .lensWait ∨ (e.phase = .lensMoving ∧ (s.port p).lens.phase.isSome = true ∧
                ∀ x ∈ (s.port p).frame.entries, x.phase = .lensMoving → x = e)) →
              ∃ rest, BusEvent.write (a + 0x24) (leBytes 2 22 ++ rest) ∈ new) ∧
        ((∀ p : PortId, ((s.port p).frame.entries.map (·.trigger)).Nodup) →
          ∀ (p q : PortId) (e f : Entry), e ∈ (s.port p).frame.entries → f ∈ (s.port q).frame.entries → e.trigger < f.trigger →
            ∃ (after between before : List BusEvent) (x y : List Byte),
              new = after ++ .write (f.image + 0x48) (leBytes 2 22 ++ y) :: between
                ++ .write (e.image + 0x48) (leBytes 2 22 ++ x) :: before)) ∧
      ((∀ p : PortId, ((s.port p).frame.entries.map (·.trigger)).Nodup) →
        ∀ k : SetId, (s.sets[k].items.map (·.number)).Nodup →
          (∀ i ∈ s.sets[k].items, (∃ x ∈ i.slots, x.status = none) ∧
            ∀ x ∈ i.slots, x.status = none → ∃ e ∈ (s.port x.port).frame.entries, e.set = some (k, i.number)) →
          t.sets[k].items = []) ∧
      ∀ p : PortId,
        (t.port p).frame.entries = [] ∧ (t.port p).ctl.exposes = [] ∧ (t.port p).ctl.lensMsgs = [] ∧
        headAccesses (t.port p).ctl = 0 ∧ (t.port p).lens.phase = none ∧ (t.port p).lens.held = [] ∧
        (t.port p).power.onCommand = none ∧ (t.port p).power.retries = 0 ∧ (t.port p).power.pendingOn = false ∧
        (isPowered (powerOf p s) = true → powerOf p t = powerOf p s ∧ (t.port p).power.cause = (s.port p).power.cause) ∧
        ((powerOf p s = .detect ∨ powerOf p s = .queued) → powerOf p t = .off ∧ (t.port p).power.cause = .stopped) ∧
        (t.port p).link = (s.port p).link ∧ (t.port p).take = (s.port p).take ∧ (t.port p).flex = (s.port p).flex ∧
        (t.port p).sweep.settings = (s.port p).sweep.settings ∧ (t.port p).alerts = (s.port p).alerts

/-- STOPPING ends when no record is in hand (R180): STOPPED, shown by one write of the cell mirror; not before. With RUN 1 again a start
follows at once, as from STOPPED (R179, R180).
A RUN written in STOPPING, a RUN of 0 written in BLOCK_FAULT, and the RUN value already held (R177, R180): the bit is kept and
nothing else happens. The accesses that the register window ignores change nothing (R177, R197).
A row is judged by its operands (the model's choice, log 3); that an access at or beyond 0x20 is ignored is the model's choice (log 25);
that CELL_STOPPED changes nothing outside STOPPING is the model's reading (log 2 and 14).
That mirror writes come last is the model's reading (log 11). -/
def Obligations.StoppedAndQuietWrites : Prop :=
  ((∀ s : State, Quiet s → s.chain.cell = .stopping → s.chain.inHand = 0 →
     ∃ u bytes, Ends s u { s with chain := { s.chain with cell := .stopped } } [.write (blockAt 0x200 s) bytes] ∧
       bytes.length = 0x40 ∧ bytes[4]? = some 0 ∧
       (s.chain.run = false → exec .cellStopped s = .next u) ∧
       (s.chain.run = true → exec .cellStopped s = exec (.cellStart 1 []) { u with chain := { u.chain with run := false } })) ∧
   (∀ s : State, Quiet s → ¬ (s.chain.cell = .stopping ∧ s.chain.inHand = 0) → exec .cellStopped s = .next s)) ∧
  ((∀ (v : U32) (s : State), Quiet s →
     (s.chain.cell = .stopping ∨ (s.chain.cell = .blockFault ∧ v.getLsbD 0 = false) ∨ v.getLsbD 0 = s.chain.run) →
     exec (.runChangeInStoppingOrFault v) s = .next { s with chain := { s.chain with run := v.getLsbD 0 } }) ∧
   (∀ (x : RegAccess) (s : State), Quiet s →
     (x.width ≠ 32 ∨ x.offset % 4 ≠ 0 ∨ x.value = none ∨ x.offset = 0x00 ∨ x.offset = 0x08 ∨ 0x20 ≤ x.offset) →
     exec (.registerWriteIgnored x) s = .next s))

/-- Hard reset (R196): STOPPED, every register but IDENT reads 0 — with the ALERTS cause and the cell SUPPLY_LOW alert set anew where
R19 finds the supply low — cursors, progress and the count in hand at their start, no walk, the gather values 1 and 1 ms, no port
named; host memory is not touched and nothing is written.
Hard reset at the other blocks (R23, R43, R62, R83, R104, R126, R140, R162, R176): every port, source, set and sweep and the cell
budget at their values after reset, the supply-low flag and the debouncers by their inputs (R19, R66). The carrier, the class in use
and the channel levels are the model's choices (log 10, 13, 20). -/
def Obligations.HardReset : Prop :=
  (∀ (x : ResetInputs) (s : State), Quiet s →
     ∃ t, exec (.hardReset x) s = .next t ∧ t.mem = s.mem ∧ t.bus = s.bus ∧
       (let low := decide (x.supplyMv.toNat < 20000)
       readRegister 0x04 32 t = 0 ∧ readRegister 0x08 32 t = 0 ∧ readRegister 0x0C 32 t = 0 ∧ readRegister 0x10 32 t = 0 ∧
         readRegister 0x14 32 t = 0 ∧ readRegister 0x18 32 t = (if low then 4 else 0) ∧ readRegister 0x1C 32 t = 0 ∧
         readRegister 0x00 32 t = 0x5C080001#32 ∧ t.chain.cell = .stopped ∧
         t.chain.cellAlerts = (if low then 2 else 0)) ∧
       (∀ ch : ChainId, t.cursor ch = none) ∧ (∀ i : Fin 17, (t.chain.progress[i]).count = 0) ∧ t.chain.inHand = 0 ∧
       t.chain.walking = false ∧ t.chain.tapPending = false ∧ (∀ b : Byte, portNamed b t = none) ∧
       t.chain.frames = { count := 1, timeMs := 1, pending := 0, timer := none } ∧
       t.chain.commands = { count := 1, timeMs := 1, pending := 0, timer := none } ∧
       ∀ p : PortId, (t.port p).alerts = 0) ∧
  (∀ (x : ResetInputs) (s : State),
     ∃ t, exec (.hardReset x) s = .next t ∧ t.pending = s.pending ∧ t.cable = s.cable ∧
       t.power = { budget := 480, queue := [], grants := [], reserved := 0
                   supplyLow := decide (x.supplyMv.toNat < 20000), supplyMv := x.supplyMv } ∧
       (∀ p : PortId, t.port p = {}) ∧ (∀ k : SetId, t.sets[k] = {}) ∧ t.sweeps = {} ∧
       (∀ k : SourceId, t.source k = {}) ∧ t.trig.clock = 0 ∧ t.trig.axisA.position = 0 ∧ t.trig.axisB.position = 0 ∧
       t.trig.in0.state = (if x.in0 then .high else .low) ∧ t.trig.in1.state = (if x.in1 then .high else .low) ∧
       t.trig.in0.setting = 0 ∧ t.trig.in1.setting = 0)

/-! ## Command records -/

/-- The command chain is read only while RUNNING (R181, R183): in every other cell state a command row changes nothing (log 8).
A command that names a port above 7, or at or beyond the port count of the run, completes FAILED with BAD_PORT and does nothing
else (R184, check 3).
Arguments that name nothing complete the record FAILED with BAD_ARGUMENT, and nothing changes (R65, R68, R73, R75, R86, R128,
R129, R163, R189, R191, R58).
The results are zeros, or R198's value for none where a field has one (the model's reading, log 18).
A command row carries its record's address and arguments (the model's choice, log 8).
Mirror writes last, and the completion code before the results: the model's choices (log 11 and 42). -/
def Obligations.RefusedBeforeAnyEffect : Prop :=
  (∀ (i : Instr) (a : Addr) (c : Command) (s : State), commandOf i = some (a, c) → s.running = false → exec i s = .next s) ∧
  (∀ (i : Instr) (a : Addr) (c : Command) (b : Byte) (s : State), commandOf i = some (a, c) → commandPort c = some b →
     CommandReady a s → ¬ (b.toNat < 8 ∧ b.toNat < s.chain.portCount.toNat) →
     ∃ t, exec i s = .next t ∧ CommandDone a .badPort (match c with | .readFlexMap _ => zeros 0x55 ++ [0xFF] | _ => []) s t s) ∧
  (∀ (i : Instr) (a : Addr) (s : State), CommandReady a s →
     ((∃ g n ms, i = .setGather a g n ms ∧ 2 ≤ g.toNat) ∨
      (∃ x, i = .setSource a x ∧ (4 ≤ x.source.toNat ∨ 3 ≤ x.kind.toNat ∨
         (x.kind = 1 ∧ 2 ≤ x.which.toNat) ∨
         (x.kind = 2 ∧ (x.which = 0 ∨ 3 ≤ x.which.toNat ∨ 2 ≤ x.direction.toNat ∨ x.pitch = 0 ∨ 16777215 < x.pitch.toNat)) ∨
         (∃ p : PortId, x.mask.getLsbD p.val = true ∧ s.chain.portCount.toNat ≤ p.val))) ∨
      (∃ (p : PortId) (n : Byte) (bits : U16), i = .setPattern a (BitVec.ofNat 8 p.val) n bits ∧
         p.val < s.chain.portCount.toNat ∧ (n = 0 ∨ 16 < n.toNat)) ∨
      (∃ k : Byte, i = .softTrigger a k ∧ 4 ≤ k.toNat) ∨
      (∃ k : SourceId, i = .softTrigger a (BitVec.ofNat 8 k.val) ∧ (s.source k).number = 0xFFFFFFFF) ∨
      (∃ ax v, i = .setAxisPosition a ax v ∧ ax ≠ 1 ∧ ax ≠ 2) ∨
      (∃ (p : PortId) (x : TableArgs), i = .setLensTable a (BitVec.ofNat 8 p.val) x ∧ p.val < s.chain.portCount.toNat ∧
         (x.unit = 0 ∨ 5 ≤ x.unit.toNat ∨ x.count = 1 ∨ 10 ≤ x.count.toNat)) ∨
      (∃ k m, i = .formSet a k m ∧ 4 ≤ k.toNat) ∨
      (∃ k, i = .dissolveSet a k ∧ 4 ≤ k.toNat) ∨
      (∃ (p : PortId) (ax : Byte) (th : U16) (lo hi : U32), i = .setFlexAxis a (BitVec.ofNat 8 p.val) ax th lo hi ∧
         p.val < s.chain.portCount.toNat ∧ (3 ≤ ax.toNat ∨ (ax ≠ 0 ∧ hi.toInt ≤ lo.toInt))) ∨
      (∃ (p : PortId) (x : HeadArgs), i = .headAccess a (BitVec.ofNat 8 p.val) x ∧ p.val < s.chain.portCount.toNat ∧
         (5 ≤ x.unit.toNat ∨ 2 ≤ x.direction.toNat ∨ x.count = 0 ∨ 9 ≤ x.count.toNat)) ∨
      (∃ m cf pf, i = .clearAlerts a m cf pf ∧ ∃ p : PortId, m.getLsbD p.val = true ∧ s.chain.portCount.toNat ≤ p.val)) →
     ∃ t, exec i s = .next t ∧ CommandDone a .badArgument (match i with | .dissolveSet _ _ => [0, 0, 0xFF] | _ => []) s t s)

/-- PORT_POWER ON accepted (R3): the record stays TAKEN as the ON command in flight and retries remaining is loaded; a port in OFF
that is not under test enters DETECT with its class taken into use; in OFF under test and in TRIPPED pending-on is set; in DETECT,
QUEUED and INRUSH the command joins the attempt.
PORT_POWER ON completed at once (R3): FAILED with SUPPLY_LOW under a low supply whatever the state, DONE in ON and FOLDBACK, and
FAILED with IN_PROGRESS beside an ON command in flight, which stays as it was.
Mirror writes last, and the completion code before the results: the model's choices (log 11 and 42). -/
def Obligations.PowerOn : Prop :=
  (∀ (a : Addr) (p : PortId) (s : State), CommandReady a s → p.val < s.chain.portCount.toNat → s.power.supplyLow = false →
     (s.port p).power.onCommand = none → powerOf p s ≠ .on → powerOf p s ≠ .foldback →
     let w := (s.port p).power
     let y : PortPower := { w with onCommand := some a, retries := w.retryCount }
     let new : PortPower := match w.state with
       | .off => if (s.port p).sweep.state = .none then { y with state := .detect, clsInUse := w.cls, detectTimer := some 8 }
         else { y with pendingOn := true }
       | .tripped => { y with pendingOn := true }
       | _ => y
     ∃ t, exec (.portPowerOn a (BitVec.ofNat 8 p.val)) s = .next t ∧
       Ends s t { modPower p (fun _ => new) s with chain := afterTake a s.chain } [takenWrite a]) ∧
  (∀ (a : Addr) (p : PortId) (s : State), CommandReady a s → p.val < s.chain.portCount.toNat →
     let w := (s.port p).power
     (s.power.supplyLow = true →
       ∃ t, exec (.portPowerOn a (BitVec.ofNat 8 p.val)) s = .next t ∧ CommandDone a .supplyLow [] s t s) ∧
     (s.power.supplyLow = false → (w.state = .on ∨ w.state = .foldback) →
       ∃ t, exec (.portPowerOn a (BitVec.ofNat 8 p.val)) s = .next t ∧ CommandDone a .ok [] s t s) ∧
     (s.power.supplyLow = false → w.state ≠ .on → w.state ≠ .foldback → w.onCommand.isSome = true →
       ∃ t, exec (.portPowerOn a (BitVec.ofNat 8 p.val)) s = .next t ∧ CommandDone a .inProgress [] s t s))

/-- PORT_POWER OFF with no ON command in flight (R14): always DONE; OFF and TRIPPED lose retries and pending-on alone; DETECT is
abandoned for OFF with cause HOST_OFF; a QUEUED port leaves the budget queue, a powered port with nothing else in hand is unpowered,
both are OFF, and the queue is examined.
PORT_POWER OFF beside an ON command in flight, in OFF, DETECT, QUEUED and TRIPPED (R4, R14): the ON command completes FAILED with
CANCELLED and the OFF completes DONE; that the ON's completion comes first is the model's choice (log 32).
Whatever a powered port has in hand, PORT_POWER OFF takes all of it, and the OFF command is the last to complete (R4, R14, R15;
log 32).
That a granted port has no current read yet is the model's choice (log 12).
Mirror writes last, and the completion code before the results: the model's choices (log 11 and 42). -/
def Obligations.PowerOff : Prop :=
  (∀ (a : Addr) (p : PortId) (s : State), CommandReady a s → p.val < s.chain.portCount.toNat → IdlePort p s →
     (s.port p).power.onCommand = none →
     let w := (s.port p).power
     let off : PortPower := { w with
       state := .off, cause := .hostOff, retries := 0, pendingOn := false, detectTimer := none, inrushTimer := none
       foldbackTimer := none }
     let u := match w.state with
       | .off | .tripped => modPower p (fun w => { w with retries := 0, pendingOn := false }) s
       | .detect => modPower p (fun _ => off) s
       | .queued => examined { modPower p (fun _ => off) s with power := { s.power with queue := s.power.queue.erase p } }
       | .inrush | .on | .foldback => examined (modPower p (fun _ => off) (unpowered p s))
     ∃ t, exec (.portPowerOff a (BitVec.ofNat 8 p.val)) s = .next t ∧ CommandDone a .ok [] s t u) ∧
  (∀ (a b : Addr) (p : PortId) (s : State), CommandReady a s → recordKind b s = 1 → apartFrom b a s →
     p.val < s.chain.portCount.toNat → (s.port p).power.onCommand = some b → isPowered (powerOf p s) = false →
     let w := (s.port p).power
     let kept : PortPower := { w with onCommand := none, retries := 0, pendingOn := false }
     let off : PortPower :=
       { kept with state := .off, cause := .hostOff, detectTimer := none, inrushTimer := none, foldbackTimer := none }
     let u := match w.state with
       | .detect => modPower p (fun _ => off) s
       | .queued => examined { modPower p (fun _ => off) s with power := { s.power with queue := s.power.queue.erase p } }
       | _ => modPower p (fun _ => kept) s
     let c1 := afterTake a s.chain
     ∃ t, exec (.portPowerOff a (BitVec.ofNat 8 p.val)) s = .next t ∧
       Ends s t { u with chain := afterCompletion a (afterCompletion b c1) }
         (completionWrites s (afterCompletion b c1) a .ok [] ++ completionWrites s c1 b .cancelled [] ++ [takenWrite a])) ∧
  (∀ (a : Addr) (p : PortId) (s : State), CommandReady a s → p.val < s.chain.portCount.toNat → PowerLaw s →
     isPowered (powerOf p s) = true →
     ∃ t, exec (.portPowerOff a (BitVec.ofNat 8 p.val)) s = .next t ∧ powerOf p t = .off ∧ (t.port p).power.cause = .hostOff ∧
       (t.port p).power.onCommand = none ∧ (t.port p).power.retries = 0 ∧ (t.port p).power.pendingOn = false ∧
       p ∉ t.power.grants ∧ (t.port p).frame.entries = [] ∧ (t.port p).link.state = .down ∧
       (t.port p).link.drops = (s.port p).link.drops ∧ (t.port p).ctl.state = .suspended ∧ (t.port p).ctl.txn = none ∧
       (t.port p).ctl.ready = false ∧ (t.port p).ctl.identity = none ∧ (∀ u : UnitId, (t.port p).lens.known[u] = none) ∧
       (t.port p).flex = (s.port p).flex ∧ (t.port p).alerts = (s.port p).alerts ∧ (t.chain.progress[(0 : Fin 17)]).last = a)

/-- SET_BUDGET at or above the reserved sum (R16): the budget clamped to 1920 dW is applied and written back with an empty shed mask;
nothing is shed, and the queue is examined, so that the waiting head may be granted.
SET_BUDGET below the reserved sum (R16, R17): ports are shed from the newest end of the grant-order list until the rest fits, no
further, and each of them is OFF with cause SHED and its SHED alert set; the ports granted before keep their power; after the last is
shed the head of the queue is granted if no port is in INRUSH and it fits. With nothing else of the ports in hand, the mask of the
ports shed is written back.
That a granted port has no current read yet is the model's choice (log 12).
Mirror writes last, and the completion code before the results: the model's choices (log 11 and 42). -/
def Obligations.SetBudget : Prop :=
  (∀ (a : Addr) (budget : U32) (s : State), CommandReady a s → s.power.reserved ≤ min budget.toNat 1920 →
     ∃ t, exec (.setBudget a budget) s = .next t ∧
       CommandDone a .ok (leBytes 4 (min budget.toNat 1920) ++ u8 0) s t
         (examined { s with power := { s.power with budget := min budget.toNat 1920 } })) ∧
  (∀ (a : Addr) (budget : U32) (s : State), CommandReady a s → PowerLaw s →
     let n := min budget.toNat 1920
     n < s.power.reserved →
     ∃ t k, exec (.setBudget a budget) s = .next t ∧
       (let kept := s.power.grants.take k
        let shed := s.power.grants.drop k
        let sum := (kept.map (heldBy s)).sum
        k < s.power.grants.length ∧ sum ≤ n ∧ n < ((s.power.grants.take (k + 1)).map (heldBy s)).sum ∧ t.power.budget = n ∧
        (match s.power.queue with
          | [] => t.power.queue = [] ∧ t.power.grants = kept ∧ t.power.reserved = sum
          | q :: rest =>
            if (∀ p ∈ kept, powerOf p s ≠ .inrush) ∧ sum + heldBy s q ≤ n then
              t.power.queue = rest ∧ t.power.grants = kept ++ [q] ∧ t.power.reserved = sum + heldBy s q ∧ powerOf q t = .inrush
            else t.power.queue = q :: rest ∧ t.power.grants = kept ∧ t.power.reserved = sum ∧ powerOf q t = .queued) ∧
        (∀ p ∈ shed, powerOf p t = .off ∧ (t.port p).power.cause = .shed ∧ (t.port p).power.retries = 0 ∧
          (t.port p).power.pendingOn = false ∧ (t.port p).alerts.getLsbD 1 = true ∧ (t.port p).link.state = .down ∧
          (t.port p).frame.entries = [] ∧ (t.port p).ctl.ready = false) ∧
        (∀ p ∈ kept, (t.port p).power = (s.port p).power ∧ (t.port p).link = (s.port p).link) ∧
        ((∀ p ∈ shed, IdlePort p s ∧ (s.port p).power.onCommand = none) →
          ∃ (new : List BusEvent) (mask : Byte), t.bus = new ++ s.bus ∧ (∀ p : PortId, mask.getLsbD p.val = decide (p ∈ shed)) ∧
            .write (a + 0x60) (leBytes 4 n ++ [mask] ++ zeros 0x9B) ∈ new)))

/-- CONFIGURE_PORT on an inactive port (R1, R88, R107, R145, R194) with sound values for the named groups: the groups named are applied
with their clamps, the others keep their values, and the settings in force of all four are written back.
CONFIGURE_PORT on a port that is not OFF or TRIPPED, or is under test (R194, step 1): FAILED with PORT_ACTIVE and filled with the
settings in force; nothing is applied.
On an inactive port a group named with a value out of its range (R1, R88, R107, R201; R194, step 2): FAILED with BAD_ARGUMENT; no
setting of any group is applied, and the settings in force are written back.
Mirror writes last, and the completion code before the results: the model's choices (log 11 and 42). -/
def Obligations.ConfigurePort : Prop :=
  (∀ (a : Addr) (p : PortId) (x : ConfigArgs) (cls : PowerClass) (policy : Underrun) (erasure : Erasure)
     (pairs : List (UnitId × Int)) (s : State),
     CommandReady a s → p.val < s.chain.portCount.toNat → (powerOf p s = .off ∨ powerOf p s = .tripped) →
     (s.port p).sweep.state = .none → (s.port p).lens.fallback.length ≤ 4 →
     (x.groups.getLsbD 0 = true → x.cls.toNat = powerClassNumber cls ∧ x.autoSweep.toNat ≤ 1) →
     (x.groups.getLsbD 1 = true → x.lensMode.toNat ≤ 1 ∧ x.policy.toNat = underrunNumber policy ∧ x.lateAction.toNat ≤ 1 ∧
       x.fallbackCount.toNat = pairs.length ∧ pairs.length ≤ 4 ∧ (pairs.map (·.1)).Nodup ∧
       x.fallback.toList.take pairs.length =
         pairs.map (fun q => (BitVec.ofNat 8 (q.1.val + 1), BitVec.ofInt 16 q.2)) ∧
       ∀ q ∈ pairs, -32768 ≤ q.2 ∧ q.2 ≤ 32767) →
     (x.groups.getLsbD 2 = true → x.erasure.toNat = erasureNumber erasure) →
     let q := s.port p
     let w : PortPower := if x.groups.getLsbD 0 then { q.power with
         cls := cls, retryCount := min x.retryCount.toNat 7, cooldownS := max 1 (min 60 x.cooldown.toNat)
         autoSweep := decide (x.autoSweep = 1) } else q.power
     let l : LensState := if x.groups.getLsbD 1 then { q.lens with
         chain := decide (x.lensMode = 1), policy := policy, fallback := pairs
         deadlineMs := max 1 (min 2000 x.deadline.toNat), lateAction := if x.lateAction = 1 then .drop else .expose } else q.lens
     let r : FrameRx := if x.groups.getLsbD 2 then { q.frame with
         limitMs := max 1 (min 10000 x.timeLimit.toNat), erasure := erasure, fillValue := x.fillValue } else q.frame
     let v : PortSweep := if x.groups.getLsbD 3 then { q.sweep with settings := {
         length := if x.cableLength = 0 then 0 else max 1000 (min 100000 x.cableLength.toNat)
         tolerance := min x.tolerance.toNat 5000, vf := max 500 (min 990 x.vf.toNat)
         offset := min x.offset.toNat 2047, minor := max 20 (min 500 x.minor.toNat) } } else q.sweep
     let new : Port := { q with power := w, lens := l, frame := r, sweep := v }
     ∃ t, exec (.configurePort a (BitVec.ofNat 8 p.val) x) s = .next t ∧
       CommandDone a .ok (settingsBytes new) s t (modPort p (fun _ => new) s)) ∧
  (∀ (a : Addr) (p : PortId) (x : ConfigArgs) (s : State), CommandReady a s → p.val < s.chain.portCount.toNat →
     ((powerOf p s ≠ .off ∧ powerOf p s ≠ .tripped) ∨ (s.port p).sweep.state ≠ .none) →
     (s.port p).lens.fallback.length ≤ 4 →
     ∃ t, exec (.configurePort a (BitVec.ofNat 8 p.val) x) s = .next t ∧
       CommandDone a .portActive (settingsBytes (s.port p)) s t s) ∧
  (∀ (a : Addr) (p : PortId) (x : ConfigArgs) (s : State), CommandReady a s → p.val < s.chain.portCount.toNat →
     (powerOf p s = .off ∨ powerOf p s = .tripped) → (s.port p).sweep.state = .none → (s.port p).lens.fallback.length ≤ 4 →
     ((x.groups.getLsbD 0 = true ∧ (4 ≤ x.cls.toNat ∨ 2 ≤ x.autoSweep.toNat)) ∨
      (x.groups.getLsbD 1 = true ∧ (2 ≤ x.lensMode.toNat ∨ 3 ≤ x.policy.toNat ∨ 2 ≤ x.lateAction.toNat ∨ 5 ≤ x.fallbackCount.toNat ∨
        (∃ i : Fin 4, i.val < x.fallbackCount.toNat ∧ (x.fallback[i].1 = 0 ∨ 5 ≤ x.fallback[i].1.toNat)) ∨
        ∃ i j : Fin 4, i < j ∧ j.val < x.fallbackCount.toNat ∧ x.fallback[i].1 = x.fallback[j].1)) ∨
      (x.groups.getLsbD 2 = true ∧ 3 ≤ x.erasure.toNat)) →
     ∃ t, exec (.configurePort a (BitVec.ofNat 8 p.val) x) s = .next t ∧
       CommandDone a .badArgument (settingsBytes (s.port p)) s t s)

/-- RESET_PORT with nothing of the port in hand (R42, R61, R82, R103, R195): the link of a powered port hunts again and its channel is
SUSPENDED with READY clear, every known code is UNKNOWN, and the pattern position is 0, for every member if the port is in a set.
Whatever the port has in hand, the reset takes all of it, and RESET_PORT is the last to complete (R195); power, sweep, flex map and
alerts are kept.
Mirror writes last, and the completion code before the results: the model's choices (log 11 and 42). -/
def Obligations.ResetPort : Prop :=
  (∀ (a : Addr) (p : PortId) (s : State), CommandReady a s → p.val < s.chain.portCount.toNat → IdlePort p s →
     let q := s.port p
     let live := decide (q.power.state = .on) || decide (q.power.state = .foldback)
     let l : LinkRx := if live && decide (q.link.state ≠ .down) then
         { q.link with state := .hunt, confirm := 0, misses := 0, boundary := .none, burst := none } else q.link
     let c : Channel := if live then { q.ctl with
         state := .suspended, replyTimer := none, holdTimer := none, noteTimer := none, exposes := [], lensMsgs := []
         ready := false, retryTimer := none } else q.ctl
     let new : Port := { q with link := l, ctl := c, lens := { q.lens with known := .replicate 4 none } }
     let members := match s.setOf p with
       | some k => allPorts.filter fun (m : PortId) => s.sets[k].mask.getLsbD m.val
       | none => [p]
     ∃ t, exec (.resetPort a (BitVec.ofNat 8 p.val)) s = .next t ∧
       CommandDone a .ok [] s t
         (members.foldl (fun u m => modTake m (fun x => { x with position := 0 }) u) (modPort p (fun _ => new) s))) ∧
  (∀ (a : Addr) (p : PortId) (s : State), CommandReady a s → p.val < s.chain.portCount.toNat →
     ∃ t, exec (.resetPort a (BitVec.ofNat 8 p.val)) s = .next t ∧ (t.port p).frame.entries = [] ∧
       (∀ u : UnitId, (t.port p).lens.known[u] = none) ∧ (t.port p).lens.phase = none ∧ (t.port p).lens.held = [] ∧
       (t.port p).take.position = 0 ∧
       ((powerOf p s = .on ∨ powerOf p s = .foldback) → (t.port p).ctl.exposes = [] ∧ (t.port p).ctl.lensMsgs = [] ∧
         headAccesses (t.port p).ctl = 0 ∧ (t.port p).ctl.ready = false) ∧
       (t.port p).power = (s.port p).power ∧ (t.port p).sweep = (s.port p).sweep ∧
       (t.port p).flex = (s.port p).flex ∧ (t.port p).alerts = (s.port p).alerts ∧
       (t.chain.progress[(0 : Fin 17)]).last = a)

/-- CLEAR_ALERTS (R191): the flags named are cleared on the ports named and on the cell, the ALERTS cause bit stays, and the flags of
the cell and of every port as they then stand are written back.
Mirror writes last, and the completion code before the results: the model's choices (log 11 and 42). -/
def Obligations.ClearAlerts : Prop :=
  ∀ (a : Addr) (ports cellFlags : Byte) (portFlags : U16) (s : State), CommandReady a s →
    (∀ p : PortId, ports.getLsbD p.val = true → p.val < s.chain.portCount.toNat) →
    let after (p : PortId) : BitVec 11 :=
      if ports.getLsbD p.val then (s.port p).alerts &&& ~~~ (portFlags.setWidth 11) else (s.port p).alerts
    let cell := s.chain.cellAlerts &&& ~~~ (cellFlags.setWidth 2)
    ∃ t, exec (.clearAlerts a ports cellFlags portFlags) s = .next t ∧
      CommandDone a .ok (u16 (cell.setWidth 16) ++ (allPorts.map fun p => u16 ((after p).setWidth 16)).flatten) s t
        { s with
          chain := { s.chain with cellAlerts := cell }
          ports := Vector.ofFn fun p => { s.port p with alerts := after p } }

/-- R189: SET_GATHER for FRAMES or COMMANDS: a pending count above 0 first sets the group's cause bit, with its message; then the
pending count is 0, the timer stopped and the clamped values are in force; they are written back, and the record's own completion
counts toward COMMANDS under the values then in force. Any other group is refused with BAD_ARGUMENT.
Mirror writes last, and the completion code before the results: the model's choices (log 11 and 42). -/
def Obligations.SetGather : Prop :=
  ∀ (a : Addr) (group count : Byte) (time : U16) (s : State), CommandReady a s →
    (2 ≤ group.toNat → ∃ t, exec (.setGather a group count time) s = .next t ∧ CommandDone a .badArgument [] s t s) ∧
    ∀ g : GatherGroup, group = (match g with | .frames => 0 | .commands => 1) →
      let n := if count = 0 then 1 else if 64 < count.toNat then 64 else count.toNat
      let ms := if time = 0 then 1 else if 100 < time.toNat then 100 else time.toNat
      let bit := match g with | .frames => 0 | .commands => 1
      let fires := decide (0 < (gatherOf g s.chain).pending) && !s.chain.cause.getLsbD bit
      let c : ChainEngine := { setGatherOf g { count := n, timeMs := ms, pending := 0, timer := none } s.chain with
        cause := if fires then s.chain.cause ||| BitVec.twoPow 3 bit else s.chain.cause }
      let first : List BusEvent := if fires && s.chain.enable.getLsbD bit then [.message (gatherGroup g)] else []
      ∃ t, exec (.setGather a group count time) s = .next t ∧
        Ends s t { s with chain := afterCompletion a (afterTake a c) }
          (completionWrites s c a .ok (u8 n ++ u8 0 ++ leBytes 2 ms) ++ first ++ [takenWrite a])

/-- HEAD_ACCESS with sound arguments (R58): LINK_DOWN without READY, PORT_BUSY with four accepted already; otherwise the record stays
TAKEN, and with the channel busy it waits at the tail of the HEAD class.
Mirror writes last, and the completion code before the results: the model's choices (log 11 and 42). -/
def Obligations.HeadAccessQueued : Prop :=
  ∀ (a : Addr) (p : PortId) (x : HeadArgs) (s : State), CommandReady a s → p.val < s.chain.portCount.toNat →
    x.unit.toNat ≤ 4 → x.direction.toNat ≤ 1 → 1 ≤ x.count.toNat → x.count.toNat ≤ 8 →
    let c := (s.port p).ctl
    let part : UnitPart := { unit := x.unit.toNat, write := decide (x.direction = 0), address := x.address
                             words := if x.direction = 0 then x.words.toList.take x.count.toNat else [], count := x.count.toNat }
    (c.ready = false → ∃ t, exec (.headAccess a (BitVec.ofNat 8 p.val) x) s = .next t ∧ CommandDone a .linkDown [] s t s) ∧
    (c.ready = true → 4 ≤ headAccesses c →
      ∃ t, exec (.headAccess a (BitVec.ofNat 8 p.val) x) s = .next t ∧ CommandDone a .portBusy [] s t s) ∧
    (c.ready = true → headAccesses c < 4 → c.state ≠ .idle →
      ∃ t, exec (.headAccess a (BitVec.ofNat 8 p.val) x) s = .next t ∧
        Ends s t { modCtl p (fun c => { c with heads := c.heads ++ [.access { recAt := a, part := part }] }) s with
          chain := afterTake a s.chain } [takenWrite a]) ∧
    (c.ready = true → c.state = .idle → c.exposes = [] → c.lensMsgs = [] → c.heads = [] → c.txn = none →
      ∃ t, exec (.headAccess a (BitVec.ofNat 8 p.val) x) s = .next t ∧
        Ends s t { modCtl p (fun c => { c with
              state := .sending, replyTimer := some 2
              txn := some { message := .access { recAt := a, part := part }, part := 0, stage := .header, acked := 0, data := [] } }) s with
            chain := afterTake a s.chain
            cable := ⟨p, .header part.unit part.write part.address⟩ :: ⟨p, .startMark⟩ :: s.cable } [takenWrite a])

/-- SET_SOURCE with sound arguments that leaves the members of formed sets where they are (R67, R68, R69): the new mask is taken from every other source, the trigger
number is raised to the highest last trigger number of the ports received, the fires-made count is 0, and the source is ACTIVE as its
kind and number allow, a PITCH source armed from its axis. An INPUT source sets the debounce of its input.
SET_SOURCE that would move a member of a formed set out of its source's mask, or into this mask from another source, is refused
with SET_CONFLICT, whatever its kind (R68, check 2; log 31).
That a kind other than PITCH leaves direction and pitch unread is the model's choice (log 44).
Mirror writes last, and the completion code before the results: the model's choices (log 11 and 42). -/
def Obligations.SetSource : Prop :=
  (∀ (a : Addr) (k : SourceId) (kind : SourceKind) (x : SourceArgs) (s : State), CommandReady a s → MaskLaw s →
     (∀ (j : SetId) (p : PortId), s.sets[j].formed = true → s.sets[j].mask.getLsbD p.val = true →
       x.mask.getLsbD p.val = (s.source k).mask.getLsbD p.val) →
     (∀ p : PortId, x.mask.getLsbD p.val = true → p.val < s.chain.portCount.toNat) →
     x.source = BitVec.ofNat 8 k.val →
     (match kind with
       | .none => x.kind = 0
       | .input i => x.kind = 1 ∧ x.which = (match i with | .in0 => 0 | .in1 => 1)
       | .pitch g => x.kind = 2 ∧ x.which = (match g.axis with | .a => 1 | .b => 2) ∧
           x.direction = (match g.direction with | .forward => 0 | .reverse => 1) ∧ x.origin = g.origin ∧
           x.pitch.toNat = g.pitch ∧ 1 ≤ g.pitch ∧ g.pitch ≤ 16777215 ∧ x.limit = g.limit) →
     let old := s.source k
     let received := allPorts.filter fun p => x.mask.getLsbD p.val && !old.mask.getLsbD p.val
     let number : U32 := BitVec.ofNat 32 (received.foldl (fun n p => max n (s.port p).take.lastTrigger.toNat) old.number.toNat)
     let bare : Source := { kind := kind, active := false, next := none, mask := x.mask, number := number, made := 0 }
     let new : Source := match kind with
       | .none => bare
       | .input _ => { bare with active := decide (number ≠ 0xFFFFFFFF) }
       | .pitch g => armPitch g (axisState g.axis s.trig).position bare
     let us := min x.debounce.toNat 1000
     let trig : TriggerCell := { s.trig with
       sources := Vector.ofFn fun j => if j = k then new else { s.source j with mask := (s.source j).mask &&& ~~~ x.mask }
       in0 := if kind = .input .in0 then { s.trig.in0 with setting := us } else s.trig.in0
       in1 := if kind = .input .in1 then { s.trig.in1 with setting := us } else s.trig.in1 }
     ∃ t, exec (.setSource a x) s = .next t ∧
       CommandDone a .ok (u32 number ++ flag new.active ++ u8 0
           ++ leBytes 2 (match kind with | .input _ => us | _ => 0) ++ u32 (new.next.getD 0)) s t { s with trig := trig }) ∧
  (∀ (a : Addr) (k j : SourceId) (m : SetId) (p : PortId) (x : SourceArgs) (s : State), CommandReady a s → MaskLaw s →
     (∀ q : PortId, x.mask.getLsbD q.val = true → q.val < s.chain.portCount.toNat) →
     x.source = BitVec.ofNat 8 k.val →
     (x.kind = 0 ∨ (x.kind = 1 ∧ x.which.toNat ≤ 1) ∨
       (x.kind = 2 ∧ (x.which = 1 ∨ x.which = 2) ∧ x.direction.toNat ≤ 1 ∧ x.pitch ≠ 0 ∧ x.pitch.toNat ≤ 16777215)) → s.sets[m].formed = true → s.sets[m].mask.getLsbD p.val = true →
     (s.source j).mask.getLsbD p.val = true →
     ((j = k ∧ x.mask.getLsbD p.val = false) ∨ (j ≠ k ∧ x.mask.getLsbD p.val = true)) →
     ∃ t, exec (.setSource a x) s = .next t ∧ CommandDone a .setConflict [] s t s)

/-- The point at which a PITCH source is armed (R70): for FORWARD the smallest point of the grid o + k·q above the position, for
REVERSE the largest point o - k·q below it.
Arming (R67, R70): ACTIVE with the grid point where it lies in the 32-bit range, and IDLE with none otherwise, at the last trigger
number, or with the fires limit reached. -/
def Obligations.PitchArming : Prop :=
  (∀ (o p : Int) (q : Nat), 1 ≤ q →
     (∃ k : Nat, nextGridPoint .forward o p q = o + k * q) ∧ p < nextGridPoint .forward o p q ∧
     (∀ k : Nat, p < o + k * q → nextGridPoint .forward o p q ≤ o + k * q) ∧
     (∃ k : Nat, nextGridPoint .reverse o p q = o - k * q) ∧ nextGridPoint .reverse o p q < p ∧
     (∀ k : Nat, o - k * q < p → o - k * q ≤ nextGridPoint .reverse o p q)) ∧
  (∀ (g : PitchProgramme) (pos : U32) (x : Source),
     let n := nextGridPoint g.direction g.origin.toInt pos.toInt g.pitch
     let idle := x.number = 0xFFFFFFFF ∨ (g.limit ≠ 0 ∧ g.limit.toNat ≤ x.made.toNat) ∨ n < -2147483648 ∨ 2147483647 < n
     (idle → armPitch g pos x = { x with active := false, next := none }) ∧
     (¬ idle → ∃ m : U32, m.toInt = n ∧ armPitch g pos x = { x with active := true, next := some m }))

/-- R75, the command: a length of 1 to 16 and its bits are taken with the position at 0, by the port or by every member of its set;
bits beyond the length are ignored; any other length is refused with BAD_ARGUMENT.
Mirror writes last, and the completion code before the results: the model's choices (log 11 and 42). -/
def Obligations.SetPattern : Prop :=
  ∀ (a : Addr) (p : PortId) (length : Byte) (bits : U16) (s : State), CommandReady a s → p.val < s.chain.portCount.toNat →
    ((length = 0 ∨ 16 < length.toNat) →
      ∃ t, exec (.setPattern a (BitVec.ofNat 8 p.val) length bits) s = .next t ∧ CommandDone a .badArgument [] s t s) ∧
    (length ≠ 0 → length.toNat ≤ 16 →
      let members := match s.setOf p with
        | some k => allPorts.filter fun (m : PortId) => s.sets[k].mask.getLsbD m.val
        | none => [p]
      ∃ (t : State) (kept : U16), (∀ i, kept.getLsbD i = (bits.getLsbD i && decide (i < length.toNat))) ∧
        exec (.setPattern a (BitVec.ofNat 8 p.val) length bits) s = .next t ∧
        CommandDone a .ok [] s t { s with
          ports := Vector.ofFn fun q => if q ∈ members then
              { s.port q with take := { (s.port q).take with length := length.toNat, bits := kept, position := 0 } }
            else s.port q })

/-- R65: SET_AXIS_POSITION of an axis that is neither A nor B is refused with BAD_ARGUMENT; otherwise the counter is loaded and written
back, and every ACTIVE PITCH source on the axis is armed again from the new position; no point fires, an IDLE source stays IDLE, and no
other source changes.
Mirror writes last, and the completion code before the results: the model's choices (log 11 and 42). -/
def Obligations.SetAxisPosition : Prop :=
  (∀ (a : Addr) (ax : Byte) (v : U32) (s : State), CommandReady a s → ax ≠ 1 → ax ≠ 2 →
    ∃ t, exec (.setAxisPosition a ax v) s = .next t ∧ CommandDone a .badArgument [] s t s) ∧
  ∀ (a : Addr) (ax : Axis) (v : U32) (s : State), CommandReady a s →
    let srcs : Vector Source 4 := s.trig.sources.map fun x => match x.kind with
      | .pitch g => if g.axis = ax ∧ x.active = true then armPitch g v x else x
      | _ => x
    let trig : TriggerCell := match ax with
      | .a => { s.trig with sources := srcs, axisA := { s.trig.axisA with position := v } }
      | .b => { s.trig with sources := srcs, axisB := { s.trig.axisB with position := v } }
    ∃ t, exec (.setAxisPosition a (match ax with | .a => 1 | .b => 2) v) s = .next t ∧
      CommandDone a .ok (u32 v) s t { s with trig := trig }

/-- SET_LENS_TABLE (R86): sound points replace the unit's table at once, no points remove it, and while a phase is in LENS_MOVING the
record stays TAKEN with the table held; points that do not ascend or a code above 4095 are refused with BAD_ARGUMENT.
Mirror writes last, and the completion code before the results: the model's choices (log 11 and 42). -/
def Obligations.SetLensTable : Prop :=
  ∀ (a : Addr) (p : PortId) (u : UnitId) (x : TableArgs) (s : State), CommandReady a s → p.val < s.chain.portCount.toNat →
    x.unit = BitVec.ofNat 8 (u.val + 1) → x.count ≠ 1 → x.count.toNat ≤ 9 →
    let points := (x.points.toList.take x.count.toNat).map fun q => (q.1.toInt, q.2.toNat)
    let sound := (points.map (·.1)).Pairwise (· < ·) ∧ ∀ q ∈ points, q.2 ≤ 4095
    (¬ sound → ∃ t, exec (.setLensTable a (BitVec.ofNat 8 p.val) x) s = .next t ∧ CommandDone a .badArgument [] s t s) ∧
    (sound → (s.port p).lens.phase = none →
      ∃ t, exec (.setLensTable a (BitVec.ofNat 8 p.val) x) s = .next t ∧
        CommandDone a .ok [] s t (modLens p (fun l => { l with tables := l.tables.set u points }) s)) ∧
    (sound → (s.port p).lens.phase.isSome = true →
      ∃ t, exec (.setLensTable a (BitVec.ofNat 8 p.val) x) s = .next t ∧
        Ends s t { modLens p (fun l => { l with held := l.held ++ [{ recAt := a, unit := u, points := points }] }) s with
          chain := afterTake a s.chain } [takenWrite a])

/-- R128: FORM_SET checks in order and, when every check passes, forms the set with the first member's pattern copied, every position 0
and the set's numbers at their start.
DISSOLVE_SET (R129): DONE with a formed flag of 0 for a set that is not formed; PORT_BUSY with an open item; otherwise the formed
flag and the mask go, and the set number, the SET_SKIP count and the last skip reason are written back and stand.
The result bytes of a set that is not formed and of a refused command are the model's choice (log 18).
Mirror writes last, and the completion code before the results: the model's choices (log 11 and 42). -/
def Obligations.FormAndDissolveSet : Prop :=
  ((∀ (a : Addr) (k members : Byte) (s : State), CommandReady a s →
     let ms := allPorts.filter fun p => members.getLsbD p.val
     (4 ≤ k.toNat ∨ ms.length < 2 ∨ 4 < ms.length ∨ ∃ p ∈ ms, s.chain.portCount.toNat ≤ p.val) →
     ∃ t, exec (.formSet a k members) s = .next t ∧ CommandDone a .badArgument [] s t s) ∧
   ∀ (a : Addr) (k : SetId) (members : Byte) (first : PortId) (s : State), CommandReady a s →
     let ms := allPorts.filter fun p => members.getLsbD p.val
     ms.head? = some first → 2 ≤ ms.length → ms.length ≤ 4 → (∀ p ∈ ms, p.val < s.chain.portCount.toNat) →
     let taken := s.sets[k].formed = true ∨ ∃ p ∈ ms, ∃ j : SetId, s.sets[j].formed = true ∧ s.sets[j].mask.getLsbD p.val = true
     let mixed := ¬ ∃ j : SourceId, ∀ p ∈ ms, (s.source j).mask.getLsbD p.val = true
     let busy := ∃ p ∈ ms, (s.port p).frame.entries ≠ []
     let lead := (s.port first).take
     let i : Instr := .formSet a (BitVec.ofNat 8 k.val) members
     (taken → ∃ t, exec i s = .next t ∧ CommandDone a .setConflict [] s t s) ∧
     (¬ taken → mixed → ∃ t, exec i s = .next t ∧ CommandDone a .mixedSource [] s t s) ∧
     (¬ taken → ¬ mixed → busy → ∃ t, exec i s = .next t ∧ CommandDone a .portBusy [] s t s) ∧
     (¬ taken → ¬ mixed → ¬ busy →
       ∃ t, exec i s = .next t ∧
         CommandDone a .ok (u32 0 ++ [members] ++ u8 lead.length ++ u16 lead.bits) s t { s with
           sets := s.sets.set k { s.sets[k] with formed := true, mask := members, number := 0, skips := 0, reason := none }
           ports := Vector.ofFn fun p => if p ∈ ms then
               { s.port p with take := { (s.port p).take with length := lead.length, bits := lead.bits, position := 0 } }
             else s.port p })) ∧
  (∀ (a : Addr) (k : SetId) (s : State), CommandReady a s →
     let z := s.sets[k]
     let i : Instr := .dissolveSet a (BitVec.ofNat 8 k.val)
     (z.formed = false → ∃ t, exec i s = .next t ∧ CommandDone a .ok [0, 0, 0xFF] s t s) ∧
     (z.formed = true → z.items ≠ [] → ∃ t, exec i s = .next t ∧ CommandDone a .portBusy [0, 0, 0xFF] s t s) ∧
     (z.formed = true → z.items = [] →
       let reason : List Byte := match z.reason with
         | none => u8 0 ++ u8 0xFF
         | some (c, none) => u8 (codeNumber c) ++ u8 0xFF
         | some (c, some m) => u8 (codeNumber c) ++ u8 m.val
       ∃ t, exec i s = .next t ∧
         CommandDone a .ok (u8 1 ++ reason ++ u8 0 ++ u32 z.number ++ u32 z.skips) s t
           { s with sets := s.sets.set k { z with formed := false, mask := 0 } }))

/-- CABLE_SWEEP (R141, R143, R146): PORT_POWERED in any state but OFF and TRIPPED, PORT_BUSY under test; otherwise accepted, with the
averages turned into a power of two; it is measured at once when the front end is free and waits at the tail of the queue when it is
not, its record TAKEN.
Mirror writes last, and the completion code before the results: the model's choices (log 11 and 42). -/
def Obligations.CableSweep : Prop :=
  ∀ (a : Addr) (p : PortId) (asked : Byte) (s : State), CommandReady a s → p.val < s.chain.portCount.toNat →
    let i : Instr := .cableSweep a (BitVec.ofNat 8 p.val) asked
    let free := powerOf p s = .off ∨ powerOf p s = .tripped
    (¬ free → ∃ t, exec i s = .next t ∧ CommandDone a .portPowered [] s t s) ∧
    (free → (s.port p).sweep.state ≠ .none → ∃ t, exec i s = .next t ∧ CommandDone a .portBusy [] s t s) ∧
    (free → (s.port p).sweep.state = .none →
      ∃ t n, exec i s = .next t ∧ n ∈ [1, 2, 4, 8, 16, 32, 64] ∧ (asked.toNat ≤ 64 → n ≤ max 1 asked.toNat) ∧
        (n < 64 → asked.toNat < 2 * n) ∧
        let e : SweepEntry := { port := p, origin := .host, cause := .ok, averages := n, recAt := some a }
        (s.sweeps.front.isSome = true →
          Ends s t { modSweep p (fun w => { w with state := .queued }) s with
            sweeps := { s.sweeps with queue := s.sweeps.queue ++ [e] }, chain := afterTake a s.chain } [takenWrite a]) ∧
        (s.sweeps.front = none → s.sweeps.queue = [] →
          Ends s t { modSweep p (fun w => { w with state := .measuring }) s with
            sweeps := { queue := [], front := some { entry := e, settings := (s.port p).sweep.settings, started := s.trig.clock
                                                     powerAtStart := powerOf p s, sums := [] } }
            chain := afterTake a s.chain } [takenWrite a]))

/-- R163 and R169: SET_FLEX_AXIS with a sound axis and range stores them, with 0 and 0 for NONE and a threshold of at least 16, and
clears the map; the values are written back. CLEAR_FLEX_MAP clears bins, total, suspects and overflow count, and keeps the rest.
Mirror writes last, and the completion code before the results: the model's choices (log 11 and 42). -/
def Obligations.FlexAxisAndClear : Prop :=
  ∀ (a : Addr) (p : PortId) (s : State), CommandReady a s → p.val < s.chain.portCount.toNat →
    let x := (s.port p).flex
    (∀ (ax : Option Axis) (threshold : U16) (low high : U32), (ax ≠ none → low.toInt < high.toInt) →
      let lo := if ax = none then 0 else low
      let hi := if ax = none then 0 else high
      let th := max 16 threshold.toNat
      let b : Byte := match ax with | none => 0 | some .a => 1 | some .b => 2
      ∃ t, exec (.setFlexAxis a (BitVec.ofNat 8 p.val) b threshold low high) s = .next t ∧
        CommandDone a .ok ([b] ++ u8 0 ++ leBytes 2 th ++ u32 lo ++ u32 hi) s t
          (modFlex p (fun _ => { x with axis := ax, low := lo, high := hi, threshold := th, bins := .replicate 32 0, total := 0
                                        suspects := [], overflow := 0 }) s)) ∧
    (∀ (b : Byte) (threshold : U16) (low high : U32), (3 ≤ b.toNat ∨ ((b = 1 ∨ b = 2) ∧ high.toInt ≤ low.toInt)) →
      ∃ t, exec (.setFlexAxis a (BitVec.ofNat 8 p.val) b threshold low high) s = .next t ∧ CommandDone a .badArgument [] s t s) ∧
    (∃ t, exec (.clearFlexMap a (BitVec.ofNat 8 p.val)) s = .next t ∧
      CommandDone a .ok [] s t
        (modFlex p (fun _ => { x with bins := .replicate 32 0, total := 0, suspects := [], overflow := 0 }) s))

/-- READ_FLEX_MAP (R168) copies axis, suspects, threshold, range, bins, overflow, peak bin and total, and changes nothing; the peak is
the lowest-numbered bin of highest count, or none (0xFF) when every bin is 0.
RELEASE_SNAPSHOT (R173): a locked snapshot is copied with the drops while locked, unlocked, and the count set to 0; with none the
record completes DONE with everything 0 and nothing changes.
What fills the unused places of the result area is the model's choice (log 18).
Mirror writes last, and the completion code before the results: the model's choices (log 11 and 42). -/
def Obligations.FlexReads : Prop :=
  (∀ (a : Addr) (p : PortId) (s : State), CommandReady a s → p.val < s.chain.portCount.toNat →
     (s.port p).flex.suspects.length ≤ 8 →
     let x := (s.port p).flex
     ∃ (t : State) (peak : Nat), exec (.readFlexMap a (BitVec.ofNat 8 p.val)) s = .next t ∧
       ((∀ b : BinId, x.bins[b] = 0) → peak = 0xFF) ∧
       ((∃ b : BinId, x.bins[b] ≠ 0) → ∃ b : BinId, peak = b.val ∧ (∀ c : BinId, x.bins[c] ≤ x.bins[b]) ∧
         ∀ c : BinId, c < b → x.bins[c] < x.bins[b]) ∧
       CommandDone a .ok
         (u8 (axisNumber x.axis) ++ u8 x.suspects.length ++ leBytes 2 x.threshold ++ u32 x.low ++ u32 x.high
           ++ (x.bins.toList.map (leBytes 2)).flatten ++ (x.suspects.map fun (b : BinId) => u8 b.val).flatten
           ++ zeros (8 - x.suspects.length) ++ u8 x.overflow ++ u8 peak ++ zeros 2 ++ u32 x.total) s t s) ∧
  (∀ (a : Addr) (p : PortId) (s : State), CommandReady a s → p.val < s.chain.portCount.toNat →
     let x := (s.port p).flex
     let i : Instr := .releaseSnapshot a (BitVec.ofNat 8 p.val)
     (x.snapshot = none → ∃ t, exec i s = .next t ∧ CommandDone a .ok [] s t s) ∧
     (∀ c : Snapshot, x.snapshot = some c → c.history.length ≤ 8 →
       let frame : List Byte := match c.frame with
         | none => zeros 8
         | some (k, n) => u8 1 ++ u8 k.val ++ zeros 2 ++ u32 n
       ∃ t, exec i s = .next t ∧
         CommandDone a .ok
           (u8 1 ++ u8 (dropCauseNumber c.cause) ++ u8 (powerStateNumber c.power)
             ++ u8 (match c.bin with | none => 0xFF | some b => b.val) ++ u16 c.current ++ u8 x.dropsLocked
             ++ u8 c.history.length ++ frame ++ u32 c.axisA ++ u32 c.axisB ++ u32 c.bursts ++ u32 c.damaged ++ u64 c.time
             ++ (c.history.map fun h => u8 (historyByte h)).flatten ++ zeros (8 - c.history.length)) s t
           (modFlex p (fun x => { x with snapshot := none, dropsLocked := 0 }) s)))

/-! ## Port power -/

/-- The end of detection (R4, R5, R6, R12, R144): below 100 Ω TRIPPED with SHORT_DETECT, the cooldown started, the TRIP alert set and an
auto sweep asked for; from 20 kΩ to 30 kΩ the port joins the tail of the budget queue, whose head is granted at once if no port is in
INRUSH and its reservation fits (no current read yet, log 12); above 1 MΩ OFF with NO_HEAD and an auto sweep asked for; at any other
value OFF with BAD_SIGNATURE. An ON command in flight fails with the cause.
Mirror writes last, the completion code before the results, and an alert's message beside a completion: the model's choices (log 11,
42 and 27). -/
def Obligations.DetectComplete : Prop :=
  ∀ (p : PortId) (ohms : Nat) (s : State), Quiet s → powerOf p s = .detect → AnswerReady p s →
    (s.sweeps.front = none → s.sweeps.queue = []) →
    let w := (s.port p).power
    let still : PortPower := { w with detectTimer := none, inrushTimer := none, foldbackTimer := none }
    let off (c : Code) : State :=
      withAnswer p (modPower p (fun _ => { still with state := .off, cause := c, retries := 0, pendingOn := false }) s)
    let i : Instr := .detectComplete p ohms
    (ohms < 100 → ∃ t, exec i s = .next t ∧
      Ends s t (autoSwept p .shortDetect (withAlert p 0 (withAnswer p
          (modPower p (fun _ => { still with state := .tripped, cause := .shortDetect, cooldown := some (1000 * w.cooldownS) }) s))))
        (alertMessage p 0 s ++ answerWrites p .shortDetect s)) ∧
    (20000 ≤ ohms → ohms ≤ 30000 → ∃ t, exec i s = .next t ∧
      Ends s t (examined { modPower p (fun _ => { still with state := .queued }) s with
        power := { s.power with queue := s.power.queue ++ [p] } }) []) ∧
    (1000000 < ohms → ∃ t, exec i s = .next t ∧ Ends s t (autoSwept p .noHead (off .noHead)) (answerWrites p .noHead s)) ∧
    ((100 ≤ ohms ∧ ohms < 20000) ∨ (30000 < ohms ∧ ohms ≤ 1000000) →
      ∃ t, exec i s = .next t ∧ Ends s t (off .badSignature) (answerWrites p .badSignature s))

/-- The port voltage in INRUSH reaches 21.6 V (R6, R7, R9, R27): ON with cause NONE, the ON command DONE, the link in HUNT; the inrush
slot is free, so the head of the budget queue is granted if its reservation fits.
That a granted port has no current read yet and that a link leaving DOWN has the carrier are the model's choices (log 12, log 20).
Mirror writes last, and the completion code before the results: the model's choices (log 11 and 42). -/
def Obligations.InrushComplete : Prop :=
  ∀ (p : PortId) (s : State), Quiet s → powerOf p s = .inrush → AnswerReady p s → (∀ q ∈ s.power.queue, powerOf q s = .queued) →
    let w := (s.port p).power
    let u := modLink p (fun l => { l with
        state := .hunt, confirm := 0, misses := 0, boundary := .none, burst := none, history := [], carrier := true })
      (withAnswer p (modPower p (fun _ => { w with
        state := .on, cause := .ok, detectTimer := none, inrushTimer := none, foldbackTimer := none }) s))
    let granted : State := match s.power.queue with
      | [] => u
      | q :: rest =>
        let r := reservation (s.port q).power.clsInUse
        if (∀ x, x ≠ p → powerOf x s ≠ .inrush) ∧ s.power.reserved + r ≤ s.power.budget then
          { modPower q (fun w => { w with state := .inrush, inrushTimer := some 50, loadMa := 0 }) u with
            power := { s.power with queue := rest, grants := s.power.grants ++ [q], reserved := s.power.reserved + r } }
        else u
    ∃ t, exec (.inrushComplete p) s = .next t ∧ Ends s t granted (answerWrites p .ok s)

/-- A trip from power (R9, R10, R11, R12, R15, R144) with nothing else of the port in hand: the inrush timer's expiry gives INRUSH_FAIL,
the foldback timer's OVERLOAD, a current at the short threshold SHORT; the port is unpowered and TRIPPED with its cooldown started and
its TRIP alert set, an ON command in flight fails with the cause, an auto sweep is asked for, and the budget queue is examined (no
current read yet at a grant, log 12).
Whatever a powered port has in hand, a trip takes all of it (R4, R12, R15): the exposure list is empty, the link DOWN with no drop
counted and no charge, the channel SUSPENDED without READY and identity, every lens unit UNKNOWN, no ON command in flight, and the TRIP
alert set.
That a granted port has no current read yet is the model's choice (log 12).
Mirror writes last, the completion code before the results, and an alert's message beside a completion: the model's choices (log 11,
42 and 27). -/
def Obligations.Trips : Prop :=
  (∀ (p : PortId) (s : State), Quiet s → IdlePort p s → AnswerReady p s →
     (s.sweeps.front = none → s.sweeps.queue = []) →
     let w := (s.port p).power
     let tripped (c : Code) (w : PortPower) : State := examined (autoSwept p c (withAlert p 0 (unpowered p (withAnswer p (modPower p (fun _ => { w with
       state := .tripped, cause := c, cooldown := some (1000 * w.cooldownS), detectTimer := none, inrushTimer := none
       foldbackTimer := none }) s)))))
     let puts (c : Code) := alertMessage p 0 s ++ answerWrites p c s
     (w.state = .inrush →
       ∃ t, exec (.inrushTimeout p) s = .next t ∧ Ends s t (tripped .inrushFail w) (puts .inrushFail)) ∧
     (w.state = .foldback →
       ∃ t, exec (.foldbackTimeout p) s = .next t ∧ Ends s t (tripped .overload w) (puts .overload)) ∧
     (∀ ma : U16, (w.state = .inrush ∨ w.state = .on ∨ w.state = .foldback) → shortLimit w.clsInUse ≤ ma.toNat →
       ∃ t, exec (.shortThreshold p ma) s = .next t ∧ Ends s t (tripped .short { w with loadMa := ma }) (puts .short))) ∧
  (∀ (p : PortId) (ma : U16) (c : Instr) (s : State), PowerLaw s →
     ((c = .inrushTimeout p ∧ powerOf p s = .inrush) ∨ (c = .foldbackTimeout p ∧ powerOf p s = .foldback) ∨
       (c = .shortThreshold p ma ∧ isPowered (powerOf p s) = true ∧ shortLimit (s.port p).power.clsInUse ≤ ma.toNat)) →
     ∃ t, exec c s = .next t ∧ powerOf p t = .tripped ∧ (t.port p).power.onCommand = none ∧
       (t.port p).power.retries = (s.port p).power.retries ∧ (t.port p).power.pendingOn = (s.port p).power.pendingOn ∧
       (t.port p).power.cooldown = some (1000 * (s.port p).power.cooldownS) ∧ p ∉ t.power.grants ∧
       (t.port p).frame.entries = [] ∧ (t.port p).link.state = .down ∧ (t.port p).link.drops = (s.port p).link.drops ∧
       (t.port p).ctl.state = .suspended ∧ (t.port p).ctl.txn = none ∧ (t.port p).ctl.ready = false ∧
       (t.port p).ctl.identity = none ∧ (∀ u : UnitId, (t.port p).lens.known[u] = none) ∧ (t.port p).flex = (s.port p).flex ∧
       (t.port p).alerts.getLsbD 0 = true)

/-- Currents below the short threshold (R10, R21): ON goes to FOLDBACK above the class limit with the 20 ms timer started, FOLDBACK
returns to ON at the limit or below with it stopped, and any other reading is only kept.
The cooldown's expiry (R13): with a sweep on the port the mark alone; otherwise OFF with SUPPLY_LOW under a low supply, DETECT by
pending-on, DETECT by one of the retries remaining, or OFF with the trip cause kept.
A row that samples the current may carry any reading (the model's choice, log 3 and 12).
That mirror writes come last is the model's reading (log 11). -/
def Obligations.FoldbackAndCooldown : Prop :=
  (∀ (p : PortId) (ma : U16) (s : State), Quiet s → ma.toNat < shortLimit (s.port p).power.clsInUse →
     let w := (s.port p).power
     let above := currentLimit w.clsInUse < ma.toNat
     let new : PortPower :=
       if w.state = .on ∧ above then { w with loadMa := ma, state := .foldback, foldbackTimer := some 20 }
       else if w.state = .foldback ∧ ¬ above then { w with loadMa := ma, state := .on, foldbackTimer := none }
       else { w with loadMa := ma }
     isPowered w.state = true →
     (∃ t, exec (.foldbackEntry p ma) s = .next t ∧ Ends s t (modPower p (fun _ => new) s) []) ∧
     (∃ t, exec (.foldbackReturn p ma) s = .next t ∧ Ends s t (modPower p (fun _ => new) s) [])) ∧
  (∀ (p : PortId) (ms : Nat) (s : State), Quiet s → powerOf p s = .tripped → (s.port p).power.cooldown = some ms →
     let w : PortPower := { (s.port p).power with cooldown := none }
     let probe : PortPower := { w with expired := false, state := .detect, clsInUse := w.cls, detectTimer := some 8 }
     let new : PortPower :=
       if (s.port p).sweep.state ≠ .none then { w with expired := true }
       else if s.power.supplyLow then { w with expired := false, state := .off, cause := .supplyLow, retries := 0 }
       else if w.pendingOn then { probe with pendingOn := false }
       else if 0 < w.retries then { probe with retries := w.retries - 1 }
       else { w with expired := false, state := .off }
     ∃ t, exec (.cooldownExpiry p) s = .next t ∧ Ends s t (modPower p (fun _ => new) s) [])

/-- The supply (R18, R19): falling below 20.0 V with the flag clear sets it, ends every attempt and every power in OFF with SUPPLY_LOW,
sets the alerts of the ports that lose power and of the cell, and completes every ON command in flight FAILED with
SUPPLY_LOW; ports in TRIPPED and OFF keep their
state. Rising to 21.0 V clears the flag and does nothing else.
That mirror writes come last is the model's reading (log 11). -/
def Obligations.Supply : Prop :=
  (∀ (mv : U32) (s : State), PowerLaw s → mv.toNat < 20000 → s.power.supplyLow = false →
    ∃ t, exec (.supplyLow mv) s = .next t ∧
      t.power = { budget := s.power.budget, queue := [], grants := [], reserved := 0, supplyLow := true, supplyMv := mv } ∧
      t.chain.cellAlerts.getLsbD 1 = true ∧
      (∃ new, t.bus = new ++ s.bus ∧ ∀ (p : PortId) (a : Addr), (s.port p).power.onCommand = some a →
        BusEvent.write (a + 0x14) (leBytes 2 11) ∈ new ∧ BusEvent.write (a + 4) (leBytes 4 7) ∈ new) ∧ t.trig = s.trig ∧ t.sweeps = s.sweeps ∧
      ∀ p : PortId,
        let active := powerOf p s ≠ .off ∧ powerOf p s ≠ .tripped
        (t.port p).power.onCommand = none ∧ (t.port p).power.pendingOn = false ∧
        (active → powerOf p t = .off ∧ (t.port p).power.cause = .supplyLow ∧ (t.port p).power.retries = 0) ∧
        (isPowered (powerOf p s) = true → (t.port p).alerts.getLsbD 2 = true ∧ (t.port p).link.state = .down ∧
          (t.port p).frame.entries = []) ∧
        (¬ active → powerOf p t = powerOf p s ∧ (t.port p).power.cause = (s.port p).power.cause ∧
          (t.port p).power.retries = (s.port p).power.retries ∧ (t.port p).power.cooldown = (s.port p).power.cooldown ∧
          (t.port p).alerts = (s.port p).alerts)) ∧
  (∀ (mv : U32) (s : State), Quiet s → 21000 ≤ mv.toNat →
    ∃ t, exec (.supplyRestored mv) s = .next t ∧
      Ends s t { s with power := { s.power with supplyLow := false, supplyMv := mv } } [])

/-! ## The camera link -/

/-- From HUNT to LOCKED (R24, R28, R29, R30, R39, R55): an exact mark in HUNT with the carrier present enters CONFIRM with one mark
confirmed; in CONFIRM each exact mark at the boundary counts, a bad one returns to HUNT, and the burst between two marks only enters
the window of the last eight; the third exact mark more gives LOCKED, the lock notes, and on a channel with nothing waiting the PING of
identification. In LOCKED an exact mark at the boundary sets the miss count to 0; found within a recovery window it first ends the
burst begun by the bad mark, which counts, enters the history and is charged as damaged (R26, R31, R34; the order at that mark is the
model's choice, log 20).
That mirror writes come last is the model's reading (log 11). -/
def Obligations.LockUp : Prop :=
  ∀ (p : PortId) (len : U16) (s : State), Quiet s → 8 ≤ len.toNat → len.toNat ≤ 16394 →
    let l := (s.port p).link
    let begun : LinkRx := { l with burst := some (.exact len.toNat), boundary := .announced len.toNat }
    (l.state = .hunt → l.carrier = true → ∃ t, exec (.huntExactMark p (exactMark len)) s = .next t ∧
      Ends s t (modLink p (fun _ => { begun with state := .confirm, confirm := 1 }) s) []) ∧
    (l.state = .confirm → (∀ n, l.burst ≠ some (.exact n)) → l.confirm < 3 →
      ∃ t, exec (.confirmMark p (exactMark len)) s = .next t ∧
        Ends s t (modLink p (fun _ => { begun with confirm := l.confirm + 1 }) s) []) ∧
    (l.state = .confirm → (∀ n, l.burst ≠ some (.exact n)) → l.confirm = 3 → (s.port p).ctl.heads = [] →
      (s.port p).ctl.exposes = [] → (s.port p).ctl.lensMsgs = [] → (s.port p).ctl.txn = none →
      ∃ t, exec (.confirmMark p (exactMark len)) s = .next t ∧
        Ends s t { modPort p (fun q => { q with
              link := { begun with state := .locked, confirm := 4, misses := 0 }
              flex := { q.flex with noteBursts := l.bursts, noteDamaged := l.damaged }
              ctl := { q.ctl with
                state := .sending, replyTimer := some 2
                txn := some { message := .ping, part := 0, stage := .header, acked := 0, data := [] } } }) s with
            cable := ⟨p, .header 0 false 0⟩ :: ⟨p, .startMark⟩ :: s.cable } []) ∧
    (∀ mark : U64, l.state = .confirm → (∀ n, l.burst ≠ some (.exact n)) →
      (∀ n : U16, 8 ≤ n.toNat → n.toNat ≤ 16394 → mark ≠ exactMark n) →
      ∃ t, exec (.confirmMark p mark) s = .next t ∧
        Ends s t (modLink p (fun _ => { l with
          state := .hunt, confirm := 0, misses := 0, boundary := .none, burst := none }) s) []) ∧
    (∀ bytes : List Byte, l.state = .confirm → l.burst = some (.exact bytes.length) → l.history.length ≤ 8 →
      ∃ t, exec (.confirmBurstEnd p bytes) s = .next t ∧
        Ends s t (modLink p (fun _ => { l with
          burst := none
          history := l.history.drop (l.history.length - 7) ++ [⟨burstKind (parseBurst bytes), true⟩] }) s) []) ∧
    (l.state = .locked → l.burst = none → ∃ t, exec (.lockedMark p (exactMark len)) s = .next t ∧
      Ends s t (modLink p (fun _ => { begun with misses := 0 }) s) []) ∧
    (l.state = .locked → l.burst = some .bad → l.history.length ≤ 8 → FillsOldest p s →
      let x := damagedHeard p false s
      ∃ t, exec (.lockedMark p (exactMark len)) s = .next t ∧
        Ends s t (modLink p (fun l => { l with
          burst := some (.exact len.toNat), boundary := .announced len.toNat, misses := 0 }) x.1) x.2)

/-- Bad marks and the carrier short of a drop (R24, R26, R31, R32, R34): a bad mark at the boundary in LOCKED counts a miss and opens a
recovery window of 16,402 bytes; a window that closes ends the burst begun by the bad mark as damaged, with its charge, and counts the
next miss, as a bad mark there does; a carrier lost in HUNT or CONFIRM leaves the link in HUNT until it is back. Nothing happens in DOWN.
The order of the events at a bad mark is the model's choice (log 20).
That mirror writes come last is the model's reading (log 11). -/
def Obligations.MissesAndCarrier : Prop :=
  ∀ (p : PortId) (s : State), Quiet s →
    let l := (s.port p).link
    (∀ mark : U64, l.state = .locked → l.burst = none → l.misses < 3 →
      (∀ n : U16, 8 ≤ n.toNat → n.toNat ≤ 16394 → mark ≠ exactMark n) →
      ∃ t, exec (.lockedMark p mark) s = .next t ∧
        Ends s t (modLink p (fun _ => { l with misses := l.misses + 1, burst := some .bad, boundary := .window 16402 }) s) []) ∧
    (∀ (c : Instr) (mark : U64), l.state = .locked → l.burst = some .bad → l.misses < 3 → l.history.length ≤ 8 → FillsOldest p s →
      ((c = .recoveryWindowClose p ∧ l.boundary = .window 16402) ∨
        (c = .lockedMark p mark ∧ ∀ n : U16, 8 ≤ n.toNat → n.toNat ≤ 16394 → mark ≠ exactMark n)) →
      let x := damagedHeard p false s
      ∃ t, exec c s = .next t ∧
        Ends s t (modLink p (fun y => { y with misses := l.misses + 1, burst := some .bad, boundary := .window 16402 }) x.1) x.2) ∧
    (l.state = .down → exec (.carrierLoss p) s = .next s ∧ exec (.carrierReturn p) s = .next s) ∧
    ((l.state = .hunt ∨ l.state = .confirm) → ∃ t, exec (.carrierLoss p) s = .next t ∧
      Ends s t (modLink p (fun _ => if l.state = .hunt then { l with carrier := false } else { l with
        carrier := false, state := .hunt, confirm := 0, misses := 0, boundary := .none, burst := none }) s) []) ∧
    (l.state ≠ .down → ∃ t, exec (.carrierReturn p) s = .next t ∧
      Ends s t (modLink p (fun _ => { l with carrier := true }) s) [])

/-- A drop (R26, R31, R32, R35, R36, R37, R57, R165, R171, R172), by the fourth bad mark in a row, as a mark or as the close of a
recovery window, or by the loss of the carrier in LOCKED, with nothing of the port in hand: a burst begun by a bad mark ends first as
damaged, where the drop is by marks, and is discarded where it is by the carrier; the drop is charged with weight 16 to the bin of the
axis position; the link hunts with the cause and the count written, the channel is SUSPENDED with the identity kept, LINK_DROP is set,
and the snapshot of the port as the drop found it is captured with SNAPSHOT_HELD, or the drop is counted where one is held.
The order at the bad mark is the model's choice (log 20).
Whatever the port has in hand, a drop closes every entry and abandons the transaction (R35, R36).
That mirror writes come last is the model's reading (log 11). -/
def Obligations.Drop : Prop :=
  (∀ (p : PortId) (mark : U64) (c : Instr) (cause : DropCause) (s : State), Quiet s → IdlePort p s →
     (s.port p).link.state = .locked → (s.port p).link.history.length ≤ 8 →
     ((c = .carrierLoss p ∧ cause = .signal) ∨
       (cause = .marks ∧ (s.port p).link.misses = 3 ∧
         ((c = .lockedMark p mark ∧ ((s.port p).link.burst = none ∨ (s.port p).link.burst = some .bad) ∧
             ∀ n : U16, 8 ≤ n.toNat → n.toNat ≤ 16394 → mark ≠ exactMark n) ∨
           (c = .recoveryWindowClose p ∧ (s.port p).link.burst = some .bad ∧ (s.port p).link.boundary = .window 16402)))) →
     let x := if cause = .marks ∧ (s.port p).link.burst = some .bad then flexCharged p 1 (modLink p (heard .damaged false) s)
       else (s, [])
     let y := flexCharged p 16 x.1
     let q := x.1.port p
     let snap : Snapshot := {
       cause := cause, time := s.trig.clock, axisA := s.trig.axisA.position, axisB := s.trig.axisB.position
       bin := q.flex.axis.map fun ax => flexBin q.flex.low.toInt q.flex.high.toInt (axisState ax s.trig).position.toInt
       current := if isPowered q.power.state then q.power.loadMa else 0, power := q.power.state, history := q.link.history
       bursts := q.link.bursts - q.flex.noteBursts, damaged := q.link.damaged - q.flex.noteDamaged, frame := none }
     let z := if q.flex.snapshot = none then
         (withAlert p 9 (modFlex p (fun f => { f with snapshot := some snap, dropsLocked := 0 }) y.1), alertMessage p 9 y.1)
       else (modFlex p (fun f => { f with dropsLocked := min (f.dropsLocked + 1) 255 }) y.1, [])
     let u := modPort p (fun r => { r with
         link := { r.link with
           state := .hunt, confirm := 0, misses := 0, boundary := .none, burst := none, lastDrop := cause
           drops := if r.link.drops = 0xFFFF then 0xFFFF else r.link.drops + 1
           carrier := if cause = .signal then false else r.link.carrier }
         ctl := { r.ctl with
           state := .suspended, replyTimer := none, holdTimer := none, noteTimer := none, exposes := [], lensMsgs := []
           ready := false, retryTimer := none } }) (withAlert p 3 z.1)
     ∃ t, exec c s = .next t ∧ Ends s t u (alertMessage p 3 z.1 ++ z.2 ++ y.2 ++ x.2)) ∧
  (∀ (p : PortId) (mark : U64) (c : Instr) (cause : DropCause) (s : State), (s.port p).link.state = .locked →
     ((c = .carrierLoss p ∧ cause = .signal) ∨
       (cause = .marks ∧ (s.port p).link.misses = 3 ∧
         ((c = .lockedMark p mark ∧ ((s.port p).link.burst = none ∨ (s.port p).link.burst = some .bad) ∧
             ∀ n : U16, 8 ≤ n.toNat → n.toNat ≤ 16394 → mark ≠ exactMark n) ∨
           (c = .recoveryWindowClose p ∧ (s.port p).link.burst = some .bad ∧ (s.port p).link.boundary = .window 16402)))) →
     (s.port p).link.history.length ≤ 8 →
     ∃ t, exec c s = .next t ∧ (t.port p).link.state = .hunt ∧ (t.port p).link.lastDrop = cause ∧
       (t.port p).link.drops = (if (s.port p).link.drops = 0xFFFF then 0xFFFF else (s.port p).link.drops + 1) ∧
       (t.port p).link.history = (if cause = .marks ∧ (s.port p).link.burst = some .bad then (heard .damaged false (s.port p).link).history
         else (s.port p).link.history) ∧ (t.port p).frame.entries = [] ∧ (t.port p).ctl.state = .suspended ∧
       (t.port p).ctl.txn = none ∧ (t.port p).ctl.ready = false ∧ (t.port p).ctl.identity = (s.port p).ctl.identity ∧
       (t.port p).power = (s.port p).power ∧ (t.port p).alerts.getLsbD 3 = true ∧ (t.port p).flex.snapshot.isSome = true)

/-! ## Bursts and frames -/

/-- A FILL and a damaged burst in LOCKED (R33, R34, R39, R40, R116, R165, R166, R167): both are counted and enter the window of the last
eight; a damaged burst is charged with weight 1 to the bin of the axis position, and the bin is listed with FLEX_SUSPECT when it
reaches the threshold while the list has room. While a frame with a line still expected is being filled, a damaged burst has that line
erased (R115, R117, R118); with none expected nothing is.
That mirror writes come last is the model's reading (log 11). -/
def Obligations.FillAndDamagedBursts : Prop :=
  ∀ (p : PortId) (bytes : List Byte) (s : State), Quiet s → (s.port p).link.state = .locked →
    (s.port p).link.burst = some (.exact bytes.length) → (s.port p).link.history.length ≤ 8 →
    (bytes = encodeBurst .fill → ∃ t, exec (.fillBurst p bytes) s = .next t ∧
      Ends s t (modLink p (heard .fill true) s) []) ∧
    (parseBurst bytes = .damaged → (∀ f, (s.port p).frame.recv = .filling f → f.header.height ≤ f.next) →
      (s.port p).flex.axis = none → ∃ t, exec (.damagedBurst p bytes) s = .next t ∧
      Ends s t (modLink p (heard .damaged true) s) []) ∧
    (∀ ax : Axis, parseBurst bytes = .damaged → (∀ f, (s.port p).frame.recv = .filling f → f.header.height ≤ f.next) →
      (s.port p).flex.axis = some ax →
      let x := (s.port p).flex
      let b := flexBin x.low.toInt x.high.toInt (axisState ax s.trig).position.toInt
      let n := min (x.bins[b] + 1) 65535
      let crosses := x.bins[b] < x.threshold ∧ x.threshold ≤ n
      let y : FlexMap := { x with bins := x.bins.set b n, total := x.total + 1 }
      let u (y : FlexMap) := modFlex p (fun _ => y) (modLink p (heard .damaged true) s)
      ∃ t, exec (.damagedBurst p bytes) s = .next t ∧
        (¬ crosses → Ends s t (u y) []) ∧
        (crosses → x.suspects.length < 8 →
          Ends s t (withAlert p 8 (u { y with suspects := x.suspects ++ [b] })) (alertMessage p 8 s)) ∧
        (crosses → 8 ≤ x.suspects.length → Ends s t (u { y with overflow := x.overflow + 1 }) [])) ∧
    (∀ (f : Filling) (e : Entry) (rest : List Entry), parseBurst bytes = .damaged → (s.port p).frame.recv = .filling f →
      f.next < f.header.height → (s.port p).frame.entries = e :: rest → e.trigger = f.trigger →
      let g := erasedLines (s.port p).frame e 1 f
      let x := flexCharged p 1 (modFrame p (fun r => { r with recv := .filling g.1 }) (modLink p (heard .damaged true) s))
      ∃ t, exec (.damagedBurst p bytes) s = .next t ∧ Ends s t x.1 (x.2 ++ g.2))

/-- A FRAME-OPEN in LOCKED (R33, R39, R110, R111, R112), in IDLE, DISCARDING and FILLING: the frame being filled first has its missing lines
erased and closes DONE with CLOSE_LOST. Without an EXPOSED entry of its trigger tag the frame is a stray, counted and discarded. With
one, the oldest, every older EXPOSED entry closes FAILED with MISSED, oldest first; where the stride holds its lines, the entry is
FILLING, the match fields, the match time and FILLING are written into its record, and the frame stands empty at line 0; where it does
not, the entry closes FAILED with BAD_GEOMETRY, the match fields among its result fields, and the frame is discarded, uncounted.
That the fields of one step go out in these writes is the model's choice (log 43).
Mirror writes last, and the split of the result fields into writes: the model's choices (log 11 and 43). -/
def Obligations.FrameOpen : Prop :=
  ∀ (p : PortId) (h : FrameHeader) (pre : Option (Filling × Entry)) (olds rest : List Entry) (s : State), Quiet s →
    headerValid h = true → (s.port p).link.state = .locked → (s.port p).link.burst = some (.exact 24) →
    (s.port p).link.history.length ≤ 8 → (s.port p).ctl.exposes = [] → (s.port p).ctl.lensMsgs = [] →
    (match pre with
      | none => ∀ f, (s.port p).frame.recv ≠ .filling f
      | some (f, e) => (s.port p).frame.recv = .filling f ∧ e.trigger = f.trigger ∧ e.phase = .filling ∧ f.ranges.length ≤ 16) →
    let first := (pre.map (·.2)).toList
    (s.port p).frame.entries = first ++ olds ++ rest → ((s.port p).frame.entries.map (·.trigger)).Nodup →
    (∀ e ∈ first ++ olds, e.set = none) → (∀ e ∈ olds, e.phase = .exposed ∧ e.trigger.setWidth 16 ≠ h.tag) →
    let s1 := modLink p (heard .frameOpen true) s
    let i : Instr := .frameOpen p (encodeBurst (.frameOpen h))
    let gap := match pre with
      | none => []
      | some (f, e) => (erasedLines (s.port p).frame e (f.header.height - f.next) f).2
    let lost (body : Entry → List Byte) := first.map fun e => (e, 51, true, body e)
    let missed (body : Entry → List Byte) := olds.map fun e => (e, 52, false, body e)
    let whole (body : Entry → List Byte) := (∀ e, (body e).length = 0x84) ∧ ∀ q ∈ pre,
      let g := (erasedLines (s.port p).frame q.2 (q.1.header.height - q.1.next) q.1).1
      ((body q.2).drop 0x10).take 8 = leBytes 2 0 ++ leBytes 2 g.written ++ leBytes 2 g.erased ++ leBytes 2 g.cut ∧
        ((body q.2).drop 0x18).take 3 = flag g.truncated ++ u8 g.ranges.length ++ flag g.overflow
    let ends (t : State) (r : Receive) (strays : U32) (es : List Entry) (x : ChainEngine × List BusEvent) (puts : List BusEvent) :=
      Ends s t { modFrame p (fun q => { q with recv := r, strayFrames := q.strayFrames + strays, entries := es }) s1 with chain := x.1 }
        (puts ++ x.2 ++ gap)
    (olds = [] → (∀ e ∈ rest, e.phase = .exposed → e.trigger.setWidth 16 ≠ h.tag) →
      ∃ t body, whole body ∧ exec i s = .next t ∧ ends t .discarding 1 rest (closesOf s p s.chain (lost body)) []) ∧
    (∀ (e : Entry) (more : List Entry), rest = e :: more → e.phase = .exposed → e.trigger.setWidth 16 = h.tag →
      let bpl := match e.format with | .packed => (h.width * h.depth + 7) / 8 | _ => h.width * 2
      let m : Match := { header := h, bytesPerLine := bpl, time := s.trig.clock }
      let f : Filling := { trigger := e.trigger, header := h, bytesPerLine := bpl, next := 0, ranges := [], overflow := false
                           written := 0, erased := 0, cut := 0, truncated := false, lastLine := none }
      (bpl ≤ e.stride → ∃ t body, whole body ∧ exec i s = .next t ∧
        ends t (.filling f) 0 ({ e with phase := .filling, opened := some m } :: more) (closesOf s p s.chain (lost body ++ missed body))
          [.write (e.image + 4) (leBytes 4 4), .write (e.image + 0x78) (u64 s.trig.clock),
           .write (e.image + 0x52) (leBytes 2 bpl ++ u32 h.counter ++ u32 h.exposure),
           .write (e.image + 0x4C) (leBytes 2 h.width ++ leBytes 2 h.height ++ u8 h.depth)]) ∧
      (e.stride < bpl → e.set = none → ∃ t body, whole body ∧ exec i s = .next t ∧
        (body e).take 5 = leBytes 2 h.width ++ leBytes 2 h.height ++ u8 h.depth ∧
        ((body e).drop 6).take 10 = leBytes 2 bpl ++ u32 h.counter ++ u32 h.exposure ∧
        ends t .discarding 0 more (closesOf s p s.chain (lost body ++ missed body ++ [(e, 57, false, body e)])) []))

/-- A LINE in LOCKED (R33, R39, R113, R114, R115, R116, R117, R118, R119): the expected line, or a later one, before which the lines of
the gap are erased, is written in the store format of its record at the buffer address plus its number times the stride, or cut where
the buffer ends; an earlier line counts as late and a line at or beyond the height as beyond, neither written; a line of a wrong length
counts as bad and has the expected line, if there is one, erased; outside a frame a line does nothing more.
That mirror writes come last is the model's reading (log 11). -/
def Obligations.Line : Prop :=
  ∀ (p : PortId) (n : U16) (data : List Byte) (s : State), Quiet s → 1 ≤ data.length → data.length ≤ 16384 →
    (s.port p).link.state = .locked → (s.port p).link.burst = some (.exact (data.length + 10)) →
    (s.port p).link.history.length ≤ 8 →
    let s1 := modLink p (heard .line true) s
    let i : Instr := .line p (encodeBurst (.line n.toNat data))
    (fillingOf (s.port p).frame = none → ∃ t, exec i s = .next t ∧ Ends s t s1 []) ∧
    (∀ (f : Filling) (e : Entry) (rest : List Entry), (s.port p).frame.recv = .filling f →
      (s.port p).frame.entries = e :: rest → e.trigger = f.trigger →
      let right := data.length = (f.header.width * f.header.depth + 7) / 8
      let stored := storeLine e.format f.header.width f.header.depth data
      let with' (g : Filling) (r : FrameRx) : FrameRx := { r with recv := .filling g }
      let gap := erasedLines (s.port p).frame e (n.toNat - f.next) f
      let g := gap.1
      (right → f.next ≤ n.toNat → n.toNat < f.header.height → n.toNat * e.stride + f.bytesPerLine ≤ e.bufSize →
        ∃ t, exec i s = .next t ∧
          Ends s t (modFrame p (with' { g with next := n.toNat + 1, written := f.written + 1, lastLine := some stored }) s1)
            (.write (e.bufAddr + BitVec.ofNat 64 (n.toNat * e.stride)) stored :: gap.2)) ∧
      (right → f.next ≤ n.toNat → n.toNat < f.header.height → e.bufSize < n.toNat * e.stride + f.bytesPerLine →
        ∃ t, exec i s = .next t ∧
          Ends s t (modFrame p (with' { g with next := n.toNat + 1, cut := f.cut + 1, truncated := true }) s1) gap.2) ∧
      (right → n.toNat < f.next → n.toNat < f.header.height → ∃ t, exec i s = .next t ∧
        Ends s t (modFrame p (fun r => { r with lateLines := r.lateLines + 1 }) s1) []) ∧
      (right → f.header.height ≤ n.toNat → ∃ t, exec i s = .next t ∧
        Ends s t (modFrame p (fun r => { r with beyondLines := r.beyondLines + 1 }) s1) []) ∧
      (¬ right → let lost := erasedLines (s.port p).frame e (if f.next < f.header.height then 1 else 0) f
        ∃ t, exec i s = .next t ∧
          Ends s t (modFrame p (fun r => { r with recv := .filling lost.1, badLines := r.badLines + 1 }) s1) lost.2))

/-- Store formats (R113): a PACKED line is stored as it came; in the two wide formats pixel i of the line takes 16 bits, least
significant byte first or swapped, bit j of it being bit i × depth + j of the line and the bits above the depth 0.
A line of a fill value (R117) is stored as the line is that has the value in every pixel, its unused bits 0.
The erased-range list (R118): a line that follows the last range makes it longer; any other begins a range of one while there are fewer
than 16, and after that sets the overflow flag alone. -/
def Obligations.StoredPixels : Prop :=
  (∀ (width depth : Nat) (data : List Byte), depth ≤ 16 → data.length = (width * depth + 7) / 8 →
     storeLine .packed width depth data = data ∧
     (storeLine .wide16 width depth data).length = 2 * width ∧ (storeLine .wide16Swap width depth data).length = 2 * width ∧
     ∀ i, i < width → ∃ low high : Byte,
       (storeLine .wide16 width depth data)[2 * i]? = some low ∧ (storeLine .wide16 width depth data)[2 * i + 1]? = some high ∧
       (storeLine .wide16Swap width depth data)[2 * i]? = some high ∧ (storeLine .wide16Swap width depth data)[2 * i + 1]? = some low ∧
       ∀ j, j < 16 → (high ++ low).getLsbD j =
         (decide (j < depth) && (data.getD ((i * depth + j) / 8) 0).getLsbD ((i * depth + j) % 8))) ∧
  (∀ (width depth v : Nat) (fmt : StoreFormat), depth ≤ 16 → v < 2 ^ depth →
     ∃ data : List Byte, data.length = (width * depth + 7) / 8 ∧ fillLine fmt width depth v = storeLine fmt width depth data ∧
       (∀ i, i < width → ∀ j, j < depth → (data.getD ((i * depth + j) / 8) 0).getLsbD ((i * depth + j) % 8) = v.testBit j) ∧
       ∀ b, width * depth ≤ b → (data.getD (b / 8) 0).getLsbD (b % 8) = false) ∧
  (∀ (ranges : List (Nat × Nat)) (a c y : Nat),
     (a + c = y → addRange (ranges ++ [(a, c)]) y = (ranges ++ [(a, c + 1)], false)) ∧
     (a + c ≠ y → ranges.length < 15 → addRange (ranges ++ [(a, c)]) y = (ranges ++ [(a, c), (y, 1)], false)) ∧
     (a + c ≠ y → 15 ≤ ranges.length → addRange (ranges ++ [(a, c)]) y = (ranges ++ [(a, c)], true)) ∧
     addRange [] y = ([(y, 1)], false))

/-- The close of an entry (R109, R119, R120, R121, R123, R135, R136, R185): a FRAME-CLOSE has the lines not yet received erased and gives
COMPLETE, or TRUNCATED or PARTIAL where lines were cut or erased; the frame time limit of an entry whose frame has not come gives
TIMED_OUT. The result fields, with the status, the lines sent, written, erased and cut and the erased ranges, go into the record and the
entry leaves the list. A single port's record is DONE or FAILED at once and counted. A set member's record is HELD, and its slot
closes; when it is the item's last, the set status and the mask of the members that failed go into every record of the item, then the
state words in ascending port order, and then each record is counted; the item leaves the list. A FRAME-CLOSE in IDLE is a stray.
FRAME_TIMEOUT names its entry by the trigger number (the model's choice, log 28); the order of progress entries and messages at the
completion of an item is the model's choice (log 36).
Mirror writes last, and the split of the result fields into writes: the model's choices (log 11 and 43). -/
def Obligations.FrameCloses : Prop :=
  ∀ (p : PortId) (s : State), Quiet s →
    let l := (s.port p).link
    let s1 := modLink p (heard .frameClose true) s
    let i (sent : U16) : Instr := .frameClose p (encodeBurst (.frameClose sent.toNat))
    let ends := l.state = .locked ∧ l.burst = some (.exact 10) ∧ l.history.length ≤ 8
    let chain (e : Entry) : ChainEngine := afterCompletionOf ⟨1 + p.val, by omega⟩ .frames e.image s.chain
    let tail (e : Entry) (done : Bool) := completionTail s s.chain ⟨1 + p.val, by omega⟩ .frames e.image done
    let alone (e : Entry) (rest : List Entry) :=
      (∀ x ∈ rest, x.trigger ≠ e.trigger) ∧ (s.port p).ctl.exposes = [] ∧ (s.port p).ctl.lensMsgs = []
    (∀ sent : U16, sent.toNat ≤ 8192 → ends → (s.port p).frame.recv = .idle → ∃ t, exec (i sent) s = .next t ∧
      Ends s t (modFrame p (fun r => { r with strayCloses := r.strayCloses + 1 }) s1) []) ∧
    (∀ (sent : U16) (f : Filling) (e : Entry) (rest : List Entry), sent.toNat ≤ 8192 → ends →
      (s.port p).frame.recv = .filling f → (s.port p).frame.entries = e :: rest → e.trigger = f.trigger → e.phase = .filling →
      alone e rest → f.ranges.length ≤ 16 →
      let gap := erasedLines (s.port p).frame e (f.header.height - f.next) f
      let g := gap.1
      let status : Nat := if g.truncated then 50 else if 0 < g.erased then 49 else 48
      ∃ t body, exec (i sent) s = .next t ∧ body.length = 0x84 ∧
        (body.drop 0x10).take 8 = leBytes 2 sent.toNat ++ leBytes 2 g.written ++ leBytes 2 g.erased ++ leBytes 2 g.cut ∧
        (body.drop 0x18).take 3 = flag g.truncated ++ u8 g.ranges.length ++ flag g.overflow ∧
        body.drop 0x44 = (g.ranges.map fun r => leBytes 2 r.1 ++ leBytes 2 r.2).flatten ++ zeros (64 - 4 * g.ranges.length) ∧
        (e.set = none →
          Ends s t { modFrame p (fun r => { r with recv := .idle, entries := rest }) s1 with chain := chain e }
            (tail e true ++ [.write (e.image + 0x48) (leBytes 2 status ++ zeros 2 ++ body)] ++ gap.2)) ∧
        (∀ (k : SetId) (n : U32) (it : SetItem), e.set = some (k, n) →
          s.sets[k].items.find? (fun x => decide (x.number = n)) = some it →
          let slots := it.slots.map fun x =>
            if x.port = p then { x with status := some (if g.truncated then .truncated else if 0 < g.erased then .partialFrame else .complete) }
            else x
          let held : List BusEvent := [.write (e.image + 4) (leBytes 4 5), .write (e.image + 0x4C) body,
            .write (e.image + 0x48) (leBytes 2 status)] ++ gap.2
          let closed := modFrame p (fun r => { r with recv := .idle, entries := rest }) s1
          ((∃ x ∈ slots, x.status = none) →
            Ends s t { closed with sets := s.sets.set k { s.sets[k] with
              items := s.sets[k].items.map fun x => if x.number = n then { it with slots := slots } else x } } held) ∧
          ((∀ x ∈ slots, x.status ≠ none) →
            Ends s t { closed with
                chain := itemChain s.chain slots
                sets := s.sets.set k { s.sets[k] with items := s.sets[k].items.filter fun x => decide (x.number ≠ n) } }
              (itemWrites s s.chain slots ++ held)))) ∧
    (∀ (e : Entry) (rest : List Entry) (ms : Nat), (s.port p).frame.recv = .idle → (s.port p).frame.entries = e :: rest →
      e.phase = .exposed → e.timer = some ms → alone e rest → e.set = none →
      ∃ t body, exec (.frameTimeout p e.trigger) s = .next t ∧ body.length = 0x84 ∧
        Ends s t { modFrame p (fun r => { r with entries := rest }) s with chain := chain e }
          (tail e false ++ [.write (e.image + 0x48) (leBytes 2 53 ++ zeros 2 ++ body)]))

/-! ## The control channel -/

/-- Answers in a HEAD_ACCESS transaction with nothing else waiting on the channel (R44, R45, R46, R47, R59): the header's ACK sends the
first word of a WRITE or the count of a READ; a word's ACK sends the next word; the last ACK, after a HOLD or not, and the last data
word complete the command DONE with the words acknowledged or read; a NACK, of a READ's first data word too, completes it FAILED with
NACK, and so does a HOLD where none is allowed (the model's reading, log 29).
An EXPOSE (R48, R98, R108): its header's ACK sends the trigger tag; the word's ACK makes the entry EXPOSED with its frame timer
running; its HOLD starts the hold limit; NACK closes it with EXPOSE_REFUSED and a missing answer with NO_REPLY.
A LENS (R85, R94, R96, R97, R99): a header's ACK sends the code; a part's ACK makes it the known code, the unit MOVED, and the next part
follows a continuation mark; a NACK or a missing answer makes the unit REFUSED and UNKNOWN and the rest NOT_REACHED. With the last
answer the phase ends: the lens record completes, and the EXPOSE begins, or with FAILED and late action DROP the entry closes with
LENS_FAILED. That a part's ACK makes its code known before the transaction ends, and that a later failure leaves it known, is the
model's reading (log 16).
Zero bytes beyond the words read are the model's choice (log 18).
Mirror writes last, and the order and split of the writes of result fields: the model's choices (log 11, 42 and 43). -/
def Obligations.HeadAccessAnswers : Prop :=
  (∀ (p : PortId) (h : HeadAccess) (x : Txn) (s : State), Quiet s → (s.port p).ctl.state = .sending →
     (s.port p).ctl.txn = some x → x.message = .access h → x.part = 0 → (s.port p).ctl.exposes = [] →
     (s.port p).ctl.lensMsgs = [] → (s.port p).ctl.heads = [] → recordKind h.recAt s = 1 →
     (h.part.write = true → h.part.words ≠ []) →
     h.part.count ≤ 8 → (x.data.length < h.part.count ∨ x.data = []) →
     let send (y : Txn) (syms : List Symbol) : State :=
       { modCtl p (fun c => { c with txn := some y, replyTimer := some 2, holdTimer := none }) s with
         cable := syms.map (fun z => ⟨p, z⟩) ++ s.cable }
     let ended (syms : List Symbol) : State :=
       { modCtl p (fun c => { c with state := .idle, txn := none, replyTimer := none, holdTimer := none }) s with
         cable := syms.map (fun z => ⟨p, z⟩) ++ s.cable, chain := afterCompletion h.recAt s.chain }
     let done (code : Code) (n : Nat) (ws : List U16) :=
       completionWrites s s.chain h.recAt code (u8 n ++ zeros 1 ++ (ws.map u16).flatten)
     (x.stage = .header → h.part.write = true → ∃ t, exec (.unitAnswer p true) s = .next t ∧
       Ends s t (send { x with stage := .word 0 } [.word (h.part.words.getD 0 0)]) []) ∧
     (x.stage = .header → h.part.write = false → ∃ t, exec (.unitAnswer p true) s = .next t ∧
       Ends s t (send { x with stage := .data } [.count h.part.count]) []) ∧
     (∀ k, x.stage = .word k → k + 1 < h.part.words.length → ∃ t, exec (.unitAnswer p true) s = .next t ∧
       Ends s t (send { x with stage := .word (k + 1), acked := x.acked + 1 } [.word (h.part.words.getD (k + 1) 0)]) []) ∧
     (∀ k, x.stage = .word k → k + 1 = h.part.words.length → ∃ t, exec (.unitAnswer p true) s = .next t ∧
       Ends s t (ended [.endMark]) (done .ok h.part.count x.data)) ∧
     (∀ k, x.stage = .word k → k + 1 = h.part.words.length → ∃ t, exec (.holdSign p) s = .next t ∧
       Ends s t (modCtl p (fun c => { c with
         txn := some { x with stage := .hold }, replyTimer := none, holdTimer := some 50 }) s) []) ∧
     (x.stage = .hold → ∃ t, exec (.holdAnswer p true) s = .next t ∧
       Ends s t (ended [.endMark]) (done .ok h.part.count x.data)) ∧
     (x.stage = .hold → ∃ t, exec (.holdAnswer p false) s = .next t ∧ Ends s t (ended [.endMark]) (done .nack x.acked [])) ∧
     ((x.stage = .header ∨ ∃ k, x.stage = .word k) → ∃ t, exec (.unitAnswer p false) s = .next t ∧
       Ends s t (ended [.endMark]) (done .nack x.acked [])) ∧
     (x.stage = .data → x.data = [] → ∃ t, exec (.unitAnswer p false) s = .next t ∧ Ends s t (ended [.endMark]) (done .nack x.acked [])) ∧
     (x.stage = .header ∨ x.stage = .data ∨ (∃ k, x.stage = .word k ∧ k + 1 < h.part.words.length) → ∃ t, exec (.holdSign p) s = .next t ∧
       Ends s t (ended [.endMark]) (done .nack x.acked [])) ∧
     (∀ w : U16, x.stage = .data → x.data.length + 1 < h.part.count → ∃ t, exec (.readDataWord p w) s = .next t ∧
       Ends s t (send { x with data := x.data ++ [w] } []) []) ∧
     (∀ w : U16, x.stage = .data → h.part.count ≤ x.data.length + 1 → ∃ t, exec (.readDataWord p w) s = .next t ∧
       Ends s t (ended [.endMark]) (done .ok h.part.count (x.data ++ [w])))) ∧
  (∀ (p : PortId) (e : Entry) (x : Txn) (s : State), Quiet s → (s.port p).ctl.state = .sending → (s.port p).ctl.txn = some x →
     x.message = .expose e.trigger → x.part = 0 → (s.port p).frame.entries = [e] → e.phase = .exposeQueued → e.set = none →
     (∀ f, (s.port p).frame.recv ≠ .filling f) → (s.port p).ctl.exposes = [] → (s.port p).ctl.lensMsgs = [] →
     (s.port p).ctl.heads = [] →
     let ended (mark : Symbol) (rest : List Entry) : State :=
       { modPort p (fun q => { q with ctl := freed q.ctl, frame := { q.frame with entries := rest } }) s with
         cable := ⟨p, mark⟩ :: s.cable }
     (x.stage = .header → ∃ t, exec (.unitAnswer p true) s = .next t ∧
       Ends s t { modCtl p (fun c => { c with txn := some { x with stage := .word 0 }, replyTimer := some 2, holdTimer := none }) s with
         cable := ⟨p, .word (e.trigger.setWidth 16)⟩ :: s.cable } []) ∧
     (∀ i : Instr, x.stage = .word 0 ∧ i = .unitAnswer p true ∨ x.stage = .hold ∧ i = .holdAnswer p true →
       ∃ t, exec i s = .next t ∧ Ends s t (ended .endMark
         [{ e with phase := .exposed, exposedAt := s.trig.clock, timer := some (s.port p).frame.limitMs }]) []) ∧
     (x.stage = .word 0 → ∃ t, exec (.holdSign p) s = .next t ∧
       Ends s t (modCtl p (fun c => { c with txn := some { x with stage := .hold }, replyTimer := none, holdTimer := some 50 }) s) []) ∧
     (∀ (i : Instr) (code : Nat) (mark : Symbol),
       (((x.stage = .header ∨ x.stage = .word 0) ∧ i = .unitAnswer p false ∨ x.stage = .hold ∧ i = .holdAnswer p false ∨
           x.stage = .header ∧ i = .holdSign p) ∧
         code = 54 ∧ mark = .endMark) ∨
       (((s.port p).ctl.replyTimer.isSome = true ∧ i = .replyTimeout p ∨ (s.port p).ctl.holdTimer.isSome = true ∧ i = .holdLimit p) ∧
         code = 17 ∧ mark = .abortMark) →
       ∃ t body, exec i s = .next t ∧ body.length = 0x84 ∧
         Ends s t { ended mark [] with chain := afterCompletionOf ⟨1 + p.val, by omega⟩ .frames e.image s.chain }
           (completionTail s s.chain ⟨1 + p.val, by omega⟩ .frames e.image false
             ++ [.write (e.image + 0x48) (leBytes 2 code ++ zeros 2 ++ body)]))) ∧
  (∀ (p : PortId) (e : Entry) (ph : LensPhase) (m : LensMessage) (x : Txn) (u : UnitId) (code : Nat) (s : State), Quiet s →
     (s.port p).ctl.state = .sending → (s.port p).ctl.txn = some x → x.message = .lens m → m.parts[x.part]? = some (u, code) →
     (s.port p).lens.phase = some ph → ph.trigger = e.trigger → ph.targets.length ≤ 4 → (s.port p).frame.entries = [e] →
     e.phase = .lensMoving → e.set = none → (∀ f, (s.port p).frame.recv ≠ .filling f) → (s.port p).lens.held = [] →
     (s.port p).ctl.exposes = [] → (s.port p).ctl.lensMsgs = [] → (s.port p).ctl.heads = [] →
     let moved := ph.targets.map fun y => if y.unit = u then { y with result := some .moved } else y
     let known (v : Option Nat) := (s.port p).lens.known.set u v
     (x.stage = .header → ∃ t, exec (.unitAnswer p true) s = .next t ∧
       Ends s t { modCtl p (fun c => { c with txn := some { x with stage := .word 0 }, replyTimer := some 2, holdTimer := none }) s with
         cable := ⟨p, .word (BitVec.ofNat 16 code)⟩ :: s.cable } []) ∧
     (∀ (v : UnitId) (code2 : Nat), x.stage = .word 0 → m.parts[x.part + 1]? = some (v, code2) →
       ∃ t, exec (.unitAnswer p true) s = .next t ∧
         Ends s t { modPort p (fun q => { q with
               lens := { q.lens with known := known (some code), phase := some { ph with targets := moved } }
               ctl := { q.ctl with
                 txn := some { x with part := x.part + 1, stage := .header, acked := 0 }, replyTimer := some 2, holdTimer := none } }) s
             with cable := ⟨p, .header (v.val + 1) true 0⟩ :: ⟨p, .continuationMark⟩ :: s.cable } []) ∧
     (x.stage = .word 0 → ∃ t, exec (.holdSign p) s = .next t ∧
       Ends s t (modCtl p (fun c => { c with txn := some { x with stage := .hold }, replyTimer := none, holdTimer := none }) s) []) ∧
     (∀ (i : Instr) (ts : List Target) (v : Option Nat) (mark : Symbol),
       (m.parts[x.part + 1]? = none ∧ ts = moved ∧ v = some code ∧ mark = .endMark ∧
         (x.stage = .word 0 ∧ i = .unitAnswer p true ∨ x.stage = .hold ∧ i = .holdAnswer p true)) ∨
       (ts = settled (some u) .refused ph.targets ∧ v = none ∧
         (((x.stage = .header ∨ x.stage = .word 0) ∧ i = .unitAnswer p false ∨ x.stage = .hold ∧ i = .holdAnswer p false ∨
             x.stage = .header ∧ i = .holdSign p) ∧
             mark = .endMark ∨
           (s.port p).ctl.replyTimer.isSome = true ∧ i = .replyTimeout p ∧ mark = .abortMark)) →
       let outcome : LensOutcome :=
         if ∃ y ∈ ts, y.result = some .refused ∨ y.result = some .absent then .failed
         else if ∃ y ∈ ts, y.result = some .moved then .moved else .unchanged
       let lens (l : LensState) : LensState := { l with known := known v, phase := none }
       let l := lensRecordEnds s p .ok e outcome ph.flags ts ph.started s.trig.clock
       (outcome = .failed → (s.port p).lens.lateAction = .drop → ∃ t body, exec i s = .next t ∧ body.length = 0x84 ∧
         body[0x1B]? = some 4 ∧
         Ends s t { modPort p (fun q => { q with
               ctl := freed q.ctl, lens := lens q.lens, frame := { q.frame with entries := [] } }) s with
             cable := ⟨p, mark⟩ :: s.cable, chain := afterCompletionOf ⟨1 + p.val, by omega⟩ .frames e.image l.1 }
           (completionTail s l.1 ⟨1 + p.val, by omega⟩ .frames e.image false
             ++ [.write (e.image + 0x48) (leBytes 2 56 ++ zeros 2 ++ body)] ++ l.2)) ∧
       (outcome ≠ .failed ∨ (s.port p).lens.lateAction = .expose → ∃ t, exec i s = .next t ∧
         Ends s t { modPort p (fun q => { q with
               ctl := begun (.expose e.trigger) q.ctl, lens := lens q.lens
               frame := { q.frame with entries := [{ e with phase := .exposeQueued, outcome := outcome, flags := ph.flags }] } }) s with
             cable := ⟨p, .header 0 true 16⟩ :: ⟨p, .startMark⟩ :: ⟨p, mark⟩ :: s.cable, chain := l.1 } l.2)))

/-- Timeouts and identification (R47, R54, R55, R56): the reply timeout and the hold limit end a HEAD_ACCESS with an abort mark and NO_REPLY;
the fifth word of a PING with a valid size gives READY, and the identity is stored whatever identity was held: none, one marked for no
comparison, or one with the same boot count; with a changed boot count and no mark, every lens unit becomes UNKNOWN and HEAD_RESTART is
set as well. An invalid one counts a failure and starts the 100 ms retry, at whose expiry an idle channel sends the next PING.
Mirror writes last, and the completion code before the results: the model's choices (log 11 and 42). -/
def Obligations.TimeoutsAndIdentification : Prop :=
  ∀ (p : PortId) (s : State), Quiet s → (s.port p).ctl.exposes = [] → (s.port p).ctl.lensMsgs = [] → (s.port p).ctl.heads = [] →
    let c := (s.port p).ctl
    let free : Channel := { c with state := .idle, txn := none, replyTimer := none, holdTimer := none }
    let sends (c : Channel) (syms : List Symbol) : State :=
      { modCtl p (fun _ => c) s with cable := syms.map (fun z => ⟨p, z⟩) ++ s.cable }
    (∀ (h : HeadAccess) (x : Txn), c.state = .sending → c.txn = some x → x.message = .access h → recordKind h.recAt s = 1 →
      let u : State := { sends free [.abortMark] with chain := afterCompletion h.recAt s.chain }
      let puts := completionWrites s s.chain h.recAt .noReply (u8 x.acked ++ zeros 1)
      (c.replyTimer.isSome = true → ∃ t, exec (.replyTimeout p) s = .next t ∧ Ends s t u puts) ∧
      (c.holdTimer.isSome = true → ∃ t, exec (.holdLimit p) s = .next t ∧ Ends s t u puts)) ∧
    (∀ (x : Txn) (a b d w h : U16), c.state = .sending → c.txn = some x → x.message = .ping → x.part = 0 → x.stage = .data →
      x.data = [a, b, d, w] →
      let changed := c.noCompare = false ∧ ∃ old ∈ c.identity, old.boot ≠ b
      let new : Identity := { model := a, boot := b, presence := d.setWidth 4, maxWidth := w, maxHeight := h }
      let valid := 1 ≤ w.toNat ∧ w.toNat ≤ 8192 ∧ 1 ≤ h.toNat ∧ h.toNat ≤ 8192
      ∃ t, exec (.readDataWord p h) s = .next t ∧
        (valid → ¬ changed → Ends s t
          (sends { free with ready := true, noCompare := false, retryTimer := none, identity := some new } [.endMark]) []) ∧
        (valid → changed → (s.port p).frame.entries = [] → (s.port p).frame.recv = .idle → (s.port p).lens.phase = none →
          (s.port p).lens.held = [] → Ends s t
            (withAlert p 4 (modLens p (fun l => { l with known := .replicate 4 none })
              (sends { free with ready := true, noCompare := false, retryTimer := none, identity := some new } [.endMark])))
            (alertMessage p 4 s)) ∧
        (¬ valid → Ends s t (sends { free with failures := c.failures + 1, retryTimer := some 100 } [.endMark]) [])) ∧
    (c.state = .idle → c.txn = none → c.retryTimer.isSome = true → ∃ t, exec (.pingRetryTimeout p) s = .next t ∧
      Ends s t (sends { c with
          retryTimer := none, state := .sending, replyTimer := some 2
          txn := some { message := .ping, part := 0, stage := .header, acked := 0, data := [] } }
        [.header 0 false 0, .startMark]) [])

/-- Head notes on a channel with nothing waiting (R51, R52, R53, R54, R55, R101): the start mark enters NOTE, and a collision puts the
card's own message back; OVERTEMP and LENS_FAULT set their alerts, LENS_FAULT making its unit UNKNOWN; HEAD_RESTARTED clears READY,
forgets every code, sets HEAD_RESTART and sends a PING; a discarded note and the note timeout only free the channel.
That a collision withdraws the header from the cable log is the model's choice (log 21).
That mirror writes come last is the model's reading (log 11). -/
def Obligations.Notes : Prop :=
  ∀ (p : PortId) (s : State), Quiet s → (s.port p).ctl.exposes = [] → (s.port p).ctl.lensMsgs = [] → (s.port p).ctl.heads = [] →
    let c := (s.port p).ctl
    let noted := modCtl p (fun c => { c with state := .idle, noteTimer := none })
    (∀ b : Bool, c.state = .idle → ∃ t, exec (.noteStart p b) s = .next t ∧
      Ends s t (modCtl p (fun c => { c with state := .note, noteTimer := some 2 }) s) []) ∧
    (∀ (h : HeadAccess) (x : Txn) (cs : List CableEvent) (u : Nat) (w : Bool) (r : U16), c.state = .sending → c.txn = some x →
      x.message = .access h → x.part = 0 → x.stage = .header → s.cable = ⟨p, .header u w r⟩ :: cs →
      ∃ t, exec (.noteStart p true) s = .next t ∧
        Ends s t { modCtl p (fun c => { c with
          state := .note, noteTimer := some 2, txn := none, replyTimer := none, holdTimer := none, heads := [.access h] }) s with
          cable := cs } []) ∧
    (c.state = .note →
      (∃ t, exec (.noteDiscarded p) s = .next t ∧ Ends s t (noted s) []) ∧
      (∃ t, exec (.noteTimeout p) s = .next t ∧ Ends s t (noted s) []) ∧
      (∃ t, exec (.overtempNote p) s = .next t ∧ Ends s t (noted (withAlert p 5 s)) (alertMessage p 5 s)) ∧
      (∀ u : UnitId, ∃ t, exec (.lensFaultNote p (BitVec.ofNat 8 (u.val + 1))) s = .next t ∧
        Ends s t (noted (withAlert p 6 (modLens p (fun l => { l with known := l.known.set u none }) s))) (alertMessage p 6 s)) ∧
      (IdlePort p s → ∃ t, exec (.headRestartedNote p) s = .next t ∧
        Ends s t { modCtl p (fun c => { c with
              state := .sending, noteTimer := none, ready := false, noCompare := true, retryTimer := none, replyTimer := some 2
              txn := some { message := .ping, part := 0, stage := .header, acked := 0, data := [] } })
            (withAlert p 4 (modLens p (fun l => { l with known := .replicate 4 none }) s)) with
          cable := ⟨p, .header 0 false 0⟩ :: ⟨p, .startMark⟩ :: s.cable } (alertMessage p 4 s)))

/-! ## Axes, inputs, takes, lens and sweeps -/

/-- Encoder counting (R64, R67, R71): a change of one channel in quadrature moves the position by one up or down, wrapping; no change, or a
change of both, counts nothing. An ACTIVE PITCH source whose next point is reached in its direction fires while RUNNING, and while not
RUNNING does not; its point moves one pitch on in both, and it is IDLE with none where the point would leave the 32-bit range, at the
last trigger number and at its fires limit. The fire reaches a port in no set (R76, R77, R78, R79, R98): a skip, a refusal for want of
READY or of room, or, with lens mode OFF, the take of the image record offered, at the axis position just counted (the fields' one
write is the model's choice, log 42).
That mirror writes come last is the model's reading (log 11). -/
def Obligations.AxisCount : Prop :=
  ∀ (ax : Axis) (ch1 ch2 : Bool) (s : State), Quiet s →
    let x := axisState ax s.trig
    let phase (c1 c2 : Bool) : Nat := match c1, c2 with | false, false => 0 | true, false => 1 | true, true => 2 | false, true => 3
    let turn := (phase ch1 ch2 + 4 - phase x.ch1 x.ch2) % 4
    let pos : U32 := if turn = 1 then x.position + 1 else if turn = 3 then x.position - 1 else x.position
    let moved : TriggerCell := match ax with
      | .a => { s.trig with axisA := { position := pos, ch1 := ch1, ch2 := ch2 } }
      | .b => { s.trig with axisB := { position := pos, ch1 := ch1, ch2 := ch2 } }
    let passes (y : Source) (g : PitchProgramme) :=
      y.kind = .pitch g ∧ g.axis = ax ∧ y.active = true ∧ y.next = some pos ∧
        turn = (match g.direction with | .forward => 1 | .reverse => 3)
    let stepped (y : Source) : Source := match y.kind with
      | .pitch g =>
        if g.axis = ax ∧ y.active = true ∧ y.next = some pos ∧ turn = (match g.direction with | .forward => 1 | .reverse => 3) then
          let z : Source := if s.running then { y with number := y.number + 1, made := y.made + 1 } else y
          let n : Int := match g.direction with | .forward => pos.toInt + g.pitch | .reverse => pos.toInt - g.pitch
          if (s.running = true ∧ (z.number = 0xFFFFFFFF ∨ (g.limit ≠ 0 ∧ g.limit.toNat ≤ z.made.toNat))) ∨
              n < -2147483648 ∨ 2147483647 < n then { z with active := false, next := none }
          else { z with next := some (BitVec.ofInt 32 n) }
        else y
      | _ => y
    let after : TriggerCell := { moved with sources := s.trig.sources.map stepped }
    ((s.running = true → ∀ (k : SourceId) (g : PitchProgramme), passes (s.source k) g → (s.source k).mask = 0) →
      ∃ t, exec (.axisCount ax ch1 ch2) s = .next t ∧ Ends s t { s with trig := after } []) ∧
    (∀ (k : SourceId) (g : PitchProgramme) (p : PortId), s.running = true → passes (s.source k) g →
      (s.source k).mask = BitVec.twoPow 8 p.val → s.setOf p = none →
      (∀ (j : SourceId) (g' : PitchProgramme), j ≠ k → ¬ passes (s.source j) g') →
      let n := (s.source k).number + 1
      let u : State := { s with trig := after }
      (∀ x : Taker, refusedTaker n (s.port p) = some x →
        ∃ t, exec (.axisCount ax ch1 ch2) s = .next t ∧ Ends s t (modTake p (fun _ => x) u) []) ∧
      (∀ (r : Addr) (b : Addr × Nat × Nat × StoreFormat), TakesAtOnce p r b s →
        ∃ t, exec (.axisCount ax ch1 ch2) s = .next t ∧ Ends s t (takenAtOnce k n p r b u) (boundWrites k n r u)))

/-- The inputs (R66, R72): a rise with debounce 0, or the debounce timer's expiry in RISING, gives HIGH and counts one edge; a rise with
a debounce starts the timer; a fall gives LOW from any state. At a counted edge while RUNNING every ACTIVE source on the input fires
(here: sources that drive no port, or one that drives a port in no set), and while not RUNNING the edge is lost. The fire reaches the
port (R76, R77, R78, R79, R98): a skip, a refusal for want of READY or of room, or, with lens mode OFF, the take of the image record
offered (the fields' one write is the model's choice, log 42).
That mirror writes come last is the model's reading (log 11). -/
def Obligations.Inputs : Prop :=
  ∀ (i : Input) (s : State), Quiet s →
    let d := match i with | .in0 => s.trig.in0 | .in1 => s.trig.in1
    let put (d : Debouncer) (t : TriggerCell) : TriggerCell := match i with
      | .in0 => { t with in0 := d }
      | .in1 => { t with in1 := d }
    let fired (x : Source) : Source :=
      if x.kind = .input i ∧ x.active = true then
        (if x.number + 1 = 0xFFFFFFFF then { x with number := x.number + 1, made := x.made + 1, active := false, next := none }
          else { x with number := x.number + 1, made := x.made + 1 })
      else x
    let edge (t : TriggerCell) : TriggerCell := if s.running then { t with sources := t.sources.map fired } else t
    let alone := s.running = true → ∀ k : SourceId, (s.source k).kind = .input i → (s.source k).active = true → (s.source k).mask = 0
    (d.state = .low → d.setting = 0 → alone → ∃ t, exec (.inputRise i) s = .next t ∧
      Ends s t { s with trig := edge (put { d with state := .high } s.trig) } []) ∧
    (d.state = .low → d.setting ≠ 0 → ∃ t, exec (.inputRise i) s = .next t ∧
      Ends s t { s with trig := put { d with state := .rising, timer := some d.setting } s.trig } []) ∧
    (d.state = .rising → alone → ∃ t, exec (.debounceExpiry i) s = .next t ∧
      Ends s t { s with trig := edge (put { d with state := .high, timer := none } s.trig) } []) ∧
    (∃ t, exec (.inputFall i) s = .next t ∧ Ends s t { s with trig := put { d with state := .low, timer := none } s.trig } []) ∧
    (∀ (c : Instr) (d' : Debouncer) (k : SourceId) (p : PortId),
      ((c = .inputRise i ∧ d.state = .low ∧ d.setting = 0 ∧ d' = { d with state := .high }) ∨
        (c = .debounceExpiry i ∧ d.state = .rising ∧ d' = { d with state := .high, timer := none })) →
      s.running = true → (s.source k).kind = .input i → (s.source k).active = true → (s.source k).mask = BitVec.twoPow 8 p.val →
      s.setOf p = none → (∀ j : SourceId, j ≠ k → (s.source j).kind = .input i → (s.source j).active = false) →
      let n := (s.source k).number + 1
      let u : State := { s with trig := edge (put d' s.trig) }
      (∀ x : Taker, refusedTaker n (s.port p) = some x → ∃ t, exec c s = .next t ∧ Ends s t (modTake p (fun _ => x) u) []) ∧
      (∀ (r : Addr) (b : Addr × Nat × Nat × StoreFormat), TakesAtOnce p r b s →
        ∃ t, exec c s = .next t ∧ Ends s t (takenAtOnce k n p r b u) (boundWrites k n r u)))

/-- SOFT_TRIGGER (R67, R73, R74): trigger number and fires-made count rise by 1, the source is IDLE from the last number or its fires limit
on, and the number is written back.
A fire at a port in no set (R76, R77, R78, R79, R98): the pattern steps; a 0 bit is a skip; a take attempt is refused with NOT_READY,
OVERTRIGGER, NO_BUFFER with its alert, or LENS_DRY, in that order; an unsound image record is taken and FAILED, and the attempt counts
as NO_BUFFER; admitted with lens mode OFF, the image record found is taken, its trigger fields and BOUND are written, and the EXPOSE
is queued, or begun on an IDLE channel.
In lens mode CHAIN (R79, R88, R89): a lens record offered is taken too, TAKEN before the image record's fields and BOUND, and a
malformed one completes FAILED with BAD_RECORD after BOUND (the model's choice, log 34; its fields log 26, those kept from the take
log 15); the entry waits behind an older one in lens handling.
A fire at a formed set (R130, R131, R132, R133): every member's pattern steps; a 0 bit is a skip of every member; a failed check is a set
skip with the check's code and its lowest member, with NO_BUFFER alerts on the members without a record, and with the unsound record
taken and FAILED; admitted, every member binds the record its chain offered at the checks (log 40) with set and set number, an item
with its slots is appended, and the EXPOSEs are queued.
A record of another kind is written within its own length (the model's choice, log 19).
Mirror writes last, the order and split of the writes of result fields, and an alert's message beside a completion: the model's
choices (log 11, 42, 43 and 27). -/
def Obligations.SoftTrigger : Prop :=
  (∀ (a : Addr) (k : SourceId) (s : State), CommandReady a s → (s.source k).number ≠ 0xFFFFFFFF → (s.source k).mask = 0 →
     let x := s.source k
     let ends := x.number + 1 = 0xFFFFFFFF ∨
       (match x.kind with | .pitch g => g.limit ≠ 0 ∧ g.limit.toNat ≤ (x.made + 1).toNat | _ => False)
     ∃ t y, exec (.softTrigger a (BitVec.ofNat 8 k.val)) s = .next t ∧
       (ends → y = { x with number := x.number + 1, made := x.made + 1, active := false, next := none }) ∧
       (¬ ends → y = { x with number := x.number + 1, made := x.made + 1 }) ∧
       CommandDone a .ok (u32 (x.number + 1)) s t { s with trig := { s.trig with sources := s.trig.sources.set k y } }) ∧
  (∀ (a : Addr) (k : SourceId) (p : PortId) (s : State), CommandReady a s → (s.source k).mask = BitVec.twoPow 8 p.val →
     s.setOf p = none → (s.source k).number ≠ 0xFFFFFFFF →
     let q := s.port p
     let n := (s.source k).number + 1
     let i : Instr := .softTrigger a (BitVec.ofNat 8 k.val)
     let trig : TriggerCell := { s.trig with sources := s.trig.sources.set k (countFire (s.source k)) }
     let base : Taker := { q.take with
       lastTrigger := n, position := if q.take.position + 1 < q.take.length then q.take.position + 1 else 0 }
     let h : State := { s with trig := trig, chain := afterTake a s.chain, mem := writeBytes s.mem (a + 4) (leBytes 4 2) }
     let ends (x : Taker) (t : State) := CommandDone a .ok (u32 n) s t { modTake p (fun _ => x) s with trig := trig }
     let dry := (q.lens.chain = true ∧ q.lens.policy = .skipTake) ∧ need (.lens p) h = none
     (takeBit q.take = false → ∃ t, exec i s = .next t ∧ ends { base with skips := q.take.skips + 1 } t) ∧
     (takeBit q.take = true → q.ctl.ready = false →
       ∃ t, exec i s = .next t ∧ ends { base with notReady := q.take.notReady + 1 } t) ∧
     (takeBit q.take = true → q.ctl.ready = true → 4 ≤ q.frame.entries.length →
       ∃ t, exec i s = .next t ∧ ends { base with overtrigger := q.take.overtrigger + 1 } t) ∧
     (takeBit q.take = true → q.ctl.ready = true → q.frame.entries.length < 4 → need (.image p) h = none →
       ∃ t, exec i s = .next t ∧
         Ends s t { withAlert p 7 (modTake p (fun _ => { base with noBuffer := q.take.noBuffer + 1 }) s) with
             trig := trig, chain := afterCompletion a (afterTake a (withAlert p 7 s).chain) }
           (completionWrites s s.chain a .ok (u32 n) ++ alertMessage p 7 s ++ [takenWrite a])) ∧
     (takeBit q.take = true → q.ctl.ready = true → q.frame.entries.length < 4 → (need (.image p) h).isSome = true → dry →
       ∃ t, exec i s = .next t ∧ ends { base with lensDry := q.take.lensDry + 1 } t) ∧
     (∀ r : Addr, takeBit q.take = true → q.ctl.ready = true → q.frame.entries.length < 4 → need (.image p) h = some r → ¬ dry →
       readImageRecord r h = none → 0xD0 ≤ distanceFrom r a.toNat →
       0x10 ≤ distanceFrom (blockAt (0xC0 + 16 * (1 + p.val)) s) a.toNat →
       let image := afterCompletionOf ⟨1 + p.val, by omega⟩ .frames r
       let u := withAlert p 7 (modTake p (fun _ => { base with noBuffer := q.take.noBuffer + 1 }) s)
       let c : ChainEngine := { u.chain with
         cursors := s.chain.cursors.set (chainIndex (.image p)) (some r), inHand := s.chain.inHand + 1 }
       ∃ t, exec i s = .next t ∧
         Ends s t { u with trig := trig, chain := afterCompletion a (image (afterTake a c)) }
           (completionWrites s (image s.chain) a .ok (u32 n) ++ alertMessage p 7 s
             ++ completionTail s s.chain ⟨1 + p.val, by omega⟩ .frames r false
             ++ [.write (r + 0x48) ((leBytes 2 4 ++ zeros 0x86).take (if recordKind r h = 3 then 0x38 else 0x88)), takenWrite a])) ∧
     (∀ (r : Addr) (b : Addr × Nat × Nat × StoreFormat), TakesAtOnce p r b h → 0x48 ≤ distanceFrom r a.toNat →
       let u := takenAtOnce k n p r b { s with trig := trig }
       ∃ t, exec i s = .next t ∧ Ends s t { u with chain := afterCompletion a (afterTake a u.chain) }
         (completionWrites s s.chain a .ok (u32 n) ++ boundWrites k n r s ++ [takenWrite a]))) ∧
  (∀ (a : Addr) (k : SourceId) (p : PortId) (r buf : Addr) (size stride : Nat) (fmt : StoreFormat) (old : Entry) (s : State),
     CommandReady a s → (s.source k).mask = BitVec.twoPow 8 p.val → s.setOf p = none → (s.source k).number ≠ 0xFFFFFFFF →
     let q := s.port p
     let n := (s.source k).number + 1
     let trig : TriggerCell := { s.trig with sources := s.trig.sources.set k (countFire (s.source k)) }
     let h : State := { s with trig := trig, chain := afterTake a s.chain, mem := writeBytes s.mem (a + 4) (leBytes 4 2) }
     takeBit q.take = true → q.ctl.ready = true → q.frame.entries = [old] → old.phase = .exposeQueued → q.ctl.state ≠ .idle →
     q.lens.chain = true → need (.image p) h = some r → readImageRecord r h = some (buf, size, stride, fmt) →
     0x48 ≤ distanceFrom r a.toNat →
     let e : Entry := {
       source := k, trigger := n, axisA := s.trig.axisA.position, axisB := s.trig.axisB.position, time := s.trig.clock
       image := r, bufAddr := buf, bufSize := size, stride := stride, format := fmt, lensRec := none, lensPairs := none
       badLens := false, set := none, phase := .lensWait, outcome := .none, flags := 0, exposedAt := 0, timer := none, opened := none }
     let taken (e : Entry) : State := { modPort p (fun q => { q with
         take := { q.take with takes := q.take.takes + 1, lastTrigger := n
                               position := if q.take.position + 1 < q.take.length then q.take.position + 1 else 0 }
         frame := { q.frame with entries := [old, e] } }) s with trig := trig }
     let c : ChainEngine := { s.chain with
       cursors := s.chain.cursors.set (chainIndex (.image p)) (some r), inHand := s.chain.inHand + 1 }
     let bound (l : Addr) : List BusEvent :=
       [.write (r + 4) (leBytes 4 3),
        .write (r + 0x21) (u8 k.val ++ u8 0xFF ++ zeros 1 ++ u32 n ++ zeros 4 ++ u32 s.trig.axisA.position
          ++ u32 s.trig.axisB.position ++ zeros 4 ++ u64 s.trig.clock ++ u64 l)]
     (need (.lens p) h = none → q.lens.policy ≠ .skipTake →
       ∃ t, exec (.softTrigger a (BitVec.ofNat 8 k.val)) s = .next t ∧
         Ends s t { taken e with chain := afterCompletion a (afterTake a c) }
           (completionWrites s s.chain a .ok (u32 n) ++ bound 0 ++ [takenWrite a])) ∧
     (∀ l : Addr, need (.lens p) h = some l → 4 ≤ distanceFrom (l + 4) a.toNat →
       let pairs := readLensRecord l h
       let e := { e with lensRec := some l, lensPairs := pairs, badLens := pairs.isNone }
       let cl := { c with cursors := c.cursors.set (chainIndex (.lens p)) (some l), inHand := c.inHand + 1 }
       let lensDone := afterCompletionOf ⟨9 + p.val, by omega⟩ .commands l
       (pairs.isSome = true → ∃ t, exec (.softTrigger a (BitVec.ofNat 8 k.val)) s = .next t ∧
         Ends s t { taken e with chain := afterCompletion a (afterTake a cl) }
           (completionWrites s s.chain a .ok (u32 n) ++ bound l ++ [.write (l + 4) (leBytes 4 2), takenWrite a])) ∧
       (pairs = none → 0x80 ≤ distanceFrom l a.toNat → 0x10 ≤ distanceFrom (blockAt (0xC0 + 16 * (9 + p.val)) s) a.toNat →
         ∃ t, exec (.softTrigger a (BitVec.ofNat 8 k.val)) s = .next t ∧
         Ends s t { taken e with chain := afterCompletion a (lensDone (afterTake a cl)) }
           (completionWrites s (lensDone s.chain) a .ok (u32 n) ++ lensWrites s p l .badRecord e .none 8 [] 0 0 ++ bound l
             ++ [.write (l + 4) (leBytes 4 2), takenWrite a])))) ∧
  (∀ (a : Addr) (k : SourceId) (j : SetId) (s : State), CommandReady a s → SetLaw s → s.sets[j].formed = true →
     (s.source k).mask = s.sets[j].mask → (s.source k).number ≠ 0xFFFFFFFF →
     let i : Instr := .softTrigger a (BitVec.ofNat 8 k.val)
     let z := s.sets[j]
     let ms := maskPorts z.mask
     let n := (s.source k).number + 1
     let trig : TriggerCell := { s.trig with sources := s.trig.sources.set k (countFire (s.source k)) }
     let h : State := { s with trig := trig, chain := afterTake a s.chain, mem := writeBytes s.mem (a + 4) (leBytes 4 2) }
     let stepped (f : Taker → Taker) : State := { forPorts ms (fun p => modTake p fun t => f { t with
       lastTrigger := n, position := if t.position + 1 < t.length then t.position + 1 else 0 }) s with trig := trig }
     let bit (b : Bool) := ∃ p ∈ ms.head?, takeBit (s.port p).take = b
     let ready (p : PortId) := (s.port p).ctl.ready = true
     let room (p : PortId) := (s.port p).frame.entries.length < 4
     let offers (p : PortId) := (need (.image p) h).isSome = true
     let lens (p : PortId) := (s.port p).lens.chain = true → (s.port p).lens.policy = .skipTake → (need (.lens p) h).isSome = true
     let sound (p : PortId) := ∃ r ∈ need (.image p) h, (readImageRecord r h).isSome = true
     let least (ok : PortId → Prop) (p : PortId) : Prop := p ∈ ms ∧ ¬ ok p ∧ ∀ q ∈ ms, q < p → ok q
     let skipped (reason : Code × Option PortId) (u : State) : State :=
       { u with sets := s.sets.set j { z with skips := z.skips + 1, reason := some reason } }
     let done (t u : State) := CommandDone a .ok (u32 n) s t u
     (bit false → ∃ t, exec i s = .next t ∧ done t (stepped fun t => { t with skips := t.skips + 1 })) ∧
     (∀ p, bit true → least ready p →
       ∃ t, exec i s = .next t ∧ done t (skipped (.notReady, some p) (stepped id))) ∧
     (∀ p, bit true → (∀ q ∈ ms, ready q) → least room p →
       ∃ t, exec i s = .next t ∧ done t (skipped (.overtrigger, some p) (stepped id))) ∧
     (bit true → (∀ q ∈ ms, ready q ∧ room q) → 4 ≤ z.items.length →
       ∃ t, exec i s = .next t ∧ done t (skipped (.overtrigger, none) (stepped id))) ∧
     (∀ p, bit true → (∀ q ∈ ms, ready q ∧ room q) → z.items.length < 4 → least offers p →
       let short := ms.filter fun q => (need (.image q) h).isNone
       let u := forPorts short (fun q => withAlert q 7) (skipped (.noBuffer, some p) (stepped id))
       let told : List BusEvent := if (∃ q ∈ short, (s.port q).alerts.getLsbD 7 = false) ∧ s.chain.cause.getLsbD 2 = false ∧
         s.chain.enable.getLsbD 2 = true then [.message .alerts] else []
       ∃ t, exec i s = .next t ∧ Ends s t { u with chain := afterCompletion a (afterTake a u.chain) }
         (completionWrites s s.chain a .ok (u32 n) ++ told ++ [takenWrite a])) ∧
     (∀ p, bit true → (∀ q ∈ ms, ready q ∧ room q ∧ offers q) → z.items.length < 4 → least lens p →
       ∃ t, exec i s = .next t ∧ done t (skipped (.lensDry, some p) (stepped id))) ∧
     (∀ (p : PortId) (r : Addr), bit true → (∀ q ∈ ms, ready q ∧ room q ∧ offers q ∧ lens q) → z.items.length < 4 → least sound p →
       (∀ q ∈ ms, q ≠ p → sound q) → need (.image p) h = some r → 0xD0 ≤ distanceFrom r a.toNat →
       0x10 ≤ distanceFrom (blockAt (0xC0 + 16 * (1 + p.val)) s) a.toNat →
       let image := afterCompletionOf ⟨1 + p.val, by omega⟩ .frames r
       let c : ChainEngine := { s.chain with cursors := s.chain.cursors.set (chainIndex (.image p)) (some r), inHand := s.chain.inHand + 1 }
       ∃ t, exec i s = .next t ∧
         Ends s t { skipped (.badRecord, some p) (stepped id) with chain := afterCompletion a (image (afterTake a c)) }
           (completionWrites s (image s.chain) a .ok (u32 n) ++ completionTail s s.chain ⟨1 + p.val, by omega⟩ .frames r false
             ++ [.write (r + 0x48) ((leBytes 2 4 ++ zeros 0x86).take (if recordKind r h = 3 then 0x38 else 0x88)), takenWrite a])) ∧
     (∀ (r : PortId → Addr) (x : PortId → Addr × Nat × Nat × StoreFormat), bit true → (∀ q ∈ ms, ready q) → z.items.length < 4 →
       (∀ p ∈ ms, (s.port p).frame.entries = [] ∧ (s.port p).ctl.state ≠ .idle ∧ (s.port p).lens.phase = none ∧
         (s.port p).lens.held = [] ∧ (s.port p).lens.chain = false ∧ need (.image p) h = some (r p) ∧
         readImageRecord (r p) h = some (x p) ∧ 0x48 ≤ distanceFrom (r p) a.toNat) →
       let entry (p : PortId) : Entry := {
         source := k, trigger := n, axisA := s.trig.axisA.position, axisB := s.trig.axisB.position, time := s.trig.clock
         image := r p, bufAddr := (x p).1, bufSize := (x p).2.1, stride := (x p).2.2.1, format := (x p).2.2.2, lensRec := none
         lensPairs := none, badLens := false, set := some (j, z.number + 1), phase := .exposeQueued, outcome := .none, flags := 0
         exposedAt := 0, timer := none, opened := none }
       let bound (p : PortId) : List BusEvent :=
         [.write (r p + 4) (leBytes 4 3),
          .write (r p + 0x21) (u8 k.val ++ u8 j.val ++ zeros 1 ++ u32 n ++ u32 (z.number + 1) ++ u32 s.trig.axisA.position
            ++ u32 s.trig.axisB.position ++ zeros 4 ++ u64 s.trig.clock ++ zeros 8)]
       let u := forPorts ms (fun p => modPort p fun q => { q with
           frame := { q.frame with entries := [entry p] }, ctl := { q.ctl with exposes := q.ctl.exposes ++ [n] }
           lens := { q.lens with clamped := .replicate 4 false } }) (stepped fun t => { t with takes := t.takes + 1 })
       let c : ChainEngine := ms.foldl (fun c p => { c with
         cursors := c.cursors.set (chainIndex (.image p)) (some (r p)), inHand := c.inHand + 1 }) s.chain
       ∃ t, exec i s = .next t ∧
         Ends s t { u with
             chain := afterCompletion a (afterTake a c)
             sets := s.sets.set j { z with
               number := z.number + 1
               items := z.items ++ [{ number := z.number + 1, source := k, trigger := n
                                      slots := ms.map fun p => { port := p, image := r p, status := none } }] } }
           (completionWrites s s.chain a .ok (u32 n) ++ (ms.reverse.map bound).flatten ++ [takenWrite a])))

/-- From setpoint to drive code (R87), for a table of two to nine points with ascending setpoints and codes to 4095: below the first
setpoint the first code and above the last the last code, both clamped; between two neighbouring points the exact line rounded to the
nearest code, halves away from the first point's code; always a code from 0 to 4095. -/
def Obligations.DriveCode : Prop :=
  ∀ (t : List TablePoint) (x : Int), 2 ≤ t.length → tableWf t = true →
    (lensCode t x).1 ≤ 4095 ∧
    (∀ q ∈ t.head?, x < q.1 → lensCode t x = (q.2, true)) ∧
    (∀ q ∈ t.getLast?, q.1 < x → lensCode t x = (q.2, true)) ∧
    (∀ q ∈ t, lensCode t q.1 = (q.2, false)) ∧
    ∀ (pre post : List TablePoint) (a b : TablePoint), t = pre ++ a :: b :: post → a.1 < x → x < b.1 →
      (lensCode t x).2 = false ∧
      let d : Int := b.1 - a.1
      let exact2 : Int := 2 * ((b.2 : Int) - a.2) * (x - a.1)
      let got2 : Int := 2 * (((lensCode t x).1 : Int) - a.2) * d
      (0 ≤ exact2 → exact2 - d < got2 ∧ got2 ≤ exact2 + d) ∧ (exact2 ≤ 0 → exact2 - d ≤ got2 ∧ got2 < exact2 + d)

/-- The lens deadline (R47, R95, R96, R97, R99): a waiting LENS message is withdrawn and its units are NOT_REACHED; a transaction in progress
is abandoned with an abort mark, its unit CUT and UNKNOWN. The phase ends LATE: the lens record completes DONE, and the EXPOSE is queued,
or with late action DROP the entry closes with LENS_LATE.
The EXPOSE result of the older entry lets the next entry's phase start (R90, R91, R92, R93, R94): its targets are judged against table,
presence and known code; with a unit to write the LENS message begins and the deadline runs, and with none the phase ends at once, its
record DONE.
An entry that closes before or in its lens phase, here by a HEAD_RESTARTED note, takes its lens record with it: FAILED, with the unit
results so far, in LENS_WAIT NOT_REACHED for every unit (R100; flags and start time in LENS_MOVING are the model's choice, log 26);
the lens record completes before the image record (the model's choice, log 39). That codes acknowledged before stay known at the
deadline is the model's reading (log 16).
Mirror writes last, the order and split of the writes of result fields, and an alert's message beside a completion: the model's
choices (log 11, 42, 43 and 27). -/
def Obligations.LensDeadline : Prop :=
  (∀ (p : PortId) (e : Entry) (ph : LensPhase) (ms : Nat) (s : State), Quiet s → (s.port p).lens.phase = some ph →
     ph.deadline = some ms → (s.port p).frame.entries = [e] → ph.trigger = e.trigger → ph.targets.length ≤ 4 → e.phase = .lensMoving →
     e.set = none → (∀ f, (s.port p).frame.recv ≠ .filling f) → (s.port p).lens.held = [] → (s.port p).ctl.exposes = [] →
     let c := (s.port p).ctl
     let late : Entry := { e with phase := .exposeQueued, outcome := .late, flags := ph.flags }
     let drops := (s.port p).lens.lateAction = .drop
     let after (ctl : Channel) (known : Vector (Option Nat) 4) (entries : List Entry) (chain : ChainEngine) (sent : List Symbol) : State :=
       { modPort p (fun q => { q with
           ctl := ctl, lens := { q.lens with known := known, phase := none }, frame := { q.frame with entries := entries } }) s with
         cable := sent.map (fun y => ⟨p, y⟩) ++ s.cable, chain := chain }
     let closed (body : List Byte) (l : ChainEngine × List BusEvent) : List BusEvent :=
       completionTail s l.1 ⟨1 + p.val, by omega⟩ .frames e.image false
         ++ [.write (e.image + 0x48) (leBytes 2 55 ++ zeros 2 ++ body)] ++ l.2
     (c.state ≠ .idle → (∀ x m, c.txn = some x → x.message ≠ .lens m) →
       let known := (s.port p).lens.known
       let l := lensRecordEnds s p .ok e .late ph.flags (settled none .cut ph.targets) ph.started s.trig.clock
       (¬ drops → ∃ t, exec (.lensDeadline p) s = .next t ∧
         Ends s t (after { c with lensMsgs := [], exposes := [e.trigger] } known [late] l.1 []) l.2) ∧
       (drops → ∃ t body, exec (.lensDeadline p) s = .next t ∧ body.length = 0x84 ∧ body[0x1B]? = some 5 ∧
         Ends s t (after { c with lensMsgs := [] } known [] (afterCompletionOf ⟨1 + p.val, by omega⟩ .frames e.image l.1) [])
           (closed body l))) ∧
     (∀ (x : Txn) (m : LensMessage) (u : UnitId) (code : Nat), c.state = .sending → c.txn = some x → x.message = .lens m →
       m.parts[x.part]? = some (u, code) → c.lensMsgs = [] → c.heads = [] →
       let known := (s.port p).lens.known.set u none
       let l := lensRecordEnds s p .ok e .late ph.flags (settled (some u) .cut ph.targets) ph.started s.trig.clock
       (¬ drops → ∃ t, exec (.lensDeadline p) s = .next t ∧
         Ends s t (after (begun (.expose e.trigger) c) known [late] l.1 [.header 0 true 16, .startMark, .abortMark]) l.2) ∧
       (drops → ∃ t body, exec (.lensDeadline p) s = .next t ∧ body.length = 0x84 ∧ body[0x1B]? = some 5 ∧
         Ends s t (after (freed c) known [] (afterCompletionOf ⟨1 + p.val, by omega⟩ .frames e.image l.1) [.abortMark])
           (closed body l)))) ∧
  (∀ (p : PortId) (old e : Entry) (x : Txn) (s : State), Quiet s → (s.port p).ctl.state = .sending → (s.port p).ctl.txn = some x →
     x.message = .expose old.trigger → x.part = 0 → x.stage = .word 0 → (s.port p).frame.entries = [old, e] →
     old.phase = .exposeQueued → e.phase = .lensWait → e.trigger ≠ old.trigger → e.set = none →
     (∀ f, (s.port p).frame.recv ≠ .filling f) → (s.port p).lens.held = [] → (s.port p).ctl.exposes = [] →
     (s.port p).ctl.lensMsgs = [] → (s.port p).ctl.heads = [] → (∀ ps, e.lensPairs = some ps → ps.length ≤ 4) →
     let w := (s.port p).lens
     let present (u : UnitId) : Prop := ∃ i ∈ (s.port p).ctl.identity, i.presence.getLsbD u.val = true
     let fallback := e.lensPairs = none ∧ w.policy = .fallback
     let pairs := if w.chain = false then [] else e.lensPairs.getD (if fallback then w.fallback else [])
     let judged (q : UnitId × Int) : Target :=
       let code := (lensCode w.tables[q.1] q.2).1
       if w.tables[q.1] = [] then { unit := q.1, setpoint := q.2, code := none, result := some .noTable, clamped := false }
       else if ¬ present q.1 then { unit := q.1, setpoint := q.2, code := none, result := some .absent, clamped := false }
       else { unit := q.1, setpoint := q.2, code := some code, clamped := (lensCode w.tables[q.1] q.2).2
              result := if w.known[q.1] = some code then some .unchanged else none }
     let ts := pairs.map judged
     let flags : BitVec 4 := (if w.chain = true ∧ fallback then 1 else 0) ||| (if ∃ y ∈ ts, y.clamped = true then 2 else 0)
       ||| (if ∃ y ∈ ts, y.result = some .noTable then 4 else 0)
       ||| (if w.chain = true ∧ e.lensPairs = none ∧ e.badLens = true then 8 else 0)
     let clamped : Vector Bool 4 := Vector.ofFn fun u => decide (∃ y ∈ ts, y.unit = u ∧ y.clamped = true)
     let toWrite := ([0, 1, 2, 3] : List UnitId).filterMap fun u =>
       (ts.find? fun y => decide (y.unit = u ∧ y.result = none)).bind fun y => y.code.map fun code => (u, code)
     let exposed : Entry :=
       { old with phase := .exposed, exposedAt := s.trig.clock, timer := some (s.port p).frame.limitMs }
     let after (ctl : Channel) (phase : Option LensPhase) (rest : List Entry) (chain : ChainEngine) (sent : List Symbol) : State :=
       { modPort p (fun q => { q with
           ctl := ctl, lens := { w with clamped := clamped, phase := phase }
           frame := { q.frame with entries := exposed :: rest } }) s with
         cable := sent.map (fun y => ⟨p, y⟩) ++ s.cable, chain := chain }
     (∀ (u : UnitId) (code : Nat) (more : List (UnitId × Nat)), toWrite = (u, code) :: more →
       ∃ t, exec (.unitAnswer p true) s = .next t ∧
         Ends s t (after (begun (.lens ⟨e.trigger, toWrite⟩) (s.port p).ctl)
           (some { trigger := e.trigger, started := s.trig.clock, targets := ts, flags := flags, deadline := some w.deadlineMs })
           [{ e with phase := .lensMoving }] s.chain [.header (u.val + 1) true 0, .startMark, .endMark]) []) ∧
     (toWrite = [] →
       let outcome : LensOutcome :=
         if w.chain = false then .none else if pairs = [] ∧ e.lensPairs = none then .held
         else if ∃ y ∈ ts, y.result = some .absent then .failed else .unchanged
       let l := lensRecordEnds s p .ok e outcome flags ts s.trig.clock s.trig.clock
       (outcome ≠ .failed ∨ w.lateAction = .expose → ∃ t, exec (.unitAnswer p true) s = .next t ∧
         Ends s t (after (begun (.expose e.trigger) (s.port p).ctl) none
           [{ e with phase := .exposeQueued, outcome := outcome, flags := flags }] l.1
           [.header 0 true 16, .startMark, .endMark]) l.2) ∧
       (outcome = .failed → w.lateAction = .drop → ∃ t body, exec (.unitAnswer p true) s = .next t ∧ body.length = 0x84 ∧
         Ends s t (after (freed (s.port p).ctl) none [] (afterCompletionOf ⟨1 + p.val, by omega⟩ .frames e.image l.1) [.endMark])
           (completionTail s l.1 ⟨1 + p.val, by omega⟩ .frames e.image false
             ++ [.write (e.image + 0x48) (leBytes 2 56 ++ zeros 2 ++ body)] ++ l.2)))) ∧
  (∀ (p : PortId) (e : Entry) (s : State), Quiet s → (s.port p).ctl.state = .note → (s.port p).ctl.txn = none →
     (s.port p).ctl.heads = [] → (s.port p).frame.entries = [e] → e.set = none → (s.port p).frame.recv = .idle →
     (s.port p).lens.held = [] → (s.port p).ctl.exposes = [] → (∀ m ∈ (s.port p).ctl.lensMsgs, m.trigger = e.trigger) →
     let closes (l : ChainEngine × List BusEvent) : Prop :=
       ∃ t body, exec (.headRestartedNote p) s = .next t ∧ body.length = 0x84 ∧
         let c2 := afterCompletionOf ⟨1 + p.val, by omega⟩ .frames e.image l.1
         let u := withAlert p 4 { s with chain := c2 }
         Ends s t { modPort p (fun q => { q with
               ctl := { begun .ping q.ctl with lensMsgs := [], noteTimer := none, ready := false, noCompare := true, retryTimer := none
                                               holdTimer := q.ctl.holdTimer }
               lens := { q.lens with phase := none, known := .replicate 4 none }
               frame := { q.frame with entries := [] } }) u with
             cable := ⟨p, .header 0 false 0⟩ :: ⟨p, .startMark⟩ :: s.cable }
           (alertMessage p 4 s ++ completionTail s l.1 ⟨1 + p.val, by omega⟩ .frames e.image false
             ++ [.write (e.image + 0x48) (leBytes 2 20 ++ zeros 2 ++ body)] ++ l.2)
     (∀ ps, e.phase = .lensWait → (s.port p).lens.phase = none → e.lensPairs = some ps → ps.length ≤ 4 →
       closes (lensRecordEnds s p .headRestart e .none 0
         (ps.map fun q => { unit := q.1, setpoint := q.2, code := none, result := some .notReached, clamped := false }) 0 0)) ∧
     (∀ ph, e.phase = .lensMoving → (s.port p).lens.phase = some ph → ph.trigger = e.trigger → ph.targets.length ≤ 4 →
       closes (lensRecordEnds s p .headRestart e .none ph.flags (settled none .cut ph.targets) ph.started 0)))

/-- A sweep completes (R20, R142, R144, R146, R147, R158, R159, R160): the result block goes into
the break record with its sweep count last; then a host sweep's command record completes DONE with count and block, or an auto sweep's
SWEEP_DONE alert is set; the count rises by 1, the port is free; in OFF with
pending-on it enters DETECT, in TRIPPED with its cooldown expired it takes the decision of R13; and the next sweep of the queue is
measured.
All samples come with the completion (the model's choice, log 23), and the break record comes before the command record (log 27).
Mirror writes last, and the completion code before the results: the model's choices (log 11 and 42). -/
def Obligations.SweepComplete : Prop :=
  ∀ (m : Measuring) (samples : List (List (BitVec 14))) (s : State), Quiet s → s.sweeps.front = some m →
    (powerOf m.entry.port s = .off ∨ powerOf m.entry.port s = .tripped) →
    let p := m.entry.port
    let body := sweepBody m s.trig.clock
      (analyseSweep m.settings (averagedSamples m.entry.averages (sumSamples m.sums samples)))
    let count := (s.port p).sweep.count + 1
    let w : PortPower := { (s.port p).power with expired := false }
    let probe : PortPower := { w with state := .detect, clsInUse := w.cls, detectTimer := some 8 }
    let power : PortPower :=
      if w.state = .off then (if w.pendingOn then { probe with pendingOn := false, expired := (s.port p).power.expired } else (s.port p).power)
      else if (s.port p).power.expired = false then (s.port p).power
      else if s.power.supplyLow then { w with state := .off, cause := .supplyLow, retries := 0 }
      else if w.pendingOn then { probe with pendingOn := false }
      else if 0 < w.retries then { probe with retries := w.retries - 1 }
      else { w with state := .off }
    let free := modPort p (fun q => { q with sweep := { q.sweep with state := .none, count := count }, power := power }) s
    let u : State := match s.sweeps.queue with
      | [] => { free with sweeps := { front := none, queue := [] } }
      | e :: rest => { modSweep e.port (fun w => { w with state := .measuring }) free with
          sweeps := { queue := rest, front := some { entry := e, settings := (s.port e.port).sweep.settings, started := s.trig.clock
                                                     powerAtStart := powerOf e.port free, sums := [] } } }
    let puts : List BusEvent :=
      [.write (blockAt (0x840 + 0x80 * p.val) s) (u32 count), .write (blockAt (0x840 + 0x80 * p.val + 4) s) body]
    body.length = 0x7C ∧
    (∀ a : Addr, m.entry.recAt = some a → m.entry.origin = .host → recordKind a s = 1 →
      0x80 ≤ distanceFrom (blockAt (0x840 + 0x80 * p.val) s) a.toNat →
      ∃ t, exec (.sweepComplete samples) s = .next t ∧
        Ends s t { u with chain := afterCompletion a s.chain } (completionWrites s s.chain a .ok (u32 count ++ body) ++ puts)) ∧
    (m.entry.recAt = none → m.entry.origin = .auto →
      ∃ t, exec (.sweepComplete samples) s = .next t ∧ Ends s t (withAlert p 10 u) (alertMessage p 10 s ++ puts))

/-- The arithmetic of bins and sweeps (R150, R155, R156, R164): a crossing, rising or falling, lies in the sixteenth of a sample whose end first reaches the
level, the distance is the exact one rounded to the nearest millimetre, the class of an echo follows its reflection, and a position falls
into the bin of its thirty-second of the range, at the ends included. -/
def Obligations.SweepAndBinArithmetic : Prop :=
  (∀ (k : Nat) (a b h : Int), a ≤ h → h < b →
    ∃ f : Nat, crossingTime k a b h = 16 * k + f ∧ f < 16 ∧ (f : Int) * (b - a) ≤ 16 * (h - a) ∧ 16 * (h - a) < (f + 1) * (b - a)) ∧
  (∀ (k : Nat) (a b h : Int), b < h → h ≤ a →
    ∃ f : Nat, crossingTime k a b h = 16 * k + f ∧ f < 16 ∧ (f : Int) * (a - b) ≤ 16 * (a - h) ∧ 16 * (a - h) < (f + 1) * (a - b)) ∧
  (∀ (w : SweepSettings) (d : Nat),
    let exact := d * 14990 * w.vf
    let limit := (if w.length = 0 then 100000 else w.length) + w.tolerance
    ∃ mm : Nat, 2000000 * mm ≤ exact + 1000000 ∧ exact + 1000000 < 2000000 * (mm + 1) ∧
      distanceOf w d = if limit < mm then (limit, false, true) else (mm, false, false)) ∧
  (∀ (w : SweepSettings) (d : Int), d < 0 → distanceOf w d = (0, true, false)) ∧
  (∀ r : Int, echoClass r = if 600 ≤ r then .open else if r ≤ -600 then .short else if 0 < r then .impedanceUp else .impedanceDown) ∧
  (∀ (low high x : Int), low < high →
    (x ≤ low → flexBin low high x = 0) ∧ (high ≤ x → flexBin low high x = 31) ∧
    (low < x → x < high → ((flexBin low high x).val : Int) * (high - low) ≤ 32 * (x - low) ∧
      32 * (x - low) < ((flexBin low high x).val + 1) * (high - low)))

/-! ## Layouts -/

/-- Every command record that the host lays out reads back as the command it was laid out from, with every argument (R184, R200, R201).
Every legal burst that a head lays out is judged to be that burst, with every field, both checks holding (R25). -/
def Obligations.LayoutsRoundTrip : Prop :=
  (∀ (link : Addr) (c : Command), decodeCommand (encodeRecord link c) = some c) ∧
  (∀ b : Burst, burstLegal b = true → parseBurst (encodeBurst b) = b)
end

