-- ==== Sys2Proof/Laws/Memory.lean ====
section
/-! SUPPORT. Host memory: every write keeps the canonical form, a read after a write gives what was written, and a write leaves
every other byte alone. -/

namespace Sys2Proof.Machine

/-! ## Reading single bytes -/

theorem lookup_append {l₁ l₂ : List Host.Cell} (x : Nat) :
    (l₁ ++ l₂).lookup x = (l₁.lookup x).or (l₂.lookup x) := by
  induction l₁ with
  | nil => simp
  | cons c t ih =>
    obtain ⟨k, b⟩ := c
    simp only [List.cons_append, List.lookup_cons]
    split <;> simp [ih]

theorem lookup_filter_keep (m : List Host.Cell) (P : Nat → Bool) (x : Nat) (h : P x = true) :
    (m.filter fun c => P c.1).lookup x = m.lookup x := by
  induction m with
  | nil => rfl
  | cons c t ih =>
    obtain ⟨k, b⟩ := c
    by_cases hk : P k = true
    · simp only [List.filter_cons, hk, if_true, List.lookup_cons, ih]
    · have hne : (x == k) = false := by simpa using fun he : x = k => hk (he ▸ h)
      simp [hk, List.lookup_cons, hne, ih]

theorem lookup_filter_drop (m : List Host.Cell) (P : Nat → Bool) (x : Nat) (h : P x = false) :
    (m.filter fun c => P c.1).lookup x = none := by
  induction m with
  | nil => rfl
  | cons c t ih =>
    obtain ⟨k, b⟩ := c
    by_cases hk : P k = true
    · have hne : (x == k) = false := by simpa using fun he : x = k => by simp [← he, h] at hk
      simp [hk, List.lookup_cons, hne, ih]
    · simp [hk, ih]

theorem lookup_listed_outside (a x : Nat) (bs : List Byte) (h : x < a ∨ a + bs.length ≤ x) :
    (listed a bs).lookup x = none := by
  induction bs generalizing a with
  | nil => rfl
  | cons b t ih =>
    have hlen : (b :: t).length = t.length + 1 := rfl
    have hr := ih (a + 1) (by omega)
    have hx : (x == a) = false := by simpa using (by omega : x ≠ a)
    unfold listed
    split
    · exact hr
    · simp [List.lookup_cons, hx, hr]

theorem lookup_listed_inside (a i : Nat) (bs : List Byte) (h : i < bs.length) :
    ((listed a bs).lookup (a + i)).getD hostFill = bs[i] := by
  induction bs generalizing a i with
  | nil => simp at h
  | cons b t ih =>
    unfold listed
    cases i with
    | zero =>
      split
      · rename_i hb
        rw [lookup_listed_outside _ _ _ (Or.inl (by omega))]
        simp [hb]
      · simp
    | succ j =>
      have hj : j < t.length := by simpa using h
      have hr := ih (a + 1) j hj
      have ha : a + 1 + j = a + (j + 1) := by omega
      rw [ha] at hr
      split
      · simpa using hr
      · have hne : (a + (j + 1) == a) = false := by simp
        simpa [List.lookup_cons, hne] using hr

/-- A byte within a written span reads as written. -/
theorem readByte_writeSpan_inside (m : List Host.Cell) (a i : Nat) (bs : List Byte) (h : i < bs.length) :
    readByte (writeSpan m a bs) (a + i) = bs[i] := by
  unfold readByte writeSpan
  rw [lookup_append, lookup_append]
  rw [lookup_filter_drop m (fun k => decide (k < a)) (a + i) (by simp),
    lookup_filter_drop m (fun k => decide (a + bs.length ≤ k)) (a + i) (by simp; omega)]
  have := lookup_listed_inside a i bs h
  simpa using this

/-- A byte outside a written span reads as before. -/
theorem readByte_writeSpan_outside (m : List Host.Cell) (a x : Nat) (bs : List Byte) (h : x < a ∨ a + bs.length ≤ x) :
    readByte (writeSpan m a bs) x = readByte m x := by
  unfold readByte writeSpan
  rw [lookup_append, lookup_append, lookup_listed_outside a x bs h]
  rcases Nat.lt_or_ge x a with hx | hx
  · rw [lookup_filter_keep m (fun k => decide (k < a)) x (by simpa using hx),
      lookup_filter_drop m (fun k => decide (a + bs.length ≤ k)) x (by simp; omega)]
    simp
  · rw [lookup_filter_drop m (fun k => decide (k < a)) x (by simpa using hx),
      lookup_filter_keep m (fun k => decide (a + bs.length ≤ k)) x (by simp; omega)]
    simp

/-! ## The canonical form -/

theorem memWfFrom_weaken {lo lo' : Nat} {m : List Host.Cell} (hle : lo' ≤ lo) (h : memWfFrom lo m = true) :
    memWfFrom lo' m = true := by
  cases m with
  | nil => rfl
  | cons c t =>
    obtain ⟨k, b⟩ := c
    simp only [memWfFrom, Bool.and_eq_true, decide_eq_true_eq] at h ⊢
    exact ⟨⟨⟨by omega, h.1.1.2⟩, h.1.2⟩, h.2⟩

theorem memWfFrom_filter {lo : Nat} {m : List Host.Cell} (P : Nat → Bool) (h : memWfFrom lo m = true) :
    memWfFrom lo (m.filter fun c => P c.1) = true := by
  induction m generalizing lo with
  | nil => rfl
  | cons c t ih =>
    obtain ⟨k, b⟩ := c
    simp only [memWfFrom, Bool.and_eq_true, decide_eq_true_eq] at h
    by_cases hk : P k = true
    · simp only [List.filter_cons, hk, if_true, memWfFrom, Bool.and_eq_true, decide_eq_true_eq]
      exact ⟨h.1, ih h.2⟩
    · simp only [List.filter_cons, hk]
      exact memWfFrom_weaken (by omega) (ih h.2)

/-- Two canonical lists join when every address of the first lies below the start of the second. -/
theorem memWfFrom_append {lo hi : Nat} {l₁ l₂ : List Host.Cell} (hle : lo ≤ hi) (h₁ : memWfFrom lo l₁ = true)
    (hb : ∀ c ∈ l₁, c.1 < hi) (h₂ : memWfFrom hi l₂ = true) : memWfFrom lo (l₁ ++ l₂) = true := by
  induction l₁ generalizing lo with
  | nil => exact memWfFrom_weaken hle h₂
  | cons c t ih =>
    obtain ⟨k, b⟩ := c
    simp only [List.cons_append, memWfFrom, Bool.and_eq_true, decide_eq_true_eq] at h₁ ⊢
    have hk : k < hi := hb (k, b) (by simp)
    exact ⟨h₁.1, ih (by omega) h₁.2 (fun c hc => hb c (by simp [hc]))⟩

theorem memWfFrom_listed (a : Nat) (bs : List Byte) (h : a + bs.length ≤ addressSpace) :
    memWfFrom a (listed a bs) = true := by
  induction bs generalizing a with
  | nil => rfl
  | cons b t ih =>
    have hlen : (b :: t).length = t.length + 1 := rfl
    have ht := ih (a + 1) (by omega)
    unfold listed
    split
    · exact memWfFrom_weaken (by omega) ht
    · rename_i hb
      simp only [memWfFrom, Bool.and_eq_true, decide_eq_true_eq]
      exact ⟨⟨⟨Nat.le_refl _, hb⟩, by omega⟩, ht⟩

theorem listed_lt (a : Nat) (bs : List Byte) : ∀ c ∈ listed a bs, c.1 < a + bs.length := by
  induction bs generalizing a with
  | nil => simp [listed]
  | cons b t ih =>
    intro c hc
    have hlen : (b :: t).length = t.length + 1 := rfl
    unfold listed at hc
    split at hc
    · have := ih (a + 1) c hc; omega
    · rcases List.mem_cons.mp hc with rfl | hc
      · simp
      · have := ih (a + 1) c hc; omega

theorem memWfFrom_of_all {lo hi : Nat} {m : List Host.Cell} (h : memWfFrom lo m = true) (hb : ∀ c ∈ m, hi ≤ c.1) :
    memWfFrom hi m = true := by
  cases m with
  | nil => rfl
  | cons c t =>
    obtain ⟨k, b⟩ := c
    simp only [memWfFrom, Bool.and_eq_true, decide_eq_true_eq] at h ⊢
    exact ⟨⟨⟨hb (k, b) (by simp), h.1.1.2⟩, h.1.2⟩, h.2⟩

/-- A write of a span within the address space keeps the canonical form. -/
theorem memWf_writeSpan {m : List Host.Cell} (a : Nat) (bs : List Byte) (h : memWf m = true)
    (hfit : a + bs.length ≤ addressSpace) : memWf (writeSpan m a bs) = true := by
  unfold memWf writeSpan at *
  have h₁ := memWfFrom_filter (fun k => decide (k < a)) h
  have h₃ := memWfFrom_of_all (hi := a + bs.length) (memWfFrom_filter (fun k => decide (a + bs.length ≤ k)) h)
    (by intro c hc; simpa using (List.mem_filter.mp hc).2)
  have h₂ := memWfFrom_listed a bs hfit
  rw [List.append_assoc]
  refine memWfFrom_append (Nat.zero_le a) h₁ (fun c hc => by simpa using (List.mem_filter.mp hc).2) ?_
  exact memWfFrom_append (by omega) h₂ (listed_lt a bs) h₃

/-- Every write keeps the canonical form. -/
theorem memWf_writeBytes {m : List Host.Cell} (a : Addr) (bs : List Byte) (h : memWf m = true) :
    memWf (writeBytes m a bs) = true := by
  have ha : a.toNat < addressSpace := by simpa [addressSpace] using a.isLt
  unfold writeBytes
  split
  · rename_i hfit; exact memWf_writeSpan _ _ h hfit
  · refine memWf_writeSpan _ _ (memWf_writeSpan _ _ h ?_) ?_
    · simp only [List.length_take]; omega
    · simp only [List.length_take]; omega

/-! ## Reads after writes, with addresses that wrap -/

/-- Every byte outside a write reads as before. -/
theorem readByte_writeBytes_outside (m : List Host.Cell) (a : Addr) (bs : List Byte) (x : Nat) (hx : x < addressSpace)
    (h : bs.length ≤ distanceFrom a x) : readByte (writeBytes m a bs) x = readByte m x := by
  have ha : a.toNat < addressSpace := by simpa [addressSpace] using a.isLt
  unfold distanceFrom at h
  have hpos : 0 < addressSpace := by simp [addressSpace]
  have hsplit : (x < a.toNat ∧ bs.length ≤ x + addressSpace - a.toNat) ∨ (a.toNat ≤ x ∧ bs.length ≤ x - a.toNat) := by
    rcases Nat.lt_or_ge x a.toNat with hlt | hge
    · left; rw [Nat.mod_eq_of_lt (by omega)] at h; exact ⟨hlt, h⟩
    · right
      have : x + addressSpace - a.toNat = (x - a.toNat) + addressSpace := by omega
      rw [this, Nat.add_mod_right, Nat.mod_eq_of_lt (by omega)] at h
      exact ⟨hge, h⟩
  unfold writeBytes
  split
  · exact readByte_writeSpan_outside _ _ _ _ (by omega)
  · rename_i hfit
    have htake : (bs.take (addressSpace - a.toNat)).length = addressSpace - a.toNat := by
      simp only [List.length_take]; omega
    have hdrop : ((bs.drop (addressSpace - a.toNat)).take addressSpace).length
        = min addressSpace (bs.length - (addressSpace - a.toNat)) := by
      simp only [List.length_take, List.length_drop]
    rw [readByte_writeSpan_outside _ _ _ _ (by right; rw [hdrop]; omega),
      readByte_writeSpan_outside _ _ _ _ (by left; omega)]

/-- A byte of a write reads as written, for writes no longer than the address space. -/
theorem readByte_writeBytes_inside (m : List Host.Cell) (a : Addr) (bs : List Byte) (i : Nat) (hi : i < bs.length)
    (hlen : bs.length ≤ addressSpace) :
    readByte (writeBytes m a bs) ((a.toNat + i) % addressSpace) = bs[i] := by
  have ha : a.toNat < addressSpace := by simpa [addressSpace] using a.isLt
  unfold writeBytes
  split
  · rename_i hfit
    rw [Nat.mod_eq_of_lt (by omega)]
    exact readByte_writeSpan_inside _ _ _ _ hi
  · rename_i hfit
    rcases Nat.lt_or_ge (a.toNat + i) addressSpace with hlt | hge
    · rw [Nat.mod_eq_of_lt hlt]
      have hdrop : ((bs.drop (addressSpace - a.toNat)).take addressSpace).length
          = min addressSpace (bs.length - (addressSpace - a.toNat)) := by
        simp only [List.length_take, List.length_drop]
      rw [readByte_writeSpan_outside _ _ _ _ (by right; rw [hdrop]; omega)]
      have htake : i < (bs.take (addressSpace - a.toNat)).length := by simp only [List.length_take]; omega
      rw [readByte_writeSpan_inside _ _ _ _ htake]
      simp
    · have hmod : (a.toNat + i) % addressSpace = 0 + (i - (addressSpace - a.toNat)) := by
        have : a.toNat + i = (i - (addressSpace - a.toNat)) + addressSpace := by omega
        rw [this, Nat.add_mod_right, Nat.mod_eq_of_lt (by omega)]; omega
      rw [hmod]
      have hin : i - (addressSpace - a.toNat) < ((bs.drop (addressSpace - a.toNat)).take addressSpace).length := by
        simp only [List.length_take, List.length_drop]; omega
      rw [readByte_writeSpan_inside _ _ _ _ hin]
      simp only [List.getElem_take, List.getElem_drop]
      congr 1
      omega

end Sys2Proof.Machine
end

