-- ==== Sys2Proof/Laws/State.lean ====
section
/-! SUPPORT. What each update of the state changes and what it keeps: one lemma per field and update. -/

namespace Sys2Proof.Machine

variable (s : State) (p q : PortId)

@[simp] theorem modPort_pending (f : Port → Port) : (modPort p f s).pending = s.pending := rfl
@[simp] theorem modPort_mem (f : Port → Port) : (modPort p f s).mem = s.mem := rfl
@[simp] theorem modPort_bus (f : Port → Port) : (modPort p f s).bus = s.bus := rfl
@[simp] theorem modPort_cable (f : Port → Port) : (modPort p f s).cable = s.cable := rfl
@[simp] theorem modPort_chain (f : Port → Port) : (modPort p f s).chain = s.chain := rfl
@[simp] theorem modPort_power (f : Port → Port) : (modPort p f s).power = s.power := rfl
@[simp] theorem modPort_trig (f : Port → Port) : (modPort p f s).trig = s.trig := rfl
@[simp] theorem modPort_sets (f : Port → Port) : (modPort p f s).sets = s.sets := rfl
@[simp] theorem modPort_sweeps (f : Port → Port) : (modPort p f s).sweeps = s.sweeps := rfl

@[simp] theorem touchPort_pending : (touchPort p s).pending = s.pending := rfl
@[simp] theorem touchPort_mem : (touchPort p s).mem = s.mem := rfl
@[simp] theorem touchPort_bus : (touchPort p s).bus = s.bus := rfl
@[simp] theorem touchPort_cable : (touchPort p s).cable = s.cable := rfl
@[simp] theorem touchPort_chain : (touchPort p s).chain = s.chain := rfl
@[simp] theorem touchPort_power : (touchPort p s).power = s.power := rfl
@[simp] theorem touchPort_trig : (touchPort p s).trig = s.trig := rfl
@[simp] theorem touchPort_sets : (touchPort p s).sets = s.sets := rfl
@[simp] theorem touchPort_sweeps : (touchPort p s).sweeps = s.sweeps := rfl

@[simp] theorem dropPortDue_pending : (dropPortDue p s).pending = s.pending := rfl
@[simp] theorem dropPortDue_mem : (dropPortDue p s).mem = s.mem := rfl
@[simp] theorem dropPortDue_bus : (dropPortDue p s).bus = s.bus := rfl
@[simp] theorem dropPortDue_cable : (dropPortDue p s).cable = s.cable := rfl
@[simp] theorem dropPortDue_chain : (dropPortDue p s).chain = s.chain := rfl
@[simp] theorem dropPortDue_power : (dropPortDue p s).power = s.power := rfl
@[simp] theorem dropPortDue_trig : (dropPortDue p s).trig = s.trig := rfl
@[simp] theorem dropPortDue_sets : (dropPortDue p s).sets = s.sets := rfl
@[simp] theorem dropPortDue_sweeps : (dropPortDue p s).sweeps = s.sweeps := rfl

@[simp] theorem modPower_pending (f : PortPower → PortPower) : (modPower p f s).pending = s.pending := rfl
@[simp] theorem modPower_mem (f : PortPower → PortPower) : (modPower p f s).mem = s.mem := rfl
@[simp] theorem modPower_bus (f : PortPower → PortPower) : (modPower p f s).bus = s.bus := rfl
@[simp] theorem modPower_cable (f : PortPower → PortPower) : (modPower p f s).cable = s.cable := rfl
@[simp] theorem modPower_chain (f : PortPower → PortPower) : (modPower p f s).chain = s.chain := rfl
@[simp] theorem modPower_power (f : PortPower → PortPower) : (modPower p f s).power = s.power := rfl
@[simp] theorem modPower_trig (f : PortPower → PortPower) : (modPower p f s).trig = s.trig := rfl
@[simp] theorem modPower_sets (f : PortPower → PortPower) : (modPower p f s).sets = s.sets := rfl
@[simp] theorem modPower_sweeps (f : PortPower → PortPower) : (modPower p f s).sweeps = s.sweeps := rfl

@[simp] theorem modLink_pending (f : LinkRx → LinkRx) : (modLink p f s).pending = s.pending := rfl
@[simp] theorem modLink_mem (f : LinkRx → LinkRx) : (modLink p f s).mem = s.mem := rfl
@[simp] theorem modLink_bus (f : LinkRx → LinkRx) : (modLink p f s).bus = s.bus := rfl
@[simp] theorem modLink_cable (f : LinkRx → LinkRx) : (modLink p f s).cable = s.cable := rfl
@[simp] theorem modLink_chain (f : LinkRx → LinkRx) : (modLink p f s).chain = s.chain := rfl
@[simp] theorem modLink_power (f : LinkRx → LinkRx) : (modLink p f s).power = s.power := rfl
@[simp] theorem modLink_trig (f : LinkRx → LinkRx) : (modLink p f s).trig = s.trig := rfl
@[simp] theorem modLink_sets (f : LinkRx → LinkRx) : (modLink p f s).sets = s.sets := rfl
@[simp] theorem modLink_sweeps (f : LinkRx → LinkRx) : (modLink p f s).sweeps = s.sweeps := rfl

@[simp] theorem modCtl_pending (f : Channel → Channel) : (modCtl p f s).pending = s.pending := rfl
@[simp] theorem modCtl_mem (f : Channel → Channel) : (modCtl p f s).mem = s.mem := rfl
@[simp] theorem modCtl_bus (f : Channel → Channel) : (modCtl p f s).bus = s.bus := rfl
@[simp] theorem modCtl_cable (f : Channel → Channel) : (modCtl p f s).cable = s.cable := rfl
@[simp] theorem modCtl_chain (f : Channel → Channel) : (modCtl p f s).chain = s.chain := rfl
@[simp] theorem modCtl_power (f : Channel → Channel) : (modCtl p f s).power = s.power := rfl
@[simp] theorem modCtl_trig (f : Channel → Channel) : (modCtl p f s).trig = s.trig := rfl
@[simp] theorem modCtl_sets (f : Channel → Channel) : (modCtl p f s).sets = s.sets := rfl
@[simp] theorem modCtl_sweeps (f : Channel → Channel) : (modCtl p f s).sweeps = s.sweeps := rfl

@[simp] theorem modTake_pending (f : Taker → Taker) : (modTake p f s).pending = s.pending := rfl
@[simp] theorem modTake_mem (f : Taker → Taker) : (modTake p f s).mem = s.mem := rfl
@[simp] theorem modTake_bus (f : Taker → Taker) : (modTake p f s).bus = s.bus := rfl
@[simp] theorem modTake_cable (f : Taker → Taker) : (modTake p f s).cable = s.cable := rfl
@[simp] theorem modTake_chain (f : Taker → Taker) : (modTake p f s).chain = s.chain := rfl
@[simp] theorem modTake_power (f : Taker → Taker) : (modTake p f s).power = s.power := rfl
@[simp] theorem modTake_trig (f : Taker → Taker) : (modTake p f s).trig = s.trig := rfl
@[simp] theorem modTake_sets (f : Taker → Taker) : (modTake p f s).sets = s.sets := rfl
@[simp] theorem modTake_sweeps (f : Taker → Taker) : (modTake p f s).sweeps = s.sweeps := rfl

@[simp] theorem modLens_pending (f : LensState → LensState) : (modLens p f s).pending = s.pending := rfl
@[simp] theorem modLens_mem (f : LensState → LensState) : (modLens p f s).mem = s.mem := rfl
@[simp] theorem modLens_bus (f : LensState → LensState) : (modLens p f s).bus = s.bus := rfl
@[simp] theorem modLens_cable (f : LensState → LensState) : (modLens p f s).cable = s.cable := rfl
@[simp] theorem modLens_chain (f : LensState → LensState) : (modLens p f s).chain = s.chain := rfl
@[simp] theorem modLens_power (f : LensState → LensState) : (modLens p f s).power = s.power := rfl
@[simp] theorem modLens_trig (f : LensState → LensState) : (modLens p f s).trig = s.trig := rfl
@[simp] theorem modLens_sets (f : LensState → LensState) : (modLens p f s).sets = s.sets := rfl
@[simp] theorem modLens_sweeps (f : LensState → LensState) : (modLens p f s).sweeps = s.sweeps := rfl

@[simp] theorem modFrame_pending (f : FrameRx → FrameRx) : (modFrame p f s).pending = s.pending := rfl
@[simp] theorem modFrame_mem (f : FrameRx → FrameRx) : (modFrame p f s).mem = s.mem := rfl
@[simp] theorem modFrame_bus (f : FrameRx → FrameRx) : (modFrame p f s).bus = s.bus := rfl
@[simp] theorem modFrame_cable (f : FrameRx → FrameRx) : (modFrame p f s).cable = s.cable := rfl
@[simp] theorem modFrame_chain (f : FrameRx → FrameRx) : (modFrame p f s).chain = s.chain := rfl
@[simp] theorem modFrame_power (f : FrameRx → FrameRx) : (modFrame p f s).power = s.power := rfl
@[simp] theorem modFrame_trig (f : FrameRx → FrameRx) : (modFrame p f s).trig = s.trig := rfl
@[simp] theorem modFrame_sets (f : FrameRx → FrameRx) : (modFrame p f s).sets = s.sets := rfl
@[simp] theorem modFrame_sweeps (f : FrameRx → FrameRx) : (modFrame p f s).sweeps = s.sweeps := rfl

@[simp] theorem modSweep_pending (f : PortSweep → PortSweep) : (modSweep p f s).pending = s.pending := rfl
@[simp] theorem modSweep_mem (f : PortSweep → PortSweep) : (modSweep p f s).mem = s.mem := rfl
@[simp] theorem modSweep_bus (f : PortSweep → PortSweep) : (modSweep p f s).bus = s.bus := rfl
@[simp] theorem modSweep_cable (f : PortSweep → PortSweep) : (modSweep p f s).cable = s.cable := rfl
@[simp] theorem modSweep_chain (f : PortSweep → PortSweep) : (modSweep p f s).chain = s.chain := rfl
@[simp] theorem modSweep_power (f : PortSweep → PortSweep) : (modSweep p f s).power = s.power := rfl
@[simp] theorem modSweep_trig (f : PortSweep → PortSweep) : (modSweep p f s).trig = s.trig := rfl
@[simp] theorem modSweep_sets (f : PortSweep → PortSweep) : (modSweep p f s).sets = s.sets := rfl
@[simp] theorem modSweep_sweeps (f : PortSweep → PortSweep) : (modSweep p f s).sweeps = s.sweeps := rfl

@[simp] theorem modFlex_pending (f : FlexMap → FlexMap) : (modFlex p f s).pending = s.pending := rfl
@[simp] theorem modFlex_mem (f : FlexMap → FlexMap) : (modFlex p f s).mem = s.mem := rfl
@[simp] theorem modFlex_bus (f : FlexMap → FlexMap) : (modFlex p f s).bus = s.bus := rfl
@[simp] theorem modFlex_cable (f : FlexMap → FlexMap) : (modFlex p f s).cable = s.cable := rfl
@[simp] theorem modFlex_chain (f : FlexMap → FlexMap) : (modFlex p f s).chain = s.chain := rfl
@[simp] theorem modFlex_power (f : FlexMap → FlexMap) : (modFlex p f s).power = s.power := rfl
@[simp] theorem modFlex_trig (f : FlexMap → FlexMap) : (modFlex p f s).trig = s.trig := rfl
@[simp] theorem modFlex_sets (f : FlexMap → FlexMap) : (modFlex p f s).sets = s.sets := rfl
@[simp] theorem modFlex_sweeps (f : FlexMap → FlexMap) : (modFlex p f s).sweeps = s.sweeps := rfl

@[simp] theorem modChain_pending (f : ChainEngine → ChainEngine) : (modChain f s).pending = s.pending := rfl
@[simp] theorem modChain_mem (f : ChainEngine → ChainEngine) : (modChain f s).mem = s.mem := rfl
@[simp] theorem modChain_bus (f : ChainEngine → ChainEngine) : (modChain f s).bus = s.bus := rfl
@[simp] theorem modChain_cable (f : ChainEngine → ChainEngine) : (modChain f s).cable = s.cable := rfl
@[simp] theorem modChain_power (f : ChainEngine → ChainEngine) : (modChain f s).power = s.power := rfl
@[simp] theorem modChain_trig (f : ChainEngine → ChainEngine) : (modChain f s).trig = s.trig := rfl
@[simp] theorem modChain_sets (f : ChainEngine → ChainEngine) : (modChain f s).sets = s.sets := rfl
@[simp] theorem modChain_sweeps (f : ChainEngine → ChainEngine) : (modChain f s).sweeps = s.sweeps := rfl
@[simp] theorem modChain_ports (f : ChainEngine → ChainEngine) : (modChain f s).ports = s.ports := rfl

@[simp] theorem modChain_chain (f : ChainEngine → ChainEngine) : (modChain f s).chain = f s.chain := rfl

@[simp] theorem modTrig_pending (f : TriggerCell → TriggerCell) : (modTrig f s).pending = s.pending := rfl
@[simp] theorem modTrig_mem (f : TriggerCell → TriggerCell) : (modTrig f s).mem = s.mem := rfl
@[simp] theorem modTrig_bus (f : TriggerCell → TriggerCell) : (modTrig f s).bus = s.bus := rfl
@[simp] theorem modTrig_cable (f : TriggerCell → TriggerCell) : (modTrig f s).cable = s.cable := rfl
@[simp] theorem modTrig_chain (f : TriggerCell → TriggerCell) : (modTrig f s).chain = s.chain := rfl
@[simp] theorem modTrig_power (f : TriggerCell → TriggerCell) : (modTrig f s).power = s.power := rfl
@[simp] theorem modTrig_sets (f : TriggerCell → TriggerCell) : (modTrig f s).sets = s.sets := rfl
@[simp] theorem modTrig_sweeps (f : TriggerCell → TriggerCell) : (modTrig f s).sweeps = s.sweeps := rfl
@[simp] theorem modTrig_ports (f : TriggerCell → TriggerCell) : (modTrig f s).ports = s.ports := rfl

@[simp] theorem modTrig_trig (f : TriggerCell → TriggerCell) : (modTrig f s).trig = f s.trig := rfl

@[simp] theorem modSweeps_pending (f : SweepUnit → SweepUnit) : (modSweeps f s).pending = s.pending := rfl
@[simp] theorem modSweeps_mem (f : SweepUnit → SweepUnit) : (modSweeps f s).mem = s.mem := rfl
@[simp] theorem modSweeps_bus (f : SweepUnit → SweepUnit) : (modSweeps f s).bus = s.bus := rfl
@[simp] theorem modSweeps_cable (f : SweepUnit → SweepUnit) : (modSweeps f s).cable = s.cable := rfl
@[simp] theorem modSweeps_chain (f : SweepUnit → SweepUnit) : (modSweeps f s).chain = s.chain := rfl
@[simp] theorem modSweeps_power (f : SweepUnit → SweepUnit) : (modSweeps f s).power = s.power := rfl
@[simp] theorem modSweeps_trig (f : SweepUnit → SweepUnit) : (modSweeps f s).trig = s.trig := rfl
@[simp] theorem modSweeps_sets (f : SweepUnit → SweepUnit) : (modSweeps f s).sets = s.sets := rfl
@[simp] theorem modSweeps_ports (f : SweepUnit → SweepUnit) : (modSweeps f s).ports = s.ports := rfl

@[simp] theorem modSweeps_sweeps (f : SweepUnit → SweepUnit) : (modSweeps f s).sweeps = f s.sweeps := rfl

@[simp] theorem modSet_pending (k : SetId) (f : FrameSet → FrameSet) : (modSet k f s).pending = s.pending := rfl
@[simp] theorem modSet_mem (k : SetId) (f : FrameSet → FrameSet) : (modSet k f s).mem = s.mem := rfl
@[simp] theorem modSet_bus (k : SetId) (f : FrameSet → FrameSet) : (modSet k f s).bus = s.bus := rfl
@[simp] theorem modSet_cable (k : SetId) (f : FrameSet → FrameSet) : (modSet k f s).cable = s.cable := rfl
@[simp] theorem modSet_chain (k : SetId) (f : FrameSet → FrameSet) : (modSet k f s).chain = s.chain := rfl
@[simp] theorem modSet_power (k : SetId) (f : FrameSet → FrameSet) : (modSet k f s).power = s.power := rfl
@[simp] theorem modSet_trig (k : SetId) (f : FrameSet → FrameSet) : (modSet k f s).trig = s.trig := rfl
@[simp] theorem modSet_sweeps (k : SetId) (f : FrameSet → FrameSet) : (modSet k f s).sweeps = s.sweeps := rfl
@[simp] theorem modSet_ports (k : SetId) (f : FrameSet → FrameSet) : (modSet k f s).ports = s.ports := rfl

@[simp] theorem modPowerCell_pending (f : PowerCell → PowerCell) : (modPowerCell f s).pending = s.pending := rfl
@[simp] theorem modPowerCell_mem (f : PowerCell → PowerCell) : (modPowerCell f s).mem = s.mem := rfl
@[simp] theorem modPowerCell_bus (f : PowerCell → PowerCell) : (modPowerCell f s).bus = s.bus := rfl
@[simp] theorem modPowerCell_cable (f : PowerCell → PowerCell) : (modPowerCell f s).cable = s.cable := rfl
@[simp] theorem modPowerCell_trig (f : PowerCell → PowerCell) : (modPowerCell f s).trig = s.trig := rfl
@[simp] theorem modPowerCell_sets (f : PowerCell → PowerCell) : (modPowerCell f s).sets = s.sets := rfl
@[simp] theorem modPowerCell_sweeps (f : PowerCell → PowerCell) : (modPowerCell f s).sweeps = s.sweeps := rfl
@[simp] theorem modPowerCell_ports (f : PowerCell → PowerCell) : (modPowerCell f s).ports = s.ports := rfl

@[simp] theorem modPowerCell_power (f : PowerCell → PowerCell) : (modPowerCell f s).power = f s.power := rfl

@[simp] theorem dmaWrite_pending (a : Addr) (bs : List Byte) : (dmaWrite a bs s).pending = s.pending := rfl
@[simp] theorem dmaWrite_cable (a : Addr) (bs : List Byte) : (dmaWrite a bs s).cable = s.cable := rfl
@[simp] theorem dmaWrite_chain (a : Addr) (bs : List Byte) : (dmaWrite a bs s).chain = s.chain := rfl
@[simp] theorem dmaWrite_power (a : Addr) (bs : List Byte) : (dmaWrite a bs s).power = s.power := rfl
@[simp] theorem dmaWrite_trig (a : Addr) (bs : List Byte) : (dmaWrite a bs s).trig = s.trig := rfl
@[simp] theorem dmaWrite_sets (a : Addr) (bs : List Byte) : (dmaWrite a bs s).sets = s.sets := rfl
@[simp] theorem dmaWrite_sweeps (a : Addr) (bs : List Byte) : (dmaWrite a bs s).sweeps = s.sweeps := rfl
@[simp] theorem dmaWrite_ports (a : Addr) (bs : List Byte) : (dmaWrite a bs s).ports = s.ports := rfl

@[simp] theorem dmaWrite_mem (a : Addr) (bs : List Byte) : (dmaWrite a bs s).mem = writeBytes s.mem a bs := rfl
@[simp] theorem dmaWrite_bus (a : Addr) (bs : List Byte) : (dmaWrite a bs s).bus = .write a bs :: s.bus := rfl

@[simp] theorem sendMessage_pending (g : Group) : (sendMessage g s).pending = s.pending := rfl
@[simp] theorem sendMessage_mem (g : Group) : (sendMessage g s).mem = s.mem := rfl
@[simp] theorem sendMessage_cable (g : Group) : (sendMessage g s).cable = s.cable := rfl
@[simp] theorem sendMessage_chain (g : Group) : (sendMessage g s).chain = s.chain := rfl
@[simp] theorem sendMessage_power (g : Group) : (sendMessage g s).power = s.power := rfl
@[simp] theorem sendMessage_trig (g : Group) : (sendMessage g s).trig = s.trig := rfl
@[simp] theorem sendMessage_sets (g : Group) : (sendMessage g s).sets = s.sets := rfl
@[simp] theorem sendMessage_sweeps (g : Group) : (sendMessage g s).sweeps = s.sweeps := rfl
@[simp] theorem sendMessage_ports (g : Group) : (sendMessage g s).ports = s.ports := rfl

@[simp] theorem sendMessage_bus (g : Group) : (sendMessage g s).bus = .message g :: s.bus := rfl

@[simp] theorem sendSymbol_pending (y : Symbol) : (sendSymbol p y s).pending = s.pending := rfl
@[simp] theorem sendSymbol_mem (y : Symbol) : (sendSymbol p y s).mem = s.mem := rfl
@[simp] theorem sendSymbol_bus (y : Symbol) : (sendSymbol p y s).bus = s.bus := rfl
@[simp] theorem sendSymbol_chain (y : Symbol) : (sendSymbol p y s).chain = s.chain := rfl
@[simp] theorem sendSymbol_power (y : Symbol) : (sendSymbol p y s).power = s.power := rfl
@[simp] theorem sendSymbol_trig (y : Symbol) : (sendSymbol p y s).trig = s.trig := rfl
@[simp] theorem sendSymbol_sets (y : Symbol) : (sendSymbol p y s).sets = s.sets := rfl
@[simp] theorem sendSymbol_sweeps (y : Symbol) : (sendSymbol p y s).sweeps = s.sweeps := rfl
@[simp] theorem sendSymbol_ports (y : Symbol) : (sendSymbol p y s).ports = s.ports := rfl

@[simp] theorem sendSymbol_cable (y : Symbol) : (sendSymbol p y s).cable = ⟨p, y⟩ :: s.cable := rfl

/-! ## One port after an update -/

theorem getElem_set_port (v : Vector Port 8) (x : Port) : (v.set p x)[q] = if q = p then x else v[q] := by
  by_cases h : q = p
  · subst h; simp
  · have : p.val ≠ q.val := fun e => h (Fin.ext e.symm)
    simp [h, this, Vector.getElem_set]

/-- The updated port, and every other port as before. -/
theorem modPort_port (f : Port → Port) : (modPort p f s).port q =
    if q = p then { f (s.port p) with
      mirrorDue := (s.port p).mirrorDue || decide (mirrorKey (f (s.port p)) ≠ mirrorKey (s.port p)) }
    else s.port q := by
  unfold modPort State.port
  exact getElem_set_port p q _ _

@[simp] theorem modPort_port_other (f : Port → Port) (h : q ≠ p) : (modPort p f s).port q = s.port q := by
  simp [modPort_port, h]

/-- Making a mirror due changes nothing else of a port. -/
theorem touchPort_port : (touchPort p s).port q = if q = p then { s.port p with mirrorDue := true } else s.port q := by
  unfold touchPort State.port
  exact getElem_set_port p q _ _

theorem dropPortDue_port :
    (dropPortDue p s).port q = if q = p then { s.port p with mirrorDue := false } else s.port q := by
  unfold dropPortDue State.port
  exact getElem_set_port p q _ _

@[simp] theorem modPower_port_other (f : PortPower → PortPower) (h : q ≠ p) : (modPower p f s).port q = s.port q :=
  modPort_port_other s p q _ h
@[simp] theorem modPower_port_self (f : PortPower → PortPower) : ((modPower p f s).port p).power = f (s.port p).power := by
  simp [modPower, modPort_port]
@[simp] theorem modPower_port_link (f : PortPower → PortPower) : ((modPower p f s).port q).link = (s.port q).link := by
  unfold modPower; rw [modPort_port]; split <;> simp_all
@[simp] theorem modPower_port_ctl (f : PortPower → PortPower) : ((modPower p f s).port q).ctl = (s.port q).ctl := by
  unfold modPower; rw [modPort_port]; split <;> simp_all
@[simp] theorem modPower_port_take (f : PortPower → PortPower) : ((modPower p f s).port q).take = (s.port q).take := by
  unfold modPower; rw [modPort_port]; split <;> simp_all
@[simp] theorem modPower_port_lens (f : PortPower → PortPower) : ((modPower p f s).port q).lens = (s.port q).lens := by
  unfold modPower; rw [modPort_port]; split <;> simp_all
@[simp] theorem modPower_port_frame (f : PortPower → PortPower) : ((modPower p f s).port q).frame = (s.port q).frame := by
  unfold modPower; rw [modPort_port]; split <;> simp_all
@[simp] theorem modPower_port_sweep (f : PortPower → PortPower) : ((modPower p f s).port q).sweep = (s.port q).sweep := by
  unfold modPower; rw [modPort_port]; split <;> simp_all
@[simp] theorem modPower_port_flex (f : PortPower → PortPower) : ((modPower p f s).port q).flex = (s.port q).flex := by
  unfold modPower; rw [modPort_port]; split <;> simp_all
@[simp] theorem modPower_port_alerts (f : PortPower → PortPower) : ((modPower p f s).port q).alerts = (s.port q).alerts := by
  unfold modPower; rw [modPort_port]; split <;> simp_all
@[simp] theorem modPower_port_mirrorCount (f : PortPower → PortPower) : ((modPower p f s).port q).mirrorCount = (s.port q).mirrorCount := by
  unfold modPower; rw [modPort_port]; split <;> simp_all

@[simp] theorem modLink_port_other (f : LinkRx → LinkRx) (h : q ≠ p) : (modLink p f s).port q = s.port q :=
  modPort_port_other s p q _ h
@[simp] theorem modLink_port_self (f : LinkRx → LinkRx) : ((modLink p f s).port p).link = f (s.port p).link := by
  simp [modLink, modPort_port]
@[simp] theorem modLink_port_power (f : LinkRx → LinkRx) : ((modLink p f s).port q).power = (s.port q).power := by
  unfold modLink; rw [modPort_port]; split <;> simp_all
@[simp] theorem modLink_port_ctl (f : LinkRx → LinkRx) : ((modLink p f s).port q).ctl = (s.port q).ctl := by
  unfold modLink; rw [modPort_port]; split <;> simp_all
@[simp] theorem modLink_port_take (f : LinkRx → LinkRx) : ((modLink p f s).port q).take = (s.port q).take := by
  unfold modLink; rw [modPort_port]; split <;> simp_all
@[simp] theorem modLink_port_lens (f : LinkRx → LinkRx) : ((modLink p f s).port q).lens = (s.port q).lens := by
  unfold modLink; rw [modPort_port]; split <;> simp_all
@[simp] theorem modLink_port_frame (f : LinkRx → LinkRx) : ((modLink p f s).port q).frame = (s.port q).frame := by
  unfold modLink; rw [modPort_port]; split <;> simp_all
@[simp] theorem modLink_port_sweep (f : LinkRx → LinkRx) : ((modLink p f s).port q).sweep = (s.port q).sweep := by
  unfold modLink; rw [modPort_port]; split <;> simp_all
@[simp] theorem modLink_port_flex (f : LinkRx → LinkRx) : ((modLink p f s).port q).flex = (s.port q).flex := by
  unfold modLink; rw [modPort_port]; split <;> simp_all
@[simp] theorem modLink_port_alerts (f : LinkRx → LinkRx) : ((modLink p f s).port q).alerts = (s.port q).alerts := by
  unfold modLink; rw [modPort_port]; split <;> simp_all
@[simp] theorem modLink_port_mirrorCount (f : LinkRx → LinkRx) : ((modLink p f s).port q).mirrorCount = (s.port q).mirrorCount := by
  unfold modLink; rw [modPort_port]; split <;> simp_all

@[simp] theorem modCtl_port_other (f : Channel → Channel) (h : q ≠ p) : (modCtl p f s).port q = s.port q :=
  modPort_port_other s p q _ h
@[simp] theorem modCtl_port_self (f : Channel → Channel) : ((modCtl p f s).port p).ctl = f (s.port p).ctl := by
  simp [modCtl, modPort_port]
@[simp] theorem modCtl_port_power (f : Channel → Channel) : ((modCtl p f s).port q).power = (s.port q).power := by
  unfold modCtl; rw [modPort_port]; split <;> simp_all
@[simp] theorem modCtl_port_link (f : Channel → Channel) : ((modCtl p f s).port q).link = (s.port q).link := by
  unfold modCtl; rw [modPort_port]; split <;> simp_all
@[simp] theorem modCtl_port_take (f : Channel → Channel) : ((modCtl p f s).port q).take = (s.port q).take := by
  unfold modCtl; rw [modPort_port]; split <;> simp_all
@[simp] theorem modCtl_port_lens (f : Channel → Channel) : ((modCtl p f s).port q).lens = (s.port q).lens := by
  unfold modCtl; rw [modPort_port]; split <;> simp_all
@[simp] theorem modCtl_port_frame (f : Channel → Channel) : ((modCtl p f s).port q).frame = (s.port q).frame := by
  unfold modCtl; rw [modPort_port]; split <;> simp_all
@[simp] theorem modCtl_port_sweep (f : Channel → Channel) : ((modCtl p f s).port q).sweep = (s.port q).sweep := by
  unfold modCtl; rw [modPort_port]; split <;> simp_all
@[simp] theorem modCtl_port_flex (f : Channel → Channel) : ((modCtl p f s).port q).flex = (s.port q).flex := by
  unfold modCtl; rw [modPort_port]; split <;> simp_all
@[simp] theorem modCtl_port_alerts (f : Channel → Channel) : ((modCtl p f s).port q).alerts = (s.port q).alerts := by
  unfold modCtl; rw [modPort_port]; split <;> simp_all
@[simp] theorem modCtl_port_mirrorCount (f : Channel → Channel) : ((modCtl p f s).port q).mirrorCount = (s.port q).mirrorCount := by
  unfold modCtl; rw [modPort_port]; split <;> simp_all

@[simp] theorem modTake_port_other (f : Taker → Taker) (h : q ≠ p) : (modTake p f s).port q = s.port q :=
  modPort_port_other s p q _ h
@[simp] theorem modTake_port_self (f : Taker → Taker) : ((modTake p f s).port p).take = f (s.port p).take := by
  simp [modTake, modPort_port]
@[simp] theorem modTake_port_power (f : Taker → Taker) : ((modTake p f s).port q).power = (s.port q).power := by
  unfold modTake; rw [modPort_port]; split <;> simp_all
@[simp] theorem modTake_port_link (f : Taker → Taker) : ((modTake p f s).port q).link = (s.port q).link := by
  unfold modTake; rw [modPort_port]; split <;> simp_all
@[simp] theorem modTake_port_ctl (f : Taker → Taker) : ((modTake p f s).port q).ctl = (s.port q).ctl := by
  unfold modTake; rw [modPort_port]; split <;> simp_all
@[simp] theorem modTake_port_lens (f : Taker → Taker) : ((modTake p f s).port q).lens = (s.port q).lens := by
  unfold modTake; rw [modPort_port]; split <;> simp_all
@[simp] theorem modTake_port_frame (f : Taker → Taker) : ((modTake p f s).port q).frame = (s.port q).frame := by
  unfold modTake; rw [modPort_port]; split <;> simp_all
@[simp] theorem modTake_port_sweep (f : Taker → Taker) : ((modTake p f s).port q).sweep = (s.port q).sweep := by
  unfold modTake; rw [modPort_port]; split <;> simp_all
@[simp] theorem modTake_port_flex (f : Taker → Taker) : ((modTake p f s).port q).flex = (s.port q).flex := by
  unfold modTake; rw [modPort_port]; split <;> simp_all
@[simp] theorem modTake_port_alerts (f : Taker → Taker) : ((modTake p f s).port q).alerts = (s.port q).alerts := by
  unfold modTake; rw [modPort_port]; split <;> simp_all
@[simp] theorem modTake_port_mirrorCount (f : Taker → Taker) : ((modTake p f s).port q).mirrorCount = (s.port q).mirrorCount := by
  unfold modTake; rw [modPort_port]; split <;> simp_all

@[simp] theorem modLens_port_other (f : LensState → LensState) (h : q ≠ p) : (modLens p f s).port q = s.port q :=
  modPort_port_other s p q _ h
@[simp] theorem modLens_port_self (f : LensState → LensState) : ((modLens p f s).port p).lens = f (s.port p).lens := by
  simp [modLens, modPort_port]
@[simp] theorem modLens_port_power (f : LensState → LensState) : ((modLens p f s).port q).power = (s.port q).power := by
  unfold modLens; rw [modPort_port]; split <;> simp_all
@[simp] theorem modLens_port_link (f : LensState → LensState) : ((modLens p f s).port q).link = (s.port q).link := by
  unfold modLens; rw [modPort_port]; split <;> simp_all
@[simp] theorem modLens_port_ctl (f : LensState → LensState) : ((modLens p f s).port q).ctl = (s.port q).ctl := by
  unfold modLens; rw [modPort_port]; split <;> simp_all
@[simp] theorem modLens_port_take (f : LensState → LensState) : ((modLens p f s).port q).take = (s.port q).take := by
  unfold modLens; rw [modPort_port]; split <;> simp_all
@[simp] theorem modLens_port_frame (f : LensState → LensState) : ((modLens p f s).port q).frame = (s.port q).frame := by
  unfold modLens; rw [modPort_port]; split <;> simp_all
@[simp] theorem modLens_port_sweep (f : LensState → LensState) : ((modLens p f s).port q).sweep = (s.port q).sweep := by
  unfold modLens; rw [modPort_port]; split <;> simp_all
@[simp] theorem modLens_port_flex (f : LensState → LensState) : ((modLens p f s).port q).flex = (s.port q).flex := by
  unfold modLens; rw [modPort_port]; split <;> simp_all
@[simp] theorem modLens_port_alerts (f : LensState → LensState) : ((modLens p f s).port q).alerts = (s.port q).alerts := by
  unfold modLens; rw [modPort_port]; split <;> simp_all
@[simp] theorem modLens_port_mirrorCount (f : LensState → LensState) : ((modLens p f s).port q).mirrorCount = (s.port q).mirrorCount := by
  unfold modLens; rw [modPort_port]; split <;> simp_all

@[simp] theorem modFrame_port_other (f : FrameRx → FrameRx) (h : q ≠ p) : (modFrame p f s).port q = s.port q :=
  modPort_port_other s p q _ h
@[simp] theorem modFrame_port_self (f : FrameRx → FrameRx) : ((modFrame p f s).port p).frame = f (s.port p).frame := by
  simp [modFrame, modPort_port]
@[simp] theorem modFrame_port_power (f : FrameRx → FrameRx) : ((modFrame p f s).port q).power = (s.port q).power := by
  unfold modFrame; rw [modPort_port]; split <;> simp_all
@[simp] theorem modFrame_port_link (f : FrameRx → FrameRx) : ((modFrame p f s).port q).link = (s.port q).link := by
  unfold modFrame; rw [modPort_port]; split <;> simp_all
@[simp] theorem modFrame_port_ctl (f : FrameRx → FrameRx) : ((modFrame p f s).port q).ctl = (s.port q).ctl := by
  unfold modFrame; rw [modPort_port]; split <;> simp_all
@[simp] theorem modFrame_port_take (f : FrameRx → FrameRx) : ((modFrame p f s).port q).take = (s.port q).take := by
  unfold modFrame; rw [modPort_port]; split <;> simp_all
@[simp] theorem modFrame_port_lens (f : FrameRx → FrameRx) : ((modFrame p f s).port q).lens = (s.port q).lens := by
  unfold modFrame; rw [modPort_port]; split <;> simp_all
@[simp] theorem modFrame_port_sweep (f : FrameRx → FrameRx) : ((modFrame p f s).port q).sweep = (s.port q).sweep := by
  unfold modFrame; rw [modPort_port]; split <;> simp_all
@[simp] theorem modFrame_port_flex (f : FrameRx → FrameRx) : ((modFrame p f s).port q).flex = (s.port q).flex := by
  unfold modFrame; rw [modPort_port]; split <;> simp_all
@[simp] theorem modFrame_port_alerts (f : FrameRx → FrameRx) : ((modFrame p f s).port q).alerts = (s.port q).alerts := by
  unfold modFrame; rw [modPort_port]; split <;> simp_all
@[simp] theorem modFrame_port_mirrorCount (f : FrameRx → FrameRx) : ((modFrame p f s).port q).mirrorCount = (s.port q).mirrorCount := by
  unfold modFrame; rw [modPort_port]; split <;> simp_all

@[simp] theorem modSweep_port_other (f : PortSweep → PortSweep) (h : q ≠ p) : (modSweep p f s).port q = s.port q :=
  modPort_port_other s p q _ h
@[simp] theorem modSweep_port_self (f : PortSweep → PortSweep) : ((modSweep p f s).port p).sweep = f (s.port p).sweep := by
  simp [modSweep, modPort_port]
@[simp] theorem modSweep_port_power (f : PortSweep → PortSweep) : ((modSweep p f s).port q).power = (s.port q).power := by
  unfold modSweep; rw [modPort_port]; split <;> simp_all
@[simp] theorem modSweep_port_link (f : PortSweep → PortSweep) : ((modSweep p f s).port q).link = (s.port q).link := by
  unfold modSweep; rw [modPort_port]; split <;> simp_all
@[simp] theorem modSweep_port_ctl (f : PortSweep → PortSweep) : ((modSweep p f s).port q).ctl = (s.port q).ctl := by
  unfold modSweep; rw [modPort_port]; split <;> simp_all
@[simp] theorem modSweep_port_take (f : PortSweep → PortSweep) : ((modSweep p f s).port q).take = (s.port q).take := by
  unfold modSweep; rw [modPort_port]; split <;> simp_all
@[simp] theorem modSweep_port_lens (f : PortSweep → PortSweep) : ((modSweep p f s).port q).lens = (s.port q).lens := by
  unfold modSweep; rw [modPort_port]; split <;> simp_all
@[simp] theorem modSweep_port_frame (f : PortSweep → PortSweep) : ((modSweep p f s).port q).frame = (s.port q).frame := by
  unfold modSweep; rw [modPort_port]; split <;> simp_all
@[simp] theorem modSweep_port_flex (f : PortSweep → PortSweep) : ((modSweep p f s).port q).flex = (s.port q).flex := by
  unfold modSweep; rw [modPort_port]; split <;> simp_all
@[simp] theorem modSweep_port_alerts (f : PortSweep → PortSweep) : ((modSweep p f s).port q).alerts = (s.port q).alerts := by
  unfold modSweep; rw [modPort_port]; split <;> simp_all
@[simp] theorem modSweep_port_mirrorCount (f : PortSweep → PortSweep) : ((modSweep p f s).port q).mirrorCount = (s.port q).mirrorCount := by
  unfold modSweep; rw [modPort_port]; split <;> simp_all

@[simp] theorem modFlex_port_other (f : FlexMap → FlexMap) (h : q ≠ p) : (modFlex p f s).port q = s.port q :=
  modPort_port_other s p q _ h
@[simp] theorem modFlex_port_self (f : FlexMap → FlexMap) : ((modFlex p f s).port p).flex = f (s.port p).flex := by
  simp [modFlex, modPort_port]
@[simp] theorem modFlex_port_power (f : FlexMap → FlexMap) : ((modFlex p f s).port q).power = (s.port q).power := by
  unfold modFlex; rw [modPort_port]; split <;> simp_all
@[simp] theorem modFlex_port_link (f : FlexMap → FlexMap) : ((modFlex p f s).port q).link = (s.port q).link := by
  unfold modFlex; rw [modPort_port]; split <;> simp_all
@[simp] theorem modFlex_port_ctl (f : FlexMap → FlexMap) : ((modFlex p f s).port q).ctl = (s.port q).ctl := by
  unfold modFlex; rw [modPort_port]; split <;> simp_all
@[simp] theorem modFlex_port_take (f : FlexMap → FlexMap) : ((modFlex p f s).port q).take = (s.port q).take := by
  unfold modFlex; rw [modPort_port]; split <;> simp_all
@[simp] theorem modFlex_port_lens (f : FlexMap → FlexMap) : ((modFlex p f s).port q).lens = (s.port q).lens := by
  unfold modFlex; rw [modPort_port]; split <;> simp_all
@[simp] theorem modFlex_port_frame (f : FlexMap → FlexMap) : ((modFlex p f s).port q).frame = (s.port q).frame := by
  unfold modFlex; rw [modPort_port]; split <;> simp_all
@[simp] theorem modFlex_port_sweep (f : FlexMap → FlexMap) : ((modFlex p f s).port q).sweep = (s.port q).sweep := by
  unfold modFlex; rw [modPort_port]; split <;> simp_all
@[simp] theorem modFlex_port_alerts (f : FlexMap → FlexMap) : ((modFlex p f s).port q).alerts = (s.port q).alerts := by
  unfold modFlex; rw [modPort_port]; split <;> simp_all
@[simp] theorem modFlex_port_mirrorCount (f : FlexMap → FlexMap) : ((modFlex p f s).port q).mirrorCount = (s.port q).mirrorCount := by
  unfold modFlex; rw [modPort_port]; split <;> simp_all

/-! ## Reads that an update of another field keeps -/

@[simp] theorem modChain_port (f : ChainEngine → ChainEngine) : (modChain f s).port q = s.port q := rfl
@[simp] theorem modTrig_port (f : TriggerCell → TriggerCell) : (modTrig f s).port q = s.port q := rfl
@[simp] theorem modSweeps_port (f : SweepUnit → SweepUnit) : (modSweeps f s).port q = s.port q := rfl
@[simp] theorem modSet_port (k : SetId) (f : FrameSet → FrameSet) : (modSet k f s).port q = s.port q := rfl
@[simp] theorem modPowerCell_port (f : PowerCell → PowerCell) : (modPowerCell f s).port q = s.port q := rfl
@[simp] theorem dmaWrite_port (a : Addr) (bs : List Byte) : (dmaWrite a bs s).port q = s.port q := rfl
@[simp] theorem sendMessage_port (g : Group) : (sendMessage g s).port q = s.port q := rfl
@[simp] theorem sendSymbol_port (y : Symbol) : (sendSymbol p y s).port q = s.port q := rfl

end Sys2Proof.Machine
end

