-- ==== Sys2Proof/Laws/Ops.lean ====
section
/-! SUPPORT. What the shared operations can do: DMA writes and messages, causes and gathering, alerts, completions and mirrors.
Callers cite these and do not unfold the operations. -/

namespace Sys2Proof.Machine

/-! ## DMA -/

theorem applyBus_append (new old : List BusEvent) (m : List Host.Cell) :
    applyBus (new ++ old) m = applyBus new (applyBus old m) := by
  induction new with
  | nil => rfl
  | cons e t ih => cases e <;> simp [applyBus, ih]

theorem memWf_applyBus (es : List BusEvent) {m : List Host.Cell} (h : memWf m = true) : memWf (applyBus es m) = true := by
  induction es with
  | nil => exact h
  | cons e t ih =>
    cases e with
    | write a bs => exact memWf_writeBytes a bs ih
    | message g => exact ih

theorem DmaOnly.refl (s : State) : DmaOnly s s := ⟨[], rfl, rfl⟩

theorem DmaOnly.trans {s t u : State} (h : DmaOnly s t) (h' : DmaOnly t u) : DmaOnly s u := by
  obtain ⟨n, hb, hm⟩ := h
  obtain ⟨n', hb', hm'⟩ := h'
  exact ⟨n' ++ n, by rw [hb', hb, List.append_assoc], by rw [hm', hm, applyBus_append]⟩

/-- What changes memory only by logged writes keeps its canonical form. -/
theorem DmaOnly.memWf {s t : State} (h : DmaOnly s t) (hs : memWf s.mem = true) : memWf t.mem = true := by
  obtain ⟨n, _, hm⟩ := h
  rw [hm]; exact memWf_applyBus n hs

/-- An update that touches neither memory nor the bus log. -/
theorem DmaOnly.of_eq {s t : State} (hb : t.bus = s.bus) (hm : t.mem = s.mem) : DmaOnly s t := ⟨[], hb, hm⟩

theorem dmaOnly_dmaWrite (a : Addr) (bs : List Byte) (s : State) : DmaOnly s (dmaWrite a bs s) :=
  ⟨[.write a bs], rfl, rfl⟩

theorem dmaOnly_sendMessage (g : Group) (s : State) : DmaOnly s (sendMessage g s) := ⟨[.message g], rfl, rfl⟩

theorem dmaOnly_foldl {α : Type} (f : State → α → State) (hf : ∀ s x, DmaOnly s (f s x)) (l : List α) (s : State) :
    DmaOnly s (l.foldl f s) := by
  induction l generalizing s with
  | nil => exact .refl s
  | cons x t ih => exact (hf s x).trans (ih (f s x))

theorem dmaOnly_forPorts (ps : List PortId) (f : PortId → State → State) (hf : ∀ p s, DmaOnly s (f p s)) (s : State) :
    DmaOnly s (forPorts ps f s) := dmaOnly_foldl (fun t p => f p t) (fun t p => hf p t) ps s

/-! ## What the Chain Engine's completions keep -/

/-- Everything but host memory, the bus log, and the Chain Engine's progress, records in hand, causes and gathering. -/
structure CardKept (s t : State) : Prop where
  pending : t.pending = s.pending
  cable : t.cable = s.cable
  power : t.power = s.power
  trig : t.trig = s.trig
  sets : t.sets = s.sets
  sweeps : t.sweeps = s.sweeps
  ports : t.ports = s.ports
  run : t.chain.run = s.chain.run
  cell : t.chain.cell = s.chain.cell
  block : t.chain.block = s.chain.block
  portCount : t.chain.portCount = s.chain.portCount
  cursors : t.chain.cursors = s.chain.cursors
  walking : t.chain.walking = s.chain.walking
  tapPending : t.chain.tapPending = s.chain.tapPending
  enable : t.chain.enable = s.chain.enable
  cellAlerts : t.chain.cellAlerts = s.chain.cellAlerts
  mirrorDue : t.chain.mirrorDue = s.chain.mirrorDue
  mirrorCount : t.chain.mirrorCount = s.chain.mirrorCount

theorem CardKept.refl (s : State) : CardKept s s :=
  ⟨rfl, rfl, rfl, rfl, rfl, rfl, rfl, rfl, rfl, rfl, rfl, rfl, rfl, rfl, rfl, rfl, rfl, rfl⟩

theorem CardKept.trans {s t u : State} (h : CardKept s t) (g : CardKept t u) : CardKept s u :=
  ⟨g.pending.trans h.pending, g.cable.trans h.cable, g.power.trans h.power, g.trig.trans h.trig, g.sets.trans h.sets,
    g.sweeps.trans h.sweeps, g.ports.trans h.ports, g.run.trans h.run, g.cell.trans h.cell, g.block.trans h.block,
    g.portCount.trans h.portCount, g.cursors.trans h.cursors, g.walking.trans h.walking, g.tapPending.trans h.tapPending,
    g.enable.trans h.enable, g.cellAlerts.trans h.cellAlerts, g.mirrorDue.trans h.mirrorDue,
    g.mirrorCount.trans h.mirrorCount⟩

theorem CardKept.port {s t : State} (h : CardKept s t) (p : PortId) : t.port p = s.port p := by
  unfold State.port; rw [h.ports]

theorem cardKept_dmaWrite (a : Addr) (bs : List Byte) (s : State) : CardKept s (dmaWrite a bs s) :=
  ⟨rfl, rfl, rfl, rfl, rfl, rfl, rfl, rfl, rfl, rfl, rfl, rfl, rfl, rfl, rfl, rfl, rfl, rfl⟩

theorem cardKept_sendMessage (g : Group) (s : State) : CardKept s (sendMessage g s) :=
  ⟨rfl, rfl, rfl, rfl, rfl, rfl, rfl, rfl, rfl, rfl, rfl, rfl, rfl, rfl, rfl, rfl, rfl, rfl⟩

/-! ## Causes and gathering -/

/-- What setting a cause can do: nothing when the bit is set; the bit alone when the group is not enabled; the bit and its
message when it is. -/
theorem setCause_cases (g : Group) (s : State) :
    (s.chain.cause.getLsbD (groupBit g) = true ∧ setCause g s = s) ∨
    (s.chain.cause.getLsbD (groupBit g) = false ∧
      ∃ t, t = modChain (fun c => { c with cause := c.cause ||| BitVec.twoPow 3 (groupBit g) }) s ∧
        setCause g s = if s.chain.enable.getLsbD (groupBit g) then sendMessage g t else t) := by
  unfold setCause
  cases h : s.chain.cause.getLsbD (groupBit g)
  · exact Or.inr ⟨rfl, _, rfl, by simp⟩
  · exact Or.inl ⟨rfl, by simp⟩

theorem cardKept_setCause (g : Group) (s : State) : CardKept s (setCause g s) := by
  unfold setCause
  split
  · exact .refl s
  · dsimp only
    split <;>
      exact ⟨rfl, rfl, rfl, rfl, rfl, rfl, rfl, rfl, rfl, rfl, rfl, rfl, rfl, rfl, rfl, rfl, rfl, rfl⟩

theorem dmaOnly_setCause (g : Group) (s : State) : DmaOnly s (setCause g s) := by
  unfold setCause
  split
  · exact .refl s
  · dsimp only
    split
    · exact ⟨[.message g], rfl, rfl⟩
    · exact .of_eq rfl rfl

@[simp] theorem setCause_mem (g : Group) (s : State) : (setCause g s).mem = s.mem := by
  unfold setCause; split
  · rfl
  · dsimp only; split <;> rfl

theorem cardKept_setGather (g : GatherGroup) (x : Gather) (s : State) : CardKept s (modChain (setGatherOf g x) s) := by
  cases g <;> exact ⟨rfl, rfl, rfl, rfl, rfl, rfl, rfl, rfl, rfl, rfl, rfl, rfl, rfl, rfl, rfl, rfl, rfl, rfl⟩

theorem cardKept_countToward (g : GatherGroup) (s : State) : CardKept s (countToward g s) := by
  unfold countToward
  dsimp only
  split
  · exact (cardKept_setGather g _ s).trans (cardKept_setCause _ _)
  · split <;> exact cardKept_setGather g _ s

theorem dmaOnly_countToward (g : GatherGroup) (s : State) : DmaOnly s (countToward g s) := by
  unfold countToward
  dsimp only
  split
  · exact (DmaOnly.of_eq rfl rfl).trans (dmaOnly_setCause _ _)
  · split <;> exact .of_eq rfl rfl

/-! ## Completions -/

theorem cardKept_writeRecordState (a : Addr) (st : RecordState) (s : State) : CardKept s (writeRecordState a st s) :=
  cardKept_dmaWrite _ _ _

theorem dmaOnly_writeRecordState (a : Addr) (st : RecordState) (s : State) : DmaOnly s (writeRecordState a st s) :=
  dmaOnly_dmaWrite _ _ _

theorem cardKept_finishState (a : Addr) (ok : Bool) (s : State) : CardKept s (finishState a ok s) :=
  (cardKept_writeRecordState a _ s).trans
    ⟨rfl, rfl, rfl, rfl, rfl, rfl, rfl, rfl, rfl, rfl, rfl, rfl, rfl, rfl, rfl, rfl, rfl, rfl⟩

theorem dmaOnly_finishState (a : Addr) (ok : Bool) (s : State) : DmaOnly s (finishState a ok s) :=
  (dmaOnly_writeRecordState a _ s).trans (.of_eq rfl rfl)

theorem cardKept_advanceProgress (ch : ChainId) (a : Addr) (s : State) : CardKept s (advanceProgress ch a s) :=
  ⟨rfl, rfl, rfl, rfl, rfl, rfl, rfl, rfl, rfl, rfl, rfl, rfl, rfl, rfl, rfl, rfl, rfl, rfl⟩

theorem dmaOnly_advanceProgress (ch : ChainId) (a : Addr) (s : State) : DmaOnly s (advanceProgress ch a s) := by
  unfold advanceProgress
  exact ((DmaOnly.of_eq rfl rfl).trans (dmaOnly_dmaWrite _ _ _)).trans (dmaOnly_dmaWrite _ _ _)

theorem cardKept_finishCount (ch : ChainId) (a : Addr) (s : State) : CardKept s (finishCount ch a s) :=
  (cardKept_advanceProgress ch a s).trans (cardKept_countToward _ _)

theorem dmaOnly_finishCount (ch : ChainId) (a : Addr) (s : State) : DmaOnly s (finishCount ch a s) :=
  (dmaOnly_advanceProgress ch a s).trans (dmaOnly_countToward _ _)

theorem cardKept_completeRecord (ch : ChainId) (a : Addr) (ok : Bool) (s : State) : CardKept s (completeRecord ch a ok s) :=
  (cardKept_finishState a ok s).trans (cardKept_finishCount ch a _)

theorem dmaOnly_completeRecord (ch : ChainId) (a : Addr) (ok : Bool) (s : State) : DmaOnly s (completeRecord ch a ok s) :=
  (dmaOnly_finishState a ok s).trans (dmaOnly_finishCount ch a _)

theorem cardKept_writeResult (a : Addr) (off : Nat) (bs : List Byte) (s : State) : CardKept s (writeResult a off bs s) :=
  cardKept_dmaWrite _ _ _

theorem dmaOnly_writeResult (a : Addr) (off : Nat) (bs : List Byte) (s : State) : DmaOnly s (writeResult a off bs s) :=
  dmaOnly_dmaWrite _ _ _

/-- A completed command record changes nothing of the card but progress, records in hand, causes and gathering. -/
theorem cardKept_completeCommand (a : Addr) (c : Code) (r : List Byte) (s : State) : CardKept s (completeCommand a c r s) :=
  ((cardKept_writeResult a _ _ s).trans (cardKept_writeResult a _ _ _)).trans (cardKept_completeRecord _ a _ _)

theorem dmaOnly_completeCommand (a : Addr) (c : Code) (r : List Byte) (s : State) : DmaOnly s (completeCommand a c r s) :=
  ((dmaOnly_writeResult a _ _ s).trans (dmaOnly_writeResult a _ _ _)).trans (dmaOnly_completeRecord _ a _ _)

theorem cardKept_completeLens (p : PortId) (a : Addr) (c : Code) (source : SourceId) (trigger : U32) (o : LensOutcome)
    (fl : BitVec 4) (ts : List Target) (b e : U64) (s : State) :
    CardKept s (completeLens p a c source trigger o fl ts b e s) :=
  (cardKept_writeResult a _ _ s).trans (cardKept_completeRecord _ a _ _)

theorem dmaOnly_completeLens (p : PortId) (a : Addr) (c : Code) (source : SourceId) (trigger : U32) (o : LensOutcome)
    (fl : BitVec 4) (ts : List Target) (b e : U64) (s : State) :
    DmaOnly s (completeLens p a c source trigger o fl ts b e s) :=
  (dmaOnly_writeResult a _ _ s).trans (dmaOnly_completeRecord _ a _ _)

/-! ## Alerts -/

/-- Setting a port alert sets that bit, changes nothing else of any port but a mirror due, and touches neither memory nor any
other block. -/
theorem setPortAlert_port (p q : PortId) (bit : Nat) (s : State) :
    (setPortAlert p bit s).port q =
      if q = p ∧ (s.port p).alerts.getLsbD bit = false then
        (modPort p (fun x => { x with alerts := x.alerts ||| BitVec.twoPow 11 bit }) s).port p
      else s.port q := by
  unfold setPortAlert
  cases h : (s.port p).alerts.getLsbD bit
  · simp only [Bool.false_eq_true, if_false, and_true]
    rw [(cardKept_setCause _ _).port, modPort_port]
    split
    · simp [modPort_port]
    · rfl
  · simp

theorem dmaOnly_modPort (p : PortId) (f : Port → Port) (s : State) : DmaOnly s (modPort p f s) := .of_eq rfl rfl

theorem dmaOnly_setPortAlert (p : PortId) (bit : Nat) (s : State) : DmaOnly s (setPortAlert p bit s) := by
  unfold setPortAlert
  split
  · exact .refl s
  · exact (dmaOnly_modPort p _ s).trans (dmaOnly_setCause _ _)

theorem dmaOnly_setCellAlert (bit : Nat) (s : State) : DmaOnly s (setCellAlert bit s) := by
  unfold setCellAlert
  split
  · exact .refl s
  · exact (DmaOnly.of_eq rfl rfl).trans (dmaOnly_setCause _ _)

/-! ## Mirrors -/

theorem dmaOnly_writePortMirror (p : PortId) (s : State) : DmaOnly s (writePortMirror p s) := by
  unfold writePortMirror
  exact (DmaOnly.of_eq rfl rfl).trans (dmaOnly_dmaWrite _ _ _)

theorem dmaOnly_writeCellMirror (s : State) : DmaOnly s (writeCellMirror s) := by
  unfold writeCellMirror
  exact (DmaOnly.of_eq rfl rfl).trans (dmaOnly_dmaWrite _ _ _)

/-- The turn of a port's mirror at the end of a command: written, forgotten, or not due. -/
theorem flushPort_cases (p : PortId) (s : State) :
    ((s.port p).mirrorDue = true ∧ s.running = true ∧ flushPort p s = writePortMirror p s) ∨
    ((s.port p).mirrorDue = true ∧ s.running = false ∧ flushPort p s = dropPortDue p s) ∨
    ((s.port p).mirrorDue = false ∧ flushPort p s = s) := by
  unfold flushPort
  cases hd : (s.port p).mirrorDue
  · exact Or.inr (Or.inr ⟨rfl, if_neg (by simp)⟩)
  · cases hr : s.running
    · exact Or.inr (Or.inl ⟨rfl, rfl, by rw [if_pos rfl, if_neg (by simp)]⟩)
    · exact Or.inl ⟨rfl, rfl, by rw [if_pos rfl, if_pos rfl]⟩

theorem dmaOnly_flushPort (p : PortId) (s : State) : DmaOnly s (flushPort p s) := by
  rcases flushPort_cases p s with ⟨-, -, h⟩ | ⟨-, -, h⟩ | ⟨-, h⟩ <;> rw [h]
  · exact dmaOnly_writePortMirror p s
  · exact .of_eq rfl rfl
  · exact .refl s

/-- The end of a command: the port mirrors have their turn, then the cell mirror is written, forgotten, or not due. -/
theorem flushMirrors_cases (s : State) :
    flushMirrors s = writeCellMirror (forPorts allPorts flushPort s) ∨
    flushMirrors s = modChain (fun c => { c with mirrorDue := false }) (forPorts allPorts flushPort s) ∨
    ((forPorts allPorts flushPort s).chain.mirrorDue = false ∧ flushMirrors s = forPorts allPorts flushPort s) := by
  unfold flushMirrors
  generalize forPorts allPorts flushPort s = t
  cases hd : t.chain.mirrorDue
  · exact Or.inr (Or.inr ⟨rfl, by simp [hd]⟩)
  · cases hr : t.running
    · exact Or.inr (Or.inl (by simp [hd, hr]))
    · exact Or.inl (by simp [hd, hr])

theorem dmaOnly_flushMirrors (s : State) : DmaOnly s (flushMirrors s) := by
  have hp := dmaOnly_forPorts allPorts flushPort dmaOnly_flushPort s
  have hc := flushMirrors_cases s
  generalize forPorts allPorts flushPort s = t at hp hc
  rcases hc with h | h | ⟨-, h⟩ <;> rw [h]
  · exact hp.trans (dmaOnly_writeCellMirror t)
  · exact hp.trans (.of_eq (modChain_bus ..) (modChain_mem ..))
  · exact hp

/-- A port mirror's write keeps the ports, but for the write count and the due flag of its own port. -/
theorem writePortMirror_ports (p : PortId) (s : State) : (writePortMirror p s).ports =
    s.ports.set p { s.port p with mirrorCount := (s.port p).mirrorCount + 1, mirrorDue := false } := by
  unfold writePortMirror
  rw [dmaWrite_ports]

theorem writePortMirror_port (p q : PortId) (s : State) : (writePortMirror p s).port q =
    if q = p then { s.port p with mirrorCount := (s.port p).mirrorCount + 1, mirrorDue := false } else s.port q := by
  show (writePortMirror p s).ports[q] = _
  rw [writePortMirror_ports]
  exact getElem_set_port p q _ _

/-- A port after a mirror's turn at the end of a command: its mirror is not due, and nothing else has changed but the write
count. -/
theorem flushPort_port (p q : PortId) (s : State) : (flushPort p s).port q =
    if q = p ∧ (s.port p).mirrorDue = true then
      { s.port p with
        mirrorCount := if s.running = true then (s.port p).mirrorCount + 1 else (s.port p).mirrorCount, mirrorDue := false }
    else s.port q := by
  rcases flushPort_cases p s with ⟨hd, hr, h⟩ | ⟨hd, hr, h⟩ | ⟨hd, h⟩
  · rw [h, writePortMirror_port]
    by_cases e : q = p
    · rw [if_pos e, if_pos ⟨e, hd⟩, if_pos hr]
    · rw [if_neg e, if_neg fun x => e x.1]
  · rw [h, dropPortDue_port]
    by_cases e : q = p
    · rw [if_pos e, if_pos ⟨e, hd⟩, if_neg (by rw [hr]; exact Bool.false_ne_true)]
    · rw [if_neg e, if_neg fun x => e x.1]
  · rw [h, if_neg fun x => by rw [hd] at x; exact Bool.false_ne_true x.2]

/-! ## The order of a cell stop -/

theorem mem_insertEntry (x y : PortId × U32) (xs : List (PortId × U32)) : y ∈ insertEntry x xs ↔ y = x ∨ y ∈ xs := by
  induction xs with
  | nil => simp [insertEntry]
  | cons z zs ih =>
    unfold insertEntry
    split
    · simp
    · rw [List.mem_cons, ih, List.mem_cons]; exact or_left_comm

/-- An insertion keeps the ascending order of trigger numbers. -/
theorem insertEntry_ascends (x : PortId × U32) (xs : List (PortId × U32)) (h : xs.Pairwise fun a b => a.2 ≤ b.2) :
    (insertEntry x xs).Pairwise fun a b => a.2 ≤ b.2 := by
  induction xs with
  | nil => simp [insertEntry]
  | cons z zs ih =>
    obtain ⟨hz, hzs⟩ := List.pairwise_cons.mp h
    unfold insertEntry
    split <;> rename_i c
    · have hx := BitVec.le_of_lt c
      exact List.pairwise_cons.mpr ⟨fun b hb => (List.mem_cons.mp hb).elim (fun e => e ▸ hx) fun m => BitVec.le_trans hx (hz b m), h⟩
    · refine List.pairwise_cons.mpr ⟨fun b hb => ?_, ih hzs⟩
      rcases (mem_insertEntry x b zs).mp hb with rfl | m
      · exact BitVec.not_lt.mp c
      · exact hz b m

theorem foldl_insertEntry (xs acc : List (PortId × U32)) (h : acc.Pairwise fun a b => a.2 ≤ b.2) :
    ((xs.foldl (fun l x => insertEntry x l) acc).Pairwise fun a b => a.2 ≤ b.2) ∧
      ∀ y, y ∈ xs.foldl (fun l x => insertEntry x l) acc ↔ y ∈ xs ∨ y ∈ acc := by
  induction xs generalizing acc with
  | nil => exact ⟨h, by simp⟩
  | cons x xs ih =>
    obtain ⟨h1, h2⟩ := ih (insertEntry x acc) (insertEntry_ascends x acc h)
    refine ⟨h1, fun y => ?_⟩
    rw [List.foldl_cons, h2, mem_insertEntry, List.mem_cons]
    exact or_left_comm.trans or_assoc.symm

/-- A cell stop closes the entries of all ports in ascending trigger number (R122). -/
theorem allEntries_ascends (s : State) : (allEntries s).Pairwise fun a b => a.2 ≤ b.2 :=
  (foldl_insertEntry _ [] List.Pairwise.nil).1

/-- A cell stop closes the entries of every port and no others (R122). -/
theorem mem_allEntries (p : PortId) (n : U32) (s : State) :
    (p, n) ∈ allEntries s ↔ ∃ e ∈ (s.port p).frame.entries, e.trigger = n := by
  have hp : p ∈ allPorts := by revert p; decide
  rw [allEntries, (foldl_insertEntry _ [] List.Pairwise.nil).2, List.mem_flatMap]
  simp [entriesOf, hp]

end Sys2Proof.Machine
end

