-- ==== Sys2Proof/WellFormed.lean ====
section
/-! DEFINITION. When the operands of a command are of the kind its row names. The card judges operands by themselves (log 3):
an ill-formed command still has its effect; it is only filed under the wrong row. -/

namespace Sys2Proof

open Sys2Proof.Machine

/-- Can a record of the command chain stand at this address: not 0, and on a 64-byte boundary? (R181) -/
def recordAddress (a : Addr) : Bool := decide (a ≠ 0) && aligned64 a

/-- Are the bytes a burst that judges to a kind? (R25) -/
def burstIs (k : BurstKind) (bs : List Byte) : Bool := decide (burstKind (parseBurst bs) = k)

/-- Are the samples those of a sweep: 1, 2, 4, 8, 16, 32 or 64 repetitions of 2048 samples? (R143, R147) -/
def sweepSamples (reps : List (List (BitVec 14))) : Bool :=
  decide (averagesUsed reps.length = reps.length) && reps.all fun r => decide (r.length = sampleCount)

/-- Is a command well formed? -/
def Instr.wellFormed : Instr → Bool
  | .cellStart value _ => value.getLsbD 0
  | .cellStop value => !value.getLsbD 0
  | .cellStopped => true
  | .blockAddressWrite _ _ => true
  | .tap _ _ => true
  | .causeClear _ => true
  | .causeEnableWrite _ => true
  | .registerWriteIgnored access => accessIgnored access
  | .hardReset _ => true
  | .portPowerOn a _ => recordAddress a
  | .portPowerOff a _ => recordAddress a
  | .setBudget a _ => recordAddress a
  | .configurePort a _ _ => recordAddress a
  | .resetPort a _ => recordAddress a
  | .clearAlerts a _ _ _ => recordAddress a
  | .setGather a _ _ _ => recordAddress a
  | .headAccess a _ _ => recordAddress a
  | .setSource a _ => recordAddress a
  | .setPattern a _ _ _ => recordAddress a
  | .softTrigger a _ => recordAddress a
  | .setAxisPosition a _ _ => recordAddress a
  | .setLensTable a _ _ => recordAddress a
  | .formSet a _ _ => recordAddress a
  | .dissolveSet a _ => recordAddress a
  | .cableSweep a _ _ => recordAddress a
  | .setFlexAxis a _ _ _ _ _ => recordAddress a
  | .readFlexMap a _ => recordAddress a
  | .clearFlexMap a _ => recordAddress a
  | .releaseSnapshot a _ => recordAddress a
  | .detectComplete _ _ => true
  | .inrushComplete _ => true
  | .inrushTimeout _ => true
  | .foldbackEntry _ _ => true
  | .foldbackReturn _ _ => true
  | .foldbackTimeout _ => true
  | .shortThreshold _ _ => true
  | .cooldownExpiry _ => true
  | .supplyLow mv => decide (mv.toNat < supplyLowMv)
  | .supplyRestored mv => decide (supplyOkMv ≤ mv.toNat)
  | .huntExactMark _ mark => (judgeMark mark).isSome
  | .confirmMark _ _ => true
  | .lockedMark _ _ => true
  | .recoveryWindowClose _ => true
  | .carrierLoss _ => true
  | .carrierReturn _ => true
  | .confirmBurstEnd _ _ => true
  | .frameOpen _ burst => burstIs .frameOpen burst
  | .line _ burst => burstIs .line burst
  | .frameClose _ burst => burstIs .frameClose burst
  | .fillBurst _ burst => burstIs .fill burst
  | .damagedBurst _ _ => true
  | .frameTimeout _ _ => true
  | .unitAnswer _ _ => true
  | .holdSign _ => true
  | .holdAnswer _ _ => true
  | .readDataWord _ _ => true
  | .replyTimeout _ => true
  | .holdLimit _ => true
  | .noteStart _ _ => true
  | .overtempNote _ => true
  | .lensFaultNote _ unit => (unitOf unit.toNat).isSome
  | .headRestartedNote _ => true
  | .noteDiscarded _ => true
  | .noteTimeout _ => true
  | .pingRetryTimeout _ => true
  | .axisCount _ _ _ => true
  | .inputRise _ => true
  | .inputFall _ => true
  | .debounceExpiry _ => true
  | .lensDeadline _ => true
  | .sweepComplete samples => sweepSamples samples
  | .gatherTimeout _ => true
  | .runChangeInStoppingOrFault _ => true

end Sys2Proof
end

