-- ==== Sys2Proof/Tests/Slice0.lean ====
section
/-! SUPPORT. The model's own tests: ill-formed commands that `Instr.wellFormed` refuses, values the spec itself works out, and for
every statement with hypotheses a concrete state and operands that meet them, clause by clause. -/

namespace Sys2Proof.Tests

open Sys2Proof Sys2Proof.Machine

/-! ## Ill-formed commands -/

theorem test_ill_cell_start : (Instr.cellStart 0 []).wellFormed = false := by decide
theorem test_ill_cell_stop : (Instr.cellStop 1).wellFormed = false := by decide
theorem test_ill_register_write : (Instr.registerWriteIgnored ⟨0x14, 32, some 0⟩).wellFormed = false := by decide
theorem test_ill_record_null : (Instr.portPowerOn 0 3).wellFormed = false := by decide
theorem test_ill_record_unaligned : (Instr.setBudget 0x1020 480).wellFormed = false := by decide
theorem test_ill_hunt_mark : (Instr.huntExactMark 3 0).wellFormed = false := by decide
set_option maxRecDepth 4000 in
theorem test_ill_frame_open : (Instr.frameOpen 3 (encodeBurst .fill)).wellFormed = false := by decide
theorem test_ill_line : (Instr.line 3 [1, 2, 3]).wellFormed = false := by decide
theorem test_ill_frame_close : (Instr.frameClose 3 []).wellFormed = false := by decide
theorem test_ill_fill : (Instr.fillBurst 3 [0xFF]).wellFormed = false := by decide
theorem test_ill_supply_low : (Instr.supplyLow 20000).wellFormed = false := by decide
theorem test_ill_supply_restored : (Instr.supplyRestored 20999).wellFormed = false := by decide
theorem test_ill_lens_fault : (Instr.lensFaultNote 3 0).wellFormed = false := by decide
theorem test_ill_sweep_samples : (Instr.sweepComplete [[], [], []]).wellFormed = false := by decide

/-- No row of the table has bits, so no word spells a command. -/
theorem test_no_table_words : decodeTableWord 32 0x12345678 = none := rfl

/-! ## Values the spec works out -/

/-- 05_lens_settings.md, Example: a focus table. -/
theorem test_focus_table :
    ([1800, 2630, 25, 0, -1000, 5000].map fun x => lensCode [(-2000, 400), (0, 1200), (5000, 3100)] x) =
      [(1884, false), (2199, false), (1210, false), (1200, false), (800, false), (3100, false)] := by decide

/-- 04_triggers_and_take_patterns.md, the table of R70. -/
theorem test_grid_points :
    ([3200, -40000, 6000].map fun p => nextGridPoint .forward 1000 p 2500) = [3500, 1000, 8500] ∧
    ([3200, 1000, -600].map fun p => nextGridPoint .reverse 1000 p 2500) = [1000, -1500, -1500] := by decide

/-- 04_triggers_and_take_patterns.md, R70: the point 2,147,484,000 lies beyond the 32-bit range. -/
theorem test_grid_end :
    (armPitch ⟨.a, 2147483000, 1000, .forward, 0⟩ 2147483000 { active := true }).active = false := by decide

/-- 08_cable_sweeps.md, R155: 1000 ticks at the default velocity factor are 4,947 mm. -/
theorem test_sweep_distance : distanceOf {} 1000 = (4947, false, false) := by decide

/-- 08_cable_sweeps.md, the worked sweep: the two echoes' distances. -/
theorem test_worked_sweep_distances :
    rawDistance 2649 780 = 15486 ∧ rawDistance 5102 780 = 29827 := by decide

/-- 08_cable_sweeps.md, R143: the averages used. -/
theorem test_averages : [0, 1, 3, 40, 64, 200].map averagesUsed = [1, 1, 2, 32, 64, 64] := by decide

/-- 02_the_camera_link.md, R24 and R25: an exact mark announces its length; a flipped bit in one copy spoils it. -/
theorem test_marks : judgeMark 0x00080008C33CA55A = some 8 ∧ judgeMark 0x00080009C33CA55A = none := by decide

/-- 11_record_and_register_formats.md, R198 and R201: no member, and no peak bin after the 0x55 bytes before it. -/
theorem test_none_values :
    noDissolveResults = [0, 0, 0xFF] ∧ noFlexMapResults.length = 0x56 ∧ noFlexMapResults.getLast? = some 0xFF := by decide


/-! ## Witnesses: states and operands that meet the hypotheses of the statements

Port 3 is the port at work; the command record lies at `at0`, an image record at `img`, a HEAD_ACCESS record at `hac`. -/

def at0 : Addr := 0x10000
def img : Addr := 0x20000
def hac : Addr := 0x30000

/-- Host memory with a posted command, image and HEAD_ACCESS record, the image record one of 64 bytes with a stride of 16. -/
def hostMem : List Host.Cell :=
  writeBytes (writeBytes (writeBytes [] at0 (leBytes 4 1)) img
    (leBytes 4 2 ++ leBytes 4 1 ++ u64 0 ++ u64 0x40000 ++ leBytes 4 64 ++ leBytes 4 16)) hac (leBytes 4 1)

/-- A cell RUNNING with eight ports, its block at 0x1000 and the image anchor of port 3 at `img`. -/
def cell : State :=
  { State.reset with
    mem := writeBytes hostMem (0x1000 + 0x28) (u64 img)
    chain := { run := true, cell := .running, block := 0x1000, portCount := 8 } }

/-- A state with one port replaced, its mirror up to date. -/
def setPort (p : PortId) (f : Port → Port) (s : State) : State := { s with ports := s.ports.set p (f (s.port p)) }

/-- The running cell with port 3 changed. -/
def onPort (f : Port → Port) : State := setPort 3 f cell

/-- Port 3 powered in a state. -/
def powered (st : PowerState) (f : Port → Port := id) : State :=
  { onPort (fun q => f { q with power := { q.power with state := st } }) with
    power := { cell.power with grants := [3], reserved := reservation .a } }

/-- Port 3 with its link in a state and a burst in progress. -/
def linked (st : LinkState) (b : Option BurstStart) (f : Port → Port := id) : State :=
  onPort (fun q => f { q with link := { q.link with state := st, burst := b } })

/-- Port 3 with a channel. -/
def talking (c : Channel) : State := onPort fun q => { q with ctl := c }

/-- An exposure entry of trigger number 5, EXPOSED. -/
def entry : Entry where
  source := 0
  trigger := 5
  axisA := 0
  axisB := 0
  time := 0
  image := img
  bufAddr := 0x40000
  bufSize := 64
  stride := 16
  format := .packed
  lensRec := none
  lensPairs := none
  badLens := false
  set := none
  phase := .exposed
  outcome := .none
  flags := 0
  exposedAt := 0
  timer := some 200
  opened := none

/-- A frame of 4 lines of 8 pixels, 8 bits each. -/
def header : FrameHeader := { tag := 5, counter := 0, width := 8, height := 4, depth := 8, exposure := 0 }

/-- The frame under way with its next line. -/
def filling (next : Nat) : Filling where
  trigger := 5
  header := header
  bytesPerLine := 8
  next := next
  ranges := []
  overflow := false
  written := next
  erased := 0
  cut := 0
  truncated := false
  lastLine := none

/-- A window of eight bursts. -/
def eight : List HistoryEntry := List.replicate 8 ⟨.fill, true⟩

/-- A busy card: port 3 ON and LOCKED, with an entry, in a mask with port 4 and in a set with it; a sweep of port 5 under way. -/
def busy : State :=
  let s := powered .on fun q => { q with
    link := { q.link with state := .locked }, frame := { q.frame with entries := [entry] }, take := { q.take with lastTrigger := 5 } }
  { setPort 5 (fun q => { q with sweep := { q.sweep with state := .measuring } }) s with
    sets := s.sets.set 0 { formed := true, mask := 0x18 }
    trig := { s.trig with sources := s.trig.sources.set 0 { active := true, mask := 0x18, number := 5 } }
    sweeps := { front := some { entry := { port := 5, origin := .host, cause := .ok, averages := 1, recAt := some at0 }
                                settings := {}, started := 0, powerAtStart := .off, sums := [] } } }

/-- No value of an announced length makes a mark of zeros exact. -/
theorem zero_not_exact (n : U16) : (0 : U64) ≠ exactMark n := by
  intro h
  have h' : (0 : BitVec (16 + 16 + 32)) = (n ++ n) ++ syncPattern := h
  have := congrArg (fun m => m.getLsbD 1) h'
  simp only [BitVec.getLsbD_append] at this
  rw [if_pos (by decide)] at this
  exact absurd this (by decide)

/-! ### The whole machine -/

/-- StepRunsFrontCommand. -/
theorem witness_step : ({ cell with pending := [.cellStopped, .tap 0 []] } : State).pending = .cellStopped :: [.tap 0 []] := rfl

/-- IdleCardKeepsTime. -/
theorem witness_idle :
    (cell.pending = [] ∧ ¬ (cell.running = true ∧ cell.chain.walking = true) ∧ ¬ (cell.chain.cell = .stopping ∧ cell.chain.inHand = 0)) ∧
    let s : State := { cell with chain := { cell.chain with cell := .stopping } }
    s.pending = [] ∧ s.chain.cell = .stopping ∧ s.chain.inHand = 0 := by decide

/-- StepKeepsMemoryForm, MemoryFollowsBus, MirrorsFollowChanges: a TAP behind which the host has written. -/
theorem witness_memory_step :
    let c : Instr := .tap 0 [⟨0x50000, [1, 2]⟩]
    let s : State := { State.reset with pending := [c] }
    memWf s.mem = true ∧ Quiet s ∧ ∃ t, step s = .next t ∧ exec c { s with pending := [] } = .next t :=
  ⟨by decide, by decide, _, rfl, rfl⟩

set_option maxRecDepth 8000 in
/-- The busy card obeys the law of the budget. -/
theorem busy_power : PowerLaw busy :=
  ⟨by decide, by decide, by decide, by decide, by decide, by decide, by decide, by decide⟩

set_option maxRecDepth 8000 in
/-- StepKeepsPowerLaw, StepKeepsMaskSetAndSweepLaws, StepKeepsTriggerLaw: the busy card, and a step of it. -/
theorem witness_laws :
    PowerLaw busy ∧ LinkLaw busy ∧ MaskLaw busy ∧ SetLaw busy ∧ SweepLaw busy ∧ TriggerLaw busy ∧ ∃ t, step busy = .next t := by
  have seen : ∀ (p : PortId), ∀ e ∈ (busy.port p).frame.entries, e.trigger.toNat ≤ (busy.port p).take.lastTrigger.toNat := by
    decide
  have under : ∀ p, (busy.port p).sweep.state ≠ .none → powerOf p busy = .off ∨ powerOf p busy = .tripped := by decide
  exact ⟨busy_power, ⟨by decide, by decide⟩, by decide, by decide, ⟨by decide, by decide, by decide, under, nofun⟩,
    ⟨by decide, by decide, by decide, seen, by decide, by decide⟩, _, rfl⟩

set_option maxRecDepth 16000 in
/-- MirrorsFollowChanges: an alert newly set at a port, and a supply that falls. -/
theorem witness_mirrors :
    (let s := talking { state := .note }
     Quiet s ∧ s.running = true ∧ mayWalk (.overtempNote 3) = false ∧
       ∃ t, exec (.overtempNote 3) s = .next t ∧ t.running = true ∧ (t.port 3).alerts ≠ (s.port 3).alerts) ∧
    (Quiet cell ∧ mayWalk (.supplyLow 19999) = false ∧
      ∃ t, exec (.supplyLow 19999) cell = .next t ∧ t.running = true ∧ t.power.supplyLow ≠ cell.power.supplyLow) :=
  ⟨⟨by decide, by decide, rfl, _, rfl, by decide, by decide⟩, by decide, rfl, _, rfl, by decide, by decide⟩

set_option maxRecDepth 16000 in
/-- MirrorsFollowChanges: an entry that a reset of its port closes, and a set that a command forms. -/
theorem witness_mirror_events :
    let s : State := { busy with sets := .replicate 4 {} }
    let b : State := setPort 3 (fun q => { q with frame := {} }) s
    (Quiet s ∧ s.running = true ∧ mayWalk (.resetPort at0 3) = false ∧ (s.port 3).frame.entries = [entry] ∧
      ∃ t, exec (.resetPort at0 3) s = .next t ∧ t.running = true ∧ (t.port 3).frame.entries = []) ∧
    (Quiet b ∧ ∃ t, exec (.formSet at0 0 0x18) b = .next t ∧ t.running = true ∧ b.setOf 3 = none ∧ t.setOf 3 = some 0) :=
  ⟨⟨by decide, by decide, rfl, by decide, _, rfl, by decide, by decide⟩, by decide, _, rfl, by decide, by decide, by decide⟩

/-- AlertsStayAndRaiseTheCause: a flag that stands, and one that OVERTEMP sets. -/
theorem witness_alerts :
    let s := talking { state := .note }
    mayClearAlerts (.overtempNote 3) = false ∧ (s.port 3).alerts.getLsbD 5 = false ∧
      (onPort fun q => { q with alerts := 1 }).running = true ∧
      ∃ t, exec (.overtempNote 3) s = .next t ∧ (t.port 3).alerts.getLsbD 5 = true :=
  ⟨by decide, by decide, by decide, _, rfl, by decide⟩

/-! ### The register window, the start and the stop -/

/-- BlockAddress: STOPPED, BLOCK_FAULT and RUNNING; an address of 0 and one off its boundary by 32. -/
theorem witness_block_address :
    let fault : State := { State.reset with chain := { State.reset.chain with cell := .blockFault } }
    let off : State := { State.reset with chain := { State.reset.chain with block := 0x1020 } }
    (Quiet State.reset ∧ State.reset.chain.cell = .stopped) ∧ (Quiet fault ∧ fault.chain.cell = .blockFault) ∧
    (Quiet cell ∧ cell.chain.cell ≠ .stopped ∧ cell.chain.cell ≠ .blockFault) ∧ (∃ t, exec (.tap 0 []) cell = .next t) ∧
    (State.reset.chain.run = false ∧ (1 : U32).getLsbD 0 = true ∧ State.reset.chain.block = 0) ∧
    (off.chain.cell = .stopped ∧ off.chain.run = false ∧ off.chain.block.toNat % 64 ≠ 0) :=
  ⟨by decide, by decide, by decide, ⟨_, rfl⟩, by decide, by decide⟩

/-- InterruptMessages: a gather of FRAMES whose timer runs out, with every group enabled. -/
theorem witness_interrupts :
    let s : State := { cell with chain := { cell.chain with enable := 7, frames := { pending := 1, timer := some 1 } } }
    Quiet s ∧ (∀ x, Instr.gatherTimeout .frames ≠ .hardReset x) ∧ s.chain.cause.getLsbD 0 = false ∧
      s.chain.enable.getLsbD 0 = true ∧ ∃ t, exec (.gatherTimeout .frames) s = .next t ∧ t.chain.cause.getLsbD 0 = true :=
  ⟨by decide, nofun, by decide, by decide, _, rfl, by decide⟩

/-- Gathering: a timer that runs and one that does not. -/
theorem witness_gathering :
    let s : State := { cell with chain := { cell.chain with frames := { pending := 1, timer := some 1 } } }
    (Quiet s ∧ (gatherOf .frames s.chain).timer.isSome = true) ∧ (Quiet cell ∧ (gatherOf .frames cell.chain).timer = none) := by
  decide

/-- A stopped card whose header names a number of ports. -/
def stopped (n : Nat) : State :=
  { State.reset with
    mem := writeBytes [] 0x1000 (leBytes 4 0x56430801 ++ leBytes 4 n), chain := { State.reset.chain with block := 0x1000 } }

set_option maxRecDepth 8000 in
/-- CellStart: port counts 0 and 9 fail, 1 and 8 pass. -/
theorem witness_cell_start :
    (∀ n ∈ [0, 9],
      let s := stopped n
      Quiet s ∧ s.chain.cell = .stopped ∧ s.chain.run = false ∧
        (let m := hostWritten (.cellStart 1 []) s.mem
        let n := readField m (s.chain.block + 4) 4
        ¬ (s.chain.block ≠ 0 ∧ s.chain.block.toNat % 64 = 0 ∧ readField m s.chain.block 4 = 0x56430801 ∧ 1 ≤ n ∧ n ≤ 8))) ∧
    (∀ k ∈ [1, 8],
      let s := stopped k
      Quiet s ∧ s.chain.cell = .stopped ∧ s.chain.run = false ∧ s.chain.tapPending = false ∧
        let m := hostWritten (.cellStart 1 []) s.mem
        let n := readField m (s.chain.block + 4) 4
        s.chain.block ≠ 0 ∧ s.chain.block.toNat % 64 = 0 ∧ readField m s.chain.block 4 = 0x56430801 ∧ 1 ≤ n ∧ n ≤ 8 ∧
        s.power.queue = [] ∧ (allPorts.filter fun p => decide (n ≤ p.val) && isPowered (powerOf p s)) = [] ∧
        readField m (s.chain.block + 8) 8 = 0) := by decide

set_option maxRecDepth 8000 in
/-- CellStart: port 3 powered in a run of three ports, in a mask and in a set; and a command chain with a record. -/
theorem witness_start_excludes :
    let x := stopped 3
    let s : State := setPort 3 (fun q => { q with power := { q.power with state := .on } }) { x with
      power := { x.power with grants := [3], reserved := 48 }
      sets := x.sets.set 0 { formed := true, mask := 0x0C }
      trig := { x.trig with sources := x.trig.sources.set 0 { mask := 0x0C } } }
    Quiet s ∧ s.chain.tapPending = false ∧ s.power.queue = [] ∧ readField (hostWritten (.cellStart 1 []) s.mem) (s.chain.block + 4) 4 = 3 ∧
      (allPorts.filter fun p => decide (3 ≤ p.val) && isPowered (powerOf p s)) = [3] ∧ IdlePort 3 s ∧ headAccesses (s.port 3).ctl = 0 ∧
      (s.port 3).power.onCommand = none ∧ readField s.mem (s.chain.block + 8) 8 = 0 := by decide

/-- A card whose command chain holds a SET_AXIS_POSITION of axis A at `at0`. -/
def posted : State :=
  { cell with mem := writeBytes (writeBytes cell.mem at0 (encodeRecord 0 (.setAxisPosition 1 7))) 0x1008 (u64 at0) }

set_option maxRecDepth 8000 in
/-- TapWalksTheChain: not RUNNING, in a walk, on a dry chain, and on a chain with one posted record. -/
theorem witness_tap :
    (Quiet State.reset ∧ State.reset.running = false) ∧
    (Quiet { cell with chain := { cell.chain with walking := true } } ∧ cell.running = true) ∧
    (Quiet cell ∧ cell.running = true ∧ cell.chain.walking = false ∧ need .command cell = none) ∧
    let i : Instr := .setAxisPosition at0 1 7
    let h : State := { posted with chain := { posted.chain with walking := true } }
    commandOf i = some (at0, .setAxisPosition 1 7) ∧ Quiet posted ∧ posted.running = true ∧ posted.chain.walking = false ∧
      posted.chain.tapPending = false ∧ need .command h = some at0 ∧ recordKind at0 h = 1 ∧
      decodeCommand (readBytes h.mem at0 0x60) = some (.setAxisPosition 1 7) ∧
      ∃ t, exec i h = .next t ∧ need .command t = none :=
  ⟨by decide, by decide, by decide, by decide, by decide, by decide, by decide, by decide, by decide, by decide, by decide,
    _, rfl, by decide⟩

/-- A card whose command chain holds two records, the second at `hac`. -/
def postedTwo : State :=
  { posted with mem := writeBytes (writeBytes posted.mem (at0 + 8) (u64 hac)) hac (encodeRecord 0 (.setAxisPosition 2 9)) }

set_option maxRecDepth 16000 in
/-- TapWalksTheChain: a chain whose second record is of the image kind, refused in the middle of the walk, and a third after it. -/
theorem witness_walk :
    let m := writeBytes (writeBytes (writeBytes postedTwo.mem hac (leBytes 4 2)) (hac + 8) (u64 0x60000)) 0x60000
      (encodeRecord 0 (.setAxisPosition 1 3))
    let s : State := { postedTwo with mem := m }
    let h : State := { s with chain := { s.chain with walking := true } }
    let rows : List (Option Instr) := [some (.setAxisPosition at0 1 7), none, some (.setAxisPosition 0x60000 1 3)]
    (Quiet s ∧ s.running = true ∧ s.chain.walking = false ∧ s.chain.tapPending = false ∧ rows.length ≤ h.mem.length) ∧
      ∃ t, Walks rows h t :=
  ⟨by decide, _, at0, .setAxisPosition 1 7, _, rfl, by decide, by decide, by decide, rfl,
    hac, .badRecord, by decide, by decide, 0x60000, .setAxisPosition 1 3, _, rfl, by decide, by decide, by decide, rfl, by decide, rfl⟩

set_option maxRecDepth 16000 in
/-- CellStart: the command chain holds a record, which the start runs. -/
theorem witness_start_walks :
    let x := stopped 8
    let s : State := { x with mem := writeBytes (writeBytes x.mem at0 (encodeRecord 0 (.setAxisPosition 1 7))) 0x1008 (u64 at0) }
    Quiet s ∧ s.chain.tapPending = false ∧ s.power.queue = [] ∧ readField s.mem (s.chain.block + 8) 8 = at0.toNat ∧
      ∃ t, exec (.cellStart 1 []) s = .next t ∧ t.trig.axisA.position = 7 :=
  ⟨by decide, by decide, by decide, by decide, _, rfl, by decide⟩

set_option maxRecDepth 8000 in
/-- TapWalksTheChain, records that are refused: of the image kind, and of the command kind with command 0xFFFF. -/
theorem witness_bad_records :
    ∀ x ∈ [(0, (2 : Byte)), (0x10, 0xFF)],
      let s : State := { posted with mem := writeBytes posted.mem (at0 + BitVec.ofNat 64 x.1) [x.2] }
      Quiet s ∧ s.running = true ∧ s.chain.walking = false ∧ s.chain.tapPending = false ∧ need .command s = some at0 ∧
        (recordKind at0 s = 1 → decodeCommand (readBytes s.mem at0 0x60) = none) ∧ readField s.mem (at0 + 8) 8 = 0 ∧
        ∀ i, i < 8 → 0x10 ≤ distanceFrom (blockAt 0xC0 s) (at0 + 8 + BitVec.ofNat 64 i).toNat := by decide

set_option maxRecDepth 8000 in
/-- TapWalksTheChain, each refusal: another kind, command 0xFFFF, and PORT_POWER with action 2 to port 3 and to port 8. -/
theorem witness_refusal :
    let s (n : Nat) (x : List Byte) : State := { posted with mem := writeBytes posted.mem (at0 + BitVec.ofNat 64 n) x }
    let r (p : Byte) : State := { posted with mem := writeBytes posted.mem at0 (encodeRecord 0 (.portPower p 2)) }
    Quiet posted ∧ posted.running = true ∧ refusal at0 (s 0 [2]) = some .badRecord ∧ refusal at0 (s 0x10 [0xFF]) = some .badCommand ∧
      refusal at0 (r 3) = some .badArgument ∧ refusal at0 (r 8) = some .badPort := by decide

/-- The busy card with an open item of set 0 that names the entry of port 3. -/
def held : State :=
  { setPort 3 (fun q => { q with frame := { q.frame with entries := [{ entry with set := some (0, 1) }] } }) busy with
    sets := busy.sets.set 0 { formed := true, mask := 0x18, number := 1, items := [⟨1, 0, 5, [⟨3, img, none⟩, ⟨4, hac, some .complete⟩]⟩] } }

/-- StopHandsTheCellBack: the busy card, and one with an open item; an entry with a lens record in LENS_WAIT. -/
theorem witness_stop :
    busy.running = true ∧ busy.chain.run = true ∧ (0 : U32).getLsbD 0 = false ∧ PowerLaw busy ∧
    (held.running = true ∧ held.chain.run = true ∧ (∀ p : PortId, ((held.port p).frame.entries.map (·.trigger)).Nodup) ∧
      (held.sets[(0 : SetId)].items.map (·.number)).Nodup ∧
      ∀ i ∈ held.sets[(0 : SetId)].items, (∃ x ∈ i.slots, x.status = none) ∧
        ∀ x ∈ i.slots, x.status = none → ∃ e ∈ (held.port x.port).frame.entries, e.set = some (0, i.number)) ∧
    (let e : Entry := { entry with phase := .lensWait, lensRec := some hac, lensPairs := some [(0, 5)] }
     e.lensRec = some hac ∧ e.lensPairs.isSome = true ∧ e.phase = .lensWait) :=
  ⟨by decide, by decide, by decide, busy_power, by decide, by decide⟩

/-- The busy card with an entry of trigger number 4 on port 4, beside that of trigger number 5 on port 3. -/
def crossed : State :=
  setPort 4 (fun q => { q with frame := { q.frame with entries := [{ entry with trigger := 4, image := hac }] } }) busy

set_option maxRecDepth 8000 in
/-- StopHandsTheCellBack: entries of two ports whose trigger numbers ascend against the ports. -/
theorem witness_stop_order :
    crossed.running = true ∧ crossed.chain.run = true ∧ PowerLaw crossed ∧
      (∀ p : PortId, ((crossed.port p).frame.entries.map (·.trigger)).Nodup) ∧
      { entry with trigger := 4, image := hac } ∈ (crossed.port 4).frame.entries ∧ entry ∈ (crossed.port 3).frame.entries ∧
      (4 : U32) < entry.trigger :=
  ⟨by decide, by decide, ⟨by decide, by decide, by decide, by decide, by decide, by decide, by decide, by decide⟩, by decide, by decide,
    by decide, by decide⟩

/-- 06_exposures_and_frame_capture.md, R122: a stop closes trigger number 4 of port 4 before trigger number 5 of port 3. -/
theorem test_stop_order : allEntries crossed = [(4, 4), (3, 5)] := by decide

/-- StoppedAndQuietWrites: a due stop, none due, and each kind of ignored write. -/
theorem witness_quiet_writes :
    let s : State := { cell with chain := { cell.chain with cell := .stopping, run := false } }
    let f : State := { cell with chain := { cell.chain with cell := .blockFault } }
    let again : State := { s with chain := { s.chain with run := true } }
    (Quiet s ∧ s.chain.cell = .stopping ∧ s.chain.inHand = 0 ∧ s.chain.run = false) ∧
    (Quiet again ∧ again.chain.cell = .stopping ∧ again.chain.inHand = 0 ∧ again.chain.run = true) ∧
    (Quiet cell ∧ ¬ (cell.chain.cell = .stopping ∧ cell.chain.inHand = 0)) ∧
    (Quiet f ∧ f.chain.cell = .blockFault ∧ (0 : U32).getLsbD 0 = false) ∧ (1 : U32).getLsbD 0 = cell.chain.run ∧
    ∀ x ∈ [RegAccess.mk 0x14 16 (some 0), .mk 0x16 32 (some 0), .mk 0x14 32 none, .mk 0 32 (some 1), .mk 8 32 (some 1),
      .mk 0x20 32 (some 1)],
      x.width ≠ 32 ∨ x.offset % 4 ≠ 0 ∨ x.value = none ∨ x.offset = 0x00 ∨ x.offset = 0x08 ∨ 0x20 ≤ x.offset := by decide

/-- HardReset: any card between commands. -/
theorem witness_hard_reset : Quiet busy := by decide

/-! ### Command records -/

/-- RefusedBeforeAnyEffect: a command while not RUNNING; port 8, and port 3 in a run of three ports; the first value that each
argument check refuses. -/
theorem witness_refusals :
    let three : State := { cell with chain := { cell.chain with portCount := 3 } }
    let last : State := { cell with trig := { cell.trig with sources := cell.trig.sources.set 0 { number := 0xFFFFFFFF } } }
    (commandOf (.resetPort at0 3) = some (at0, .resetPort 3) ∧ State.reset.running = false) ∧
    (CommandReady at0 cell ∧ commandPort (.resetPort 8) = some 8 ∧ ¬ ((8 : Byte).toNat < 8 ∧ (8 : Byte).toNat < cell.chain.portCount.toNat)) ∧
    (CommandReady at0 three ∧ ¬ ((3 : Byte).toNat < 8 ∧ (3 : Byte).toNat < three.chain.portCount.toNat)) ∧
    (2 ≤ (2 : Byte).toNat ∧ 4 ≤ (4 : Byte).toNat ∧ 3 ≤ (3 : Byte).toNat ∧ 16777215 < (16777216 : U32).toNat) ∧
    ((0x08 : Byte).getLsbD (3 : PortId).val = true ∧ three.chain.portCount.toNat ≤ (3 : PortId).val) ∧
    ((3 : PortId).val < cell.chain.portCount.toNat ∧ 16 < (17 : Byte).toNat ∧ 10 ≤ (10 : Byte).toNat ∧ 5 ≤ (5 : Byte).toNat) ∧
    (CommandReady at0 last ∧ (last.source 0).number = 0xFFFFFFFF) ∧ (3 : Byte) ≠ 1 ∧ (3 : Byte) ≠ 2 ∧
    (7 : U32).toInt ≤ (7 : U32).toInt := by decide

/-- PowerOn: accepted in five states; answered at once under a low supply, in ON and beside another ON command. -/
theorem witness_power_on :
    (∀ st ∈ [PowerState.off, .detect, .queued, .inrush, .tripped],
      let s := powered st
      CommandReady at0 s ∧ (3 : PortId).val < s.chain.portCount.toNat ∧ s.power.supplyLow = false ∧
        (s.port 3).power.onCommand = none ∧ powerOf 3 s ≠ .on ∧ powerOf 3 s ≠ .foldback) ∧
    (let s : State := { cell with power := { cell.power with supplyLow := true } }
     CommandReady at0 s ∧ s.power.supplyLow = true) ∧
    (let s := powered .on
     CommandReady at0 s ∧ s.power.supplyLow = false ∧ (s.port 3).power.state = .on) ∧
    (let s := onPort fun q => { q with power := { q.power with onCommand := some hac } }
     CommandReady at0 s ∧ s.power.supplyLow = false ∧ (s.port 3).power.state ≠ .on ∧ (s.port 3).power.state ≠ .foldback ∧
        (s.port 3).power.onCommand.isSome = true) := by decide

set_option maxRecDepth 8000 in
/-- Port 3 waiting in the budget queue. -/
def waiting (f : PortPower → PortPower := id) : State :=
  { onPort (fun q => { q with power := f { q.power with state := .queued } }) with power := { cell.power with queue := [3] } }

set_option maxRecDepth 8000 in
/-- The card with port 3 in the budget queue obeys the law of the budget. -/
theorem waiting_power : PowerLaw waiting :=
  ⟨by decide, by decide, by decide, by decide, by decide, by decide, by decide, by decide⟩

/-- PowerOff: each state with nothing in hand; beside an ON command in flight; the busy port. -/
theorem witness_power_off :
    (∀ st ∈ [PowerState.off, .detect, .inrush, .on, .foldback, .tripped],
      let s := powered st
      CommandReady at0 s ∧ (3 : PortId).val < s.chain.portCount.toNat ∧ IdlePort 3 s ∧ (s.port 3).power.onCommand = none) ∧
    (CommandReady at0 waiting ∧ IdlePort 3 waiting ∧ (waiting.port 3).power.onCommand = none ∧ waiting.power.queue = [3] ∧
      powerOf 3 waiting = .queued) ∧
    (∀ st ∈ [PowerState.off, .tripped, .detect],
      let s := onPort fun q => { q with power := { q.power with state := st, onCommand := some hac } }
      CommandReady at0 s ∧ recordKind hac s = 1 ∧ apartFrom hac at0 s ∧ (s.port 3).power.onCommand = some hac ∧
        powerOf 3 s = st ∧ isPowered (powerOf 3 s) = false) ∧
    (let s := waiting fun w => { w with onCommand := some hac }
     CommandReady at0 s ∧ recordKind hac s = 1 ∧ apartFrom hac at0 s ∧ (s.port 3).power.onCommand = some hac ∧
       isPowered (powerOf 3 s) = false) ∧
    (CommandReady at0 busy ∧ (3 : PortId).val < busy.chain.portCount.toNat ∧ PowerLaw busy ∧ isPowered (powerOf 3 busy) = true) :=
  ⟨by decide, by decide, by decide, by decide, by decide, by decide, busy_power, by decide⟩

/-- Ports 3 and 5 ON with port 4 waiting behind them. -/
def three : State :=
  { setPort 4 (fun q => { q with power := { q.power with state := .queued } })
      (setPort 5 (fun q => { q with power := { q.power with state := .on, clsInUse := .d } }) (powered .on)) with
    power := { cell.power with grants := [3, 5], reserved := reservation .a + reservation .d, queue := [4] } }

set_option maxRecDepth 8000 in
/-- SetBudget: exactly the reserved sum with port 3 waiting, and one below a sum, with nothing of the ports in hand: port 5 is shed,
and port 4 waits. -/
theorem witness_set_budget :
    (CommandReady at0 waiting ∧ waiting.power.queue = [3] ∧ waiting.power.reserved ≤ min (48 : U32).toNat 1920) ∧
    (PowerLaw busy ∧ min (47 : U32).toNat 1920 < busy.power.reserved) ∧
    (CommandReady at0 three ∧ PowerLaw three ∧ min (96 : U32).toNat 1920 < three.power.reserved ∧ three.power.queue = [4] ∧
      (∀ p ∈ three.power.grants.drop 1, IdlePort p three ∧ (three.port p).power.onCommand = none)) :=
  ⟨by decide, ⟨busy_power, by decide⟩, by decide,
    ⟨by decide, by decide, by decide, by decide, by decide, by decide, by decide, by decide⟩, by decide, by decide, by decide⟩

/-- Arguments that name every group of CONFIGURE_PORT, with one fallback pair. -/
def allGroups : ConfigArgs where
  groups := 0x0F
  cls := 3
  retryCount := 7
  autoSweep := 1
  cooldown := 60
  lensMode := 1
  policy := 2
  lateAction := 1
  fallbackCount := 1
  deadline := 2000
  fallback := #v[(4, 0x8000), (0, 0), (0, 0), (0, 0)]
  timeLimit := 10000
  erasure := 2
  fillValue := 0
  cableLength := 1000
  tolerance := 5000
  vf := 990
  offset := 2047
  minor := 500

/-- ConfigurePort: every group on a port in OFF; a powered port, and one under test. -/
theorem witness_configure_port :
    (CommandReady at0 cell ∧ powerOf 3 cell = .off ∧ (cell.port 3).sweep.state = .none ∧ (cell.port 3).lens.fallback.length ≤ 4 ∧
      allGroups.cls.toNat = powerClassNumber .d ∧ allGroups.autoSweep.toNat ≤ 1 ∧ allGroups.lensMode.toNat ≤ 1 ∧
      allGroups.policy.toNat = underrunNumber .skipTake ∧ allGroups.lateAction.toNat ≤ 1 ∧
      let pairs : List (UnitId × Int) := [(3, -32768)]
      allGroups.fallbackCount.toNat = pairs.length ∧ pairs.length ≤ 4 ∧ (pairs.map (·.1)).Nodup ∧
      allGroups.fallback.toList.take pairs.length = pairs.map (fun q => (BitVec.ofNat 8 (q.1.val + 1), BitVec.ofInt 16 q.2)) ∧
      (∀ q ∈ pairs, -32768 ≤ q.2 ∧ q.2 ≤ 32767) ∧ allGroups.erasure.toNat = erasureNumber .copyLast) ∧
    (CommandReady at0 (powered .on) ∧ powerOf 3 (powered .on) ≠ .off ∧ powerOf 3 (powered .on) ≠ .tripped ∧
      ((powered .on).port 3).lens.fallback.length ≤ 4) ∧
    (CommandReady at0 busy ∧ (5 : PortId).val < busy.chain.portCount.toNat ∧ (busy.port 5).sweep.state ≠ .none) := by decide

/-- ConfigurePort: the first value that each argument check refuses, and two pairs of one unit. -/
theorem witness_configure_refused :
    let x := allGroups
    let twice : ConfigArgs := { x with fallbackCount := 2, fallback := x.fallback.set 1 (4, 1) }
    let nowhere : ConfigArgs := { x with fallback := x.fallback.set 0 (0, 1) }
    let beyond : ConfigArgs := { x with fallback := x.fallback.set 0 (5, 1) }
    (CommandReady at0 cell ∧ (3 : PortId).val < cell.chain.portCount.toNat ∧ powerOf 3 cell = .off ∧ (cell.port 3).sweep.state = .none ∧
      (cell.port 3).lens.fallback.length ≤ 4) ∧
    (∀ i : Fin 4, x.groups.getLsbD i.val = true) ∧ 4 ≤ (4 : Byte).toNat ∧ 2 ≤ (2 : Byte).toNat ∧ 3 ≤ (3 : Byte).toNat ∧ 5 ≤ (5 : Byte).toNat ∧
    (∃ i : Fin 4, i.val < nowhere.fallbackCount.toNat ∧ nowhere.fallback[i].1 = 0) ∧
    (∃ i : Fin 4, i.val < beyond.fallbackCount.toNat ∧ 5 ≤ beyond.fallback[i].1.toNat) ∧
    ∃ i j : Fin 4, i < j ∧ j.val < twice.fallbackCount.toNat ∧ twice.fallback[i].1 = twice.fallback[j].1 := by decide

/-- ResetPort: a powered port with nothing in hand, and the busy port. -/
theorem witness_reset_port :
    (CommandReady at0 (powered .on) ∧ (3 : PortId).val < cell.chain.portCount.toNat ∧ IdlePort 3 (powered .on)) ∧
    CommandReady at0 busy := by decide

/-- ClearAlerts: all eight ports. -/
theorem witness_clear_alerts :
    CommandReady at0 cell ∧ ∀ p : PortId, (0xFF : Byte).getLsbD p.val = true → p.val < cell.chain.portCount.toNat := by decide

/-- SetGather: the first group that names nothing, and FRAMES. -/
theorem witness_set_gather : CommandReady at0 cell ∧ 2 ≤ (2 : Byte).toNat ∧ (0 : Byte) = (match GatherGroup.frames with | .frames => 0 | .commands => 1) := by
  decide

/-- A HEAD_ACCESS in a place of the HEAD class. -/
def access (write : Bool) (n : Nat) : HeadAccess :=
  { recAt := hac, part := { unit := 4, write := write, address := 1, words := if write then List.replicate n 9 else [], count := n } }

/-- HeadAccessQueued: without READY, with four accepted, with three accepted and the channel busy, and on a free channel. -/
theorem witness_head_access :
    let x : HeadArgs := { unit := 4, direction := 1, count := 8, address := 0, words := .replicate 8 0 }
    (x.unit.toNat ≤ 4 ∧ x.direction.toNat ≤ 1 ∧ 1 ≤ x.count.toNat ∧ x.count.toNat ≤ 8 ∧ (3 : PortId).val < cell.chain.portCount.toNat) ∧
    (CommandReady at0 cell ∧ (cell.port 3).ctl.ready = false) ∧
    (let s := talking { state := .note, ready := true, heads := List.replicate 4 (.access (access true 1)) }
     CommandReady at0 s ∧ (s.port 3).ctl.ready = true ∧ 4 ≤ headAccesses (s.port 3).ctl) ∧
    (let s := talking { state := .note, ready := true, heads := List.replicate 3 (.access (access true 1)) }
     CommandReady at0 s ∧ (s.port 3).ctl.ready = true ∧ headAccesses (s.port 3).ctl < 4 ∧ (s.port 3).ctl.state ≠ .idle) ∧
    (let c : Channel := { state := .idle, ready := true }
     CommandReady at0 (talking c) ∧ c.exposes = [] ∧ c.lensMsgs = [] ∧ c.heads = [] ∧ c.txn = none) := by decide

/-- SetSource: a PITCH programme at the ends of its range beside a formed set it leaves alone; taking a member of the set from its
own source, and losing it. -/
theorem witness_set_source :
    let x : SourceArgs :=
      { source := 1, kind := 2, which := 2, direction := 1, mask := 0x01, debounce := 0, origin := 0, pitch := 16777215, limit := 0 }
    let g : PitchProgramme := { axis := .b, origin := 0, pitch := 16777215, direction := .reverse, limit := 0 }
    (CommandReady at0 busy ∧ MaskLaw busy ∧
      (∀ (j : SetId) (p : PortId), busy.sets[j].formed = true → busy.sets[j].mask.getLsbD p.val = true →
        x.mask.getLsbD p.val = (busy.source 1).mask.getLsbD p.val) ∧
      (∀ p : PortId, x.mask.getLsbD p.val = true → p.val < busy.chain.portCount.toNat) ∧
      x.source = BitVec.ofNat 8 (1 : SourceId).val ∧ x.pitch.toNat = g.pitch ∧ 1 ≤ g.pitch ∧ g.pitch ≤ 16777215) ∧
    (MaskLaw busy ∧ busy.sets[(0 : SetId)].formed = true ∧ busy.sets[(0 : SetId)].mask.getLsbD (3 : PortId).val = true ∧
      (busy.source 0).mask.getLsbD (3 : PortId).val = true ∧
      (∀ q : PortId, (0x10 : Byte).getLsbD q.val = true → q.val < busy.chain.portCount.toNat) ∧
      (0x10 : Byte).getLsbD (3 : PortId).val = false ∧ (0x08 : Byte).getLsbD (3 : PortId).val = true) := by decide

/-- SetSource: the programmes of the kinds INPUT and PITCH whose mask takes a member of the set from its own source. -/
theorem witness_set_conflict :
    let x (kind which : Byte) : SourceArgs :=
      { source := 1, kind := kind, which := which, direction := 1, mask := 0x08, debounce := 0, origin := 0, pitch := 1, limit := 0 }
    CommandReady at0 busy ∧ (x 1 1).which.toNat ≤ 1 ∧ ((x 2 2).which = 2 ∧ (x 2 2).direction.toNat ≤ 1 ∧ (x 2 2).pitch ≠ 0 ∧
      (x 2 2).pitch.toNat ≤ 16777215) ∧ (x 1 1).source = BitVec.ofNat 8 (1 : SourceId).val ∧
      (∀ q : PortId, (x 1 1).mask.getLsbD q.val = true → q.val < busy.chain.portCount.toNat) ∧
      (busy.source 0).mask.getLsbD (3 : PortId).val = true ∧ (0 : SourceId) ≠ 1 ∧ (x 2 2).mask.getLsbD (3 : PortId).val = true := by decide

/-- PitchArming: a source at its last number, at its limit, with its point beyond the range, and one that is armed. -/
theorem witness_pitch_arming :
    (1 ≤ 1 ∧ (3 : Int) < 3 + (1 : Nat) * (1 : Nat) ∧ (3 : Int) - (1 : Nat) * (1 : Nat) < 3) ∧
    ({ number := 0xFFFFFFFF } : Source).number = 0xFFFFFFFF ∧ ((2 : U32) ≠ 0 ∧ (2 : U32).toNat ≤ (2 : U32).toNat) ∧
    2147483647 < nextGridPoint .forward 2147483647 2147483647 1 ∧ nextGridPoint .reverse (-2147483648) (-2147483648) 1 < -2147483648 ∧
    ¬ (({} : Source).number = 0xFFFFFFFF ∨ ((1 : U32) ≠ 0 ∧ (1 : U32).toNat ≤ ({} : Source).made.toNat) ∨
      nextGridPoint .forward 1000 3200 2500 < -2147483648 ∨ 2147483647 < nextGridPoint .forward 1000 3200 2500) := by decide

/-- SetPattern: lengths 0, 17, 1 and 16. -/
theorem witness_set_pattern :
    CommandReady at0 cell ∧ (3 : PortId).val < cell.chain.portCount.toNat ∧ 16 < (17 : Byte).toNat ∧
      (1 : Byte) ≠ 0 ∧ (16 : Byte).toNat ≤ 16 := by decide

/-- A cell in which source 0 drives port 3 alone, with port 3 changed. -/
def driven (f : Port → Port) : State :=
  let s := onPort f
  { s with trig := { s.trig with sources := s.trig.sources.set 0 { mask := 0x08, number := 4 } } }

/-- A fire of source 0 at port 3, in no set. -/
abbrev Aimed (s : State) : Prop :=
  CommandReady at0 s ∧ (s.source 0).mask = BitVec.twoPow 8 (3 : PortId).val ∧ s.setOf 3 = none ∧ (s.source 0).number ≠ 0xFFFFFFFF

/-- The state in which a fire of source 0 looks for records. -/
def found (s : State) : State :=
  { s with
    trig := { s.trig with sources := s.trig.sources.set 0 (countFire (s.source 0)) }
    chain := afterTake at0 s.chain, mem := writeBytes s.mem (at0 + 4) (leBytes 4 2) }

/-- A port with READY. -/
def ready (q : Port) : Port := { q with ctl := { q.ctl with ready := true } }

/-- SoftTrigger, a source of no port: before its last number, and at it. -/
theorem witness_soft_trigger_count :
    let last : State := { cell with trig := { cell.trig with sources := cell.trig.sources.set 0 { number := 0xFFFFFFFE } } }
    (CommandReady at0 cell ∧ (cell.source 0).number ≠ 0xFFFFFFFF ∧ (cell.source 0).mask = 0 ∧
      ¬ ((cell.source 0).number + 1 = 0xFFFFFFFF)) ∧
    (CommandReady at0 last ∧ (last.source 0).mask = 0 ∧ (last.source 0).number + 1 = 0xFFFFFFFF) := by decide

set_option maxRecDepth 8000 in
/-- SoftTrigger, a fire at port 3 that skips, finds no READY, four entries, no image record, and no lens record. -/
theorem witness_fire_refused :
    let skips := driven fun q => { q with take := { q.take with bits := 0 } }
    let full := driven fun q => ready { q with frame := { q.frame with entries := List.replicate 4 entry } }
    let bare : State := { driven ready with mem := writeBytes cell.mem 0x1028 (u64 0) }
    let dry := driven fun q => ready { q with lens := { q.lens with chain := true, policy := .skipTake } }
    (Aimed skips ∧ takeBit (skips.port 3).take = false) ∧
    (Aimed (driven id) ∧ takeBit ((driven id).port 3).take = true ∧ ((driven id).port 3).ctl.ready = false) ∧
    (Aimed full ∧ takeBit (full.port 3).take = true ∧ (full.port 3).ctl.ready = true ∧ 4 ≤ (full.port 3).frame.entries.length) ∧
    (Aimed bare ∧ (bare.port 3).ctl.ready = true ∧ (bare.port 3).frame.entries.length < 4 ∧ need (.image 3) (found bare) = none) ∧
    (Aimed dry ∧ (dry.port 3).ctl.ready = true ∧ (need (.image 3) (found dry)).isSome = true ∧ (dry.port 3).lens.chain = true ∧
      (dry.port 3).lens.policy = .skipTake ∧ need (.lens 3) (found dry) = none) := by
  refine ⟨?_, ?_, ?_, ?_, ?_⟩ <;> decide

set_option maxRecDepth 8000 in
/-- SoftTrigger, a fire at port 3 that finds an unsound record, and one that is admitted, on a busy and on an IDLE channel. -/
theorem witness_fire_bound :
    let idle (q : Port) : Port := ready { q with ctl := { q.ctl with state := .idle } }
    let bad : State := { driven ready with mem := writeBytes cell.mem (img + 0x20) [9] }
    (Aimed bad ∧ takeBit (bad.port 3).take = true ∧ (bad.port 3).ctl.ready = true ∧ (bad.port 3).frame.entries.length < 4 ∧
      need (.image 3) (found bad) = some img ∧ readImageRecord img (found bad) = none ∧ (bad.port 3).lens.chain = false) ∧
    (0xD0 ≤ distanceFrom img at0.toNat ∧ 0x10 ≤ distanceFrom (blockAt (0xC0 + 16 * (1 + 3)) cell) at0.toNat) ∧
    (∀ f ∈ [ready, idle], Aimed (driven f)) ∧
    TakesAtOnce 3 img (0x40000, 64, 16, .packed) (found (driven ready)) ∧
    TakesAtOnce 3 img (0x40000, 64, 16, .packed) (found (driven idle)) := by
  refine ⟨?_, ?_, ?_, ⟨?_, ?_, ?_, ?_, ?_, ?_, ?_, ?_, ?_⟩, ⟨?_, ?_, ?_, ?_, ?_, ?_, ?_, ?_, ?_⟩⟩ <;> decide

/-- An entry in EXPOSE_QUEUED. -/
def older : Entry := { entry with phase := .exposeQueued }

/-- Host memory with a posted lens record at `hac`, of a number of pairs, on the lens chain of port 3. -/
def lensMem (n : Byte) : List Host.Cell :=
  writeBytes (writeBytes cell.mem hac (leBytes 4 3 ++ leBytes 4 1 ++ u64 0 ++ [n, 0, 0, 0, 1, 0, 100, 0])) 0x1068 (u64 hac)

set_option maxRecDepth 8000 in
/-- SoftTrigger, a fire at port 3 in lens mode CHAIN: a dry lens chain, a sound lens record and a malformed one. -/
theorem witness_chain_take :
    let dry := driven fun q => ready { q with frame := { q.frame with entries := [older] }, lens := { q.lens with chain := true } }
    let s (n : Byte) : State := { dry with mem := lensMem n }
    (Aimed dry ∧ takeBit (dry.port 3).take = true ∧ (dry.port 3).ctl.state ≠ .idle ∧ (dry.port 3).lens.policy ≠ .skipTake ∧
      need (.image 3) (found dry) = some img ∧ need (.lens 3) (found dry) = none) ∧
    (∀ n ∈ [(1 : Byte), 0], Aimed (s n) ∧ need (.image 3) (found (s n)) = some img ∧ need (.lens 3) (found (s n)) = some hac ∧
      (readImageRecord img (found (s n))).isSome = true) ∧
    ((readLensRecord hac (found (s 1))).isSome = true ∧ readLensRecord hac (found (s 0)) = none) ∧
    (0x48 ≤ distanceFrom img at0.toNat ∧ 4 ≤ distanceFrom (hac + 4) at0.toNat ∧ 0x80 ≤ distanceFrom hac at0.toNat ∧
      0x10 ≤ distanceFrom (blockAt (0xC0 + 16 * (9 + 3)) cell) at0.toNat) := by
  refine ⟨?_, ?_, ?_, ?_⟩ <;> decide

/-- A formed set of ports 3 and 4 that source 0 drives, both READY, with their image records at `img` and `hac`. -/
def pairSet (f : PortId → Port → Port := fun _ q => q) : State :=
  let s := setPort 4 (fun q => f 4 (ready q)) (setPort 3 (fun q => f 3 (ready q)) cell)
  { s with
    mem := writeBytes (writeBytes cell.mem hac (leBytes 4 2 ++ leBytes 4 1 ++ u64 0 ++ u64 0x50000 ++ leBytes 4 64 ++ leBytes 4 16))
      0x1030 (u64 hac)
    sets := s.sets.set 0 { formed := true, mask := 0x18 }
    trig := { s.trig with sources := s.trig.sources.set 0 { mask := 0x18, number := 4 } } }

/-- A fire of source 0 at set 0. -/
abbrev AimedAtSet (s : State) : Prop :=
  CommandReady at0 s ∧ SetLaw s ∧ s.sets[(0 : SetId)].formed = true ∧ (s.source 0).mask = s.sets[(0 : SetId)].mask ∧
    (s.source 0).number ≠ 0xFFFFFFFF ∧ (maskPorts s.sets[(0 : SetId)].mask).head? = some 3

set_option maxRecDepth 8000 in
/-- SoftTrigger, a fire at a set that skips or fails check 1, 2 on a member, 2 on the items, 3 and 4. -/
theorem witness_set_refused :
    let skips := pairSet fun _ q => { q with take := { q.take with bits := 0 } }
    let deaf := pairSet fun p q => if p = 4 then { q with ctl := {} } else q
    let full := pairSet fun p q => if p = 4 then { q with frame := { q.frame with entries := List.replicate 4 entry } } else q
    let items : State := { pairSet with sets := pairSet.sets.set 0 { formed := true, mask := 0x18, items := List.replicate 4 ⟨1, 0, 5, []⟩ } }
    let bare : State := { pairSet with mem := writeBytes pairSet.mem 0x1030 (u64 0) }
    let dry := pairSet fun p q => if p = 4 then { q with lens := { q.lens with chain := true, policy := .skipTake } } else q
    (AimedAtSet skips ∧ takeBit (skips.port 3).take = false) ∧
    (AimedAtSet deaf ∧ takeBit (deaf.port 3).take = true ∧ (deaf.port 3).ctl.ready = true ∧ (deaf.port 4).ctl.ready = false) ∧
    (AimedAtSet full ∧ (full.port 4).ctl.ready = true ∧ (full.port 3).frame.entries.length < 4 ∧ 4 ≤ (full.port 4).frame.entries.length) ∧
    (AimedAtSet items ∧ 4 ≤ items.sets[(0 : SetId)].items.length) ∧
    (AimedAtSet bare ∧ need (.image 3) (found bare) = some img ∧ need (.image 4) (found bare) = none) ∧
    (AimedAtSet dry ∧ need (.image 4) (found dry) = some hac ∧ need (.lens 4) (found dry) = none) := by
  refine ⟨?_, ?_, ?_, ?_, ?_, ?_⟩ <;> decide

set_option maxRecDepth 16000 in
/-- SoftTrigger, a fire at a set with one unsound record, the first member's, and one that is admitted; the
record and its progress entry lie apart from the command record. -/
theorem witness_set_admitted :
    let bad : State := { pairSet with mem := writeBytes pairSet.mem (img + 0x20) [9] }
    (AimedAtSet bad ∧ need (.image 3) (found bad) = some img ∧ readImageRecord img (found bad) = none ∧
      need (.image 4) (found bad) = some hac ∧ (readImageRecord hac (found bad)).isSome = true) ∧
    (AimedAtSet pairSet ∧ need (.image 3) (found pairSet) = some img ∧ need (.image 4) (found pairSet) = some hac ∧
      (readImageRecord img (found pairSet)).isSome = true ∧ (readImageRecord hac (found pairSet)).isSome = true ∧
      (pairSet.port 4).ctl.state ≠ .idle ∧ (pairSet.port 4).frame.entries = []) ∧
    0xD0 ≤ distanceFrom img at0.toNat ∧ 0x10 ≤ distanceFrom (blockAt (0xC0 + 16 * (1 + 3)) cell) at0.toNat := by
  refine ⟨?_, ?_, ?_, ?_⟩ <;> decide

/-- SetAxisPosition: the running cell. -/
theorem witness_set_axis : CommandReady at0 cell := by decide

/-- A lens phase of trigger 5 with its deadline running. -/
def phase5 : LensPhase := { trigger := 5, started := 0, targets := [], flags := 0, deadline := some 50 }

/-- SetLensTable: nine points that ascend, the code 4096, and a phase under way. -/
theorem witness_set_lens_table :
    let x (c : U16) : TableArgs := { unit := 1, count := 2, points := (Vector.replicate 9 (9, 9)).set 0 (0, 0) |>.set 1 (1, c) }
    let points (x : TableArgs) := (x.points.toList.take x.count.toNat).map fun q => (q.1.toInt, q.2.toNat)
    let sound (x : TableArgs) := ((points x).map (·.1)).Pairwise (· < ·) ∧ ∀ q ∈ points x, q.2 ≤ 4095
    let s := onPort fun q => { q with lens := { q.lens with phase := some phase5 } }
    (CommandReady at0 cell ∧ (x 0).unit = BitVec.ofNat 8 ((0 : UnitId).val + 1) ∧ (x 0).count ≠ 1 ∧ (x 0).count.toNat ≤ 9 ∧
      ¬ sound (x 4096)) ∧
    (sound (x 4095) ∧ (cell.port 3).lens.phase = none) ∧ (CommandReady at0 s ∧ (s.port 3).lens.phase.isSome = true) := by decide

/-- The ports of a mask. -/
def ports (m : Byte) : List PortId := allPorts.filter fun p => m.getLsbD p.val

/-- A cell in which source 0 drives ports 3 and 4. -/
def pair : State := { cell with trig := { cell.trig with sources := cell.trig.sources.set 0 { mask := 0x18 } } }

/-- FormAndDissolveSet, FORM_SET: set 4, one member and five; a set already formed; ports of no source; a member with an entry; two
ports of one source. -/
theorem witness_form_set :
    let b : State := setPort 3 (fun q => { q with frame := { q.frame with entries := [entry] } }) pair
    (CommandReady at0 cell ∧ 4 ≤ (4 : Byte).toNat ∧ (ports 0x08).length < 2 ∧ 4 < (ports 0x1F).length) ∧
    ((ports 0x18).head? = some 3 ∧ 2 ≤ (ports 0x18).length ∧ (ports 0x18).length ≤ 4 ∧
      ∀ p ∈ ports 0x18, p.val < cell.chain.portCount.toNat) ∧
    (CommandReady at0 busy ∧ busy.sets[(0 : SetId)].formed = true) ∧
    ((∀ j : SetId, cell.sets[j].formed = false) ∧ ∀ j : SourceId, (cell.source j).mask.getLsbD (3 : PortId).val = false) ∧
    (CommandReady at0 b ∧ (∀ j : SetId, b.sets[j].formed = false) ∧ (∀ p ∈ ports 0x18, (b.source 0).mask.getLsbD p.val = true) ∧
      (b.port 3).frame.entries ≠ []) ∧
    (CommandReady at0 pair ∧ (∀ p ∈ ports 0x18, (pair.source 0).mask.getLsbD p.val = true) ∧
      ∀ p ∈ ports 0x18, (pair.port p).frame.entries = []) := by
  refine ⟨?_, ?_, ?_, ?_, ?_, ?_⟩ <;> decide

/-- FormAndDissolveSet, DISSOLVE_SET: a set that is not formed, one with an open item, and one without. -/
theorem witness_dissolve_set :
    let s : State := { busy with sets := busy.sets.set 0 { formed := true, mask := 0x18, items := [⟨1, 0, 5, []⟩] } }
    (CommandReady at0 cell ∧ cell.sets[(0 : SetId)].formed = false) ∧
    (CommandReady at0 s ∧ s.sets[(0 : SetId)].formed = true ∧ s.sets[(0 : SetId)].items ≠ []) ∧
    (CommandReady at0 busy ∧ busy.sets[(0 : SetId)].formed = true ∧ busy.sets[(0 : SetId)].items = []) := by
  refine ⟨?_, ?_, ?_⟩ <;> decide

/-- CableSweep: a powered port, one under test, one behind another sweep and one at a free front end. -/
theorem witness_cable_sweep :
    (CommandReady at0 busy ∧ powerOf 3 busy = .on) ∧ (powerOf 5 busy = .off ∧ (busy.port 5).sweep.state ≠ .none) ∧
    (powerOf 6 busy = .off ∧ (busy.port 6).sweep.state = .none ∧ busy.sweeps.front.isSome = true) ∧
    (CommandReady at0 cell ∧ powerOf 3 cell = .off ∧ cell.sweeps.front = none ∧ cell.sweeps.queue = []) := by decide

/-- FlexAxisAndClear: a range of one count, an axis that is none of the three, and an empty range. -/
theorem witness_flex_axis :
    CommandReady at0 cell ∧ (3 : PortId).val < cell.chain.portCount.toNat ∧ (6 : U32).toInt < (7 : U32).toInt ∧ 3 ≤ (3 : Byte).toNat ∧
      (7 : U32).toInt ≤ (7 : U32).toInt := by decide

/-- A snapshot of a drop. -/
def snap : Snapshot where
  cause := .marks
  time := 0
  axisA := 0
  axisB := 0
  bin := none
  current := 0
  power := .on
  history := []
  bursts := 0
  damaged := 0
  frame := none

/-- FlexReads: an empty map, bins of equal highest count; without and with a snapshot. -/
theorem witness_flex_reads :
    let two := onPort fun q => { q with flex := { q.flex with bins := (Vector.replicate 32 0).set 4 7 |>.set 9 7, snapshot := some snap } }
    (CommandReady at0 cell ∧ (∀ b : BinId, (cell.port 3).flex.bins[b] = 0) ∧ (cell.port 3).flex.snapshot = none ∧
      (cell.port 3).flex.suspects.length ≤ 8) ∧
    (CommandReady at0 two ∧ (two.port 3).flex.suspects.length ≤ 8 ∧ snap.history.length ≤ 8 ∧ (∃ b : BinId, (two.port 3).flex.bins[b] ≠ 0) ∧ (two.port 3).flex.snapshot = some snap) := by decide

/-! ### Port power -/

/-- DetectComplete: 99 Ω, 20 and 30 kΩ with room and without it, above 1 MΩ, and both ends of what is no signature. -/
theorem witness_detect :
    let s := onPort fun q => { q with power := { q.power with state := .detect, onCommand := some hac } }
    let other : State := setPort 4 (fun q => { q with power := { q.power with state := .inrush } }) s
    let fits (s : State) := decide (∀ q, powerOf q s ≠ .inrush) && decide (s.power.reserved + reservation .a ≤ s.power.budget)
    let auto (s : State) : State := setPort 3 (fun q => { q with power := { q.power with autoSweep := true } }) s
    let measured : State := auto { s with sweeps := busy.sweeps }
    Quiet s ∧ powerOf 3 s = .detect ∧ AnswerReady 3 s ∧ (auto s).sweeps.front = none ∧ (auto s).sweeps.queue = [] ∧
      (measured.sweeps.front = none → measured.sweeps.queue = []) ∧ Quiet measured ∧ fits s = true ∧ fits other = false ∧ 99 < 100 ∧ 1000000 < 1000001 ∧ (100 ≤ 19999 ∧ 19999 < 20000) ∧
      (30000 < 30001 ∧ 1000000 ≤ 1000000) := by
  refine ⟨by decide, by decide, ?_, by decide, by decide, by decide, by decide, by decide, by decide, by decide, by decide, by decide,
    by decide⟩
  intro a h
  cases h
  decide

/-- InrushComplete: with port 4 QUEUED. -/
theorem witness_inrush_complete :
    let s : State := setPort 4 (fun q => { q with power := { q.power with state := .queued } })
      { powered .inrush with power := { cell.power with queue := [4], grants := [3], reserved := 48 } }
    Quiet s ∧ powerOf 3 s = .inrush ∧ AnswerReady 3 s ∧ ∀ q ∈ s.power.queue, powerOf q s = .queued :=
  ⟨by decide, by decide, nofun, by decide⟩

/-- A port with no ON command in flight answers nothing. -/
theorem answerReady_none (p : PortId) (s : State) (h : (s.port p).power.onCommand = none) : AnswerReady p s := by
  intro a k
  rw [h] at k
  cases k

/-- Trips: each state with nothing in hand (`answerReady_none` for its ON command), the current exactly at the short threshold; the
busy port. -/
theorem witness_trips :
    (∀ st ∈ [PowerState.inrush, .foldback, .on],
      let s := powered st fun q => { q with power := { q.power with autoSweep := true } }
      Quiet s ∧ IdlePort 3 s ∧ (s.port 3).power.onCommand = none ∧ (s.sweeps.front = none → s.sweeps.queue = []) ∧
        (s.port 3).power.state = st) ∧
    shortLimit .a ≤ (600 : U16).toNat ∧ PowerLaw busy ∧ isPowered (powerOf 3 busy) = true ∧
      shortLimit (busy.port 3).power.clsInUse ≤ (600 : U16).toNat :=
  ⟨by decide, by decide, busy_power, by decide, by decide⟩

/-- FoldbackAndCooldown: currents at the limit, above it and just below the short threshold; a cooldown that runs out. -/
theorem witness_foldback :
    (Quiet (powered .on) ∧ isPowered ((powered .on).port 3).power.state = true ∧
      ∀ ma ∈ [200, 201, 599], (BitVec.ofNat 16 ma).toNat < shortLimit ((powered .on).port 3).power.clsInUse) ∧
    let s := onPort fun q => { q with power := { q.power with state := .tripped, cooldown := some 5000 } }
    Quiet s ∧ powerOf 3 s = .tripped ∧ (s.port 3).power.cooldown = some 5000 := by decide

/-- Supply: one millivolt below 20.0 V, and 21.0 V. -/
theorem witness_supply :
    (PowerLaw busy ∧ (19999 : U32).toNat < 20000 ∧ busy.power.supplyLow = false) ∧
    (Quiet busy ∧ 21000 ≤ (21000 : U32).toNat) := ⟨⟨busy_power, by decide, by decide⟩, by decide⟩

set_option maxRecDepth 8000 in
/-- Supply: port 3 in DETECT with its ON command in flight. -/
theorem witness_supply_command :
    let s := onPort fun q => { q with power := { q.power with state := .detect, onCommand := some at0 } }
    PowerLaw s ∧ s.power.supplyLow = false ∧ (s.port 3).power.onCommand = some at0 :=
  ⟨⟨by decide, by decide, by decide, by decide, by decide, by decide, by decide, by decide⟩, by decide, by decide⟩

/-! ### The camera link -/

/-- LockUp: the shortest and the longest announced length; HUNT, CONFIRM with two and three marks confirmed, a burst between two
marks, and LOCKED. -/
theorem witness_lock_up :
    (8 ≤ (8 : U16).toNat ∧ (16394 : U16).toNat ≤ 16394) ∧
    (let s := linked .hunt none
     Quiet s ∧ (s.port 3).link.state = .hunt ∧ (s.port 3).link.carrier = true) ∧
    (∀ c ∈ [2, 3],
      let s := linked .confirm none fun q => { q with link := { q.link with confirm := c } }
      Quiet s ∧ (s.port 3).link.state = .confirm ∧ (s.port 3).link.burst = none ∧ (s.port 3).link.confirm = c ∧
        (s.port 3).ctl.heads = [] ∧ (s.port 3).ctl.exposes = [] ∧ (s.port 3).ctl.lensMsgs = [] ∧ (s.port 3).ctl.txn = none) ∧
    (∀ n, ((linked .confirm none).port 3).link.burst ≠ some (.exact n)) ∧
    (∀ n : U16, 8 ≤ n.toNat → n.toNat ≤ 16394 → (0 : U64) ≠ exactMark n) ∧
    (let s := linked .confirm (some (.exact 8))
     (s.port 3).link.burst = some (.exact (encodeBurst .fill).length) ∧ (s.port 3).link.history.length ≤ 8) ∧
    (let s := linked .locked none
     (s.port 3).link.state = .locked ∧ (s.port 3).link.burst = none) ∧
    (let s := linked .locked (some .bad) fun q => { q with link := { q.link with history := eight } }
     Quiet s ∧ (s.port 3).link.state = .locked ∧ (s.port 3).link.burst = some .bad ∧ (s.port 3).link.history.length ≤ 8) :=
  ⟨by decide, by decide, by decide, nofun, fun n _ _ => zero_not_exact n, by decide, by decide, by decide⟩

/-- LockUp and MissesAndCarrier: a frame being filled is that of the oldest entry; and no frame is. -/
theorem witness_fills_oldest :
    FillsOldest 3 (onPort fun q => { q with frame := { q.frame with entries := [entry], recv := .filling (filling 3) } }) ∧
      FillsOldest 3 cell := by
  refine ⟨fun f h => ?_, nofun⟩
  cases h
  exact ⟨entry, rfl, rfl⟩

/-- MissesAndCarrier: a third miss by a bad mark and by a window, and each state that a carrier event finds. -/
theorem witness_misses :
    (let s := linked .locked none fun q => { q with link := { q.link with misses := 2 } }
     Quiet s ∧ (s.port 3).link.state = .locked ∧ (s.port 3).link.burst = none ∧ (s.port 3).link.misses < 3) ∧
    (let s := linked .locked (some .bad) fun q => { q with link := { q.link with misses := 2, boundary := .window 16402, history := eight } }
     Quiet s ∧ (s.port 3).link.state = .locked ∧ (s.port 3).link.burst = some .bad ∧ (s.port 3).link.boundary = .window 16402 ∧
       (s.port 3).link.misses < 3 ∧ (s.port 3).link.history.length ≤ 8) ∧
    (Quiet cell ∧ (cell.port 3).link.state = .down) ∧
    (∀ st ∈ [LinkState.hunt, .confirm], ((linked st none).port 3).link.state = st ∧ ((linked st none).port 3).link.state ≠ .down) := by
  decide

/-- Drop: the fourth bad mark in a row, as a mark with and without a burst in progress and as the close of a recovery window, and the
carrier lost; with nothing in hand, and with an entry. -/
theorem witness_drop :
    let s := linked .locked none fun q => { q with link := { q.link with misses := 3 } }
    let b := linked .locked none fun q => { q with link := { q.link with misses := 3 }, frame := { q.frame with entries := [entry] } }
    let w := linked .locked (some .bad) fun q => { q with
      link := { q.link with misses := 3, boundary := .window 16402, history := eight }
      flex := { q.flex with axis := some .a, low := 0, high := 32, threshold := 16 } }
    (Quiet s ∧ IdlePort 3 s ∧ (s.port 3).link.state = .locked ∧ (s.port 3).link.burst = none ∧ (s.port 3).link.misses = 3) ∧
    (Quiet w ∧ IdlePort 3 w ∧ (w.port 3).link.state = .locked ∧ (w.port 3).link.history.length ≤ 8 ∧ (w.port 3).link.misses = 3 ∧
      (w.port 3).link.burst = some .bad ∧ (w.port 3).link.boundary = .window 16402 ∧ (w.port 3).flex.snapshot = none) ∧
    ((b.port 3).link.state = .locked ∧ (b.port 3).link.burst = none ∧ (b.port 3).link.misses = 3 ∧ (b.port 3).link.history.length ≤ 8) ∧
    ∀ n : U16, 8 ≤ n.toNat → n.toNat ≤ 16394 → (0 : U64) ≠ exactMark n :=
  ⟨by decide, by decide, by decide, fun n _ _ => zero_not_exact n⟩

/-! ### Bursts and frames -/

set_option maxRecDepth 8000 in
/-- FillAndDamagedBursts: a FILL, a damaged burst of one byte without an axis, and with one: bins that reach the threshold with room
in the list and without, and one that does not. -/
theorem witness_fill_and_damaged :
    let s (f : FlexMap) := linked .locked (some (.exact 1)) fun q => { q with flex := f }
    let x (n : Nat) (l : List BinId) : FlexMap := { axis := some .a, low := 0, high := 32, threshold := 16, bins := .replicate 32 n, suspects := l }
    (let s := linked .locked (some (.exact 8)) fun q => { q with link := { q.link with history := eight } }
     Quiet s ∧ (s.port 3).link.burst = some (.exact (encodeBurst .fill).length) ∧ (s.port 3).link.history.length ≤ 8 ∧
       ∀ f, (s.port 3).frame.recv = .filling f → f.header.height ≤ f.next) ∧
    (let s := linked .locked (some (.exact 1)) fun q => { q with frame := { q.frame with entries := [entry], recv := .filling (filling 3) } }
     Quiet s ∧ (s.port 3).frame.recv = .filling (filling 3) ∧ (filling 3).next < (filling 3).header.height ∧
       (s.port 3).frame.entries = entry :: [] ∧ entry.trigger = (filling 3).trigger) ∧
    (Quiet (s {}) ∧ ((s {}).port 3).link.burst = some (.exact [(7 : Byte)].length) ∧ parseBurst [7] = .damaged ∧
      ((s {}).port 3).flex.axis = none) ∧
    (∀ l ∈ [[], List.replicate 8 (0 : BinId)], Quiet (s (x 15 l)) ∧ ((s (x 15 l)).port 3).flex.axis = some .a ∧
      (x 15 l).bins[(0 : BinId)] < (x 15 l).threshold ∧ (x 15 l).threshold ≤ (x 15 l).bins[(0 : BinId)] + 1) ∧
    ¬ ((x 16 []).bins[(0 : BinId)] < (x 16 []).threshold) := by
  refine ⟨⟨by decide, by decide, by decide, nofun⟩, ?_, ?_, ?_, ?_⟩ <;> decide

set_option maxRecDepth 8000 in
/-- FrameOpen: from IDLE, DISCARDING and FILLING, with an older EXPOSED entry before the one of the tag, one whose stride holds the
lines and one whose stride does not, and a frame of no entry. -/
theorem witness_frame_open :
    let first : Entry := { entry with phase := .filling }
    let old : Entry := { entry with trigger := 6 }
    let e (stride : Nat) : Entry := { entry with trigger := 7, stride := stride }
    let h : FrameHeader := { header with tag := 7 }
    let s (es : List Entry) (r : Receive) := linked .locked (some (.exact 24)) fun q =>
      { q with frame := { q.frame with entries := es, recv := r }, link := { q.link with history := eight } }
    let ends (s : State) : Prop := Quiet s ∧ (s.port 3).link.state = .locked ∧ (s.port 3).link.burst = some (.exact 24) ∧
      (s.port 3).link.history.length ≤ 8 ∧ (s.port 3).ctl.exposes = [] ∧ (s.port 3).ctl.lensMsgs = [] ∧
      ((s.port 3).frame.entries.map (·.trigger)).Nodup
    headerValid h = true ∧ 5 ≠ h.tag ∧
    (∀ r ∈ [Receive.idle, .discarding], ends (s [old, e 8] r) ∧ ends (s [] r)) ∧
    (∀ w ∈ [7, 8], ends (s [first, old, e w] (.filling (filling 2))) ∧ (e w).phase = .exposed ∧ (e w).trigger.setWidth 16 = h.tag ∧
      (e w).set = none) ∧
    (first.trigger = (filling 2).trigger ∧ first.phase = .filling ∧ (filling 2).ranges.length ≤ 16 ∧ first.set = none ∧ old.set = none ∧
      old.phase = .exposed ∧ old.trigger.setWidth 16 ≠ h.tag) ∧
    ((h.width * h.depth + 7) / 8 ≤ (e 8).stride ∧ (e 7).stride < (h.width * h.depth + 7) / 8) := by
  refine ⟨?_, ?_, ?_, ?_, ?_, ?_⟩ <;> decide

/-- Line: outside a frame; the expected line, within the buffer and beyond it; the line after a gap of two; an earlier line; a line at
the height; and a line of the wrong length. -/
theorem witness_line :
    let data : List Byte := zeros 8
    let s (n : Nat) := linked .locked (some (.exact 18)) fun q =>
      { q with frame := { q.frame with entries := [entry], recv := .filling (filling n) } }
    let small : Entry := { entry with bufSize := 7 }
    (1 ≤ data.length ∧ data.length ≤ 16384 ∧ data.length = (header.width * header.depth + 7) / 8) ∧
    (let s := linked .locked (some (.exact 18))
     Quiet s ∧ (s.port 3).link.burst = some (.exact (data.length + 10)) ∧ (s.port 3).link.history.length ≤ 8 ∧
       fillingOf (s.port 3).frame = none) ∧
    (Quiet (s 3) ∧ ((s 3).port 3).frame.recv = .filling (filling 3) ∧ ((s 3).port 3).frame.entries = [entry] ∧
      entry.trigger = (filling 3).trigger) ∧
    ((3 : U16).toNat = (filling 3).next ∧ (3 : U16).toNat < header.height ∧ 3 * entry.stride + (filling 3).bytesPerLine ≤ entry.bufSize) ∧
    ((0 : U16).toNat = (filling 0).next ∧ small.trigger = (filling 0).trigger ∧ small.bufSize < 0 * small.stride + (filling 0).bytesPerLine) ∧
    ((filling 1).next ≤ (3 : U16).toNat ∧ (3 : U16).toNat < header.height) ∧
    (2 < (filling 3).next ∧ 2 < header.height) ∧ header.height ≤ (4 : U16).toNat ∧
    (zeros 9).length ≠ (header.width * header.depth + 7) / 8 := by decide

/-- StoredPixels: depths 8, 10 and 16 with their largest values; a line that goes on a range and one that does not, with room in the
list and without. -/
theorem witness_stored_pixels :
    (∀ d ∈ [8, 10, 16], d ≤ 16 ∧ (zeros ((3 * d + 7) / 8)).length = (3 * d + 7) / 8 ∧ 2 ^ d - 1 < 2 ^ d) ∧
    (3 + 1 = 4 ∧ 3 + 1 ≠ 5) ∧ (List.replicate 14 (0, 1)).length < 15 ∧ 15 ≤ (List.replicate 15 (0, 1)).length := by decide

set_option maxRecDepth 8000 in
/-- FrameCloses: a FRAME-CLOSE in IDLE, before the last line and after it; a set member whose item has another open slot, and one whose
item has none; and an entry whose frame has not come. -/
theorem witness_frame_closes :
    let ends (s : State) := (s.port 3).link.state = .locked ∧ (s.port 3).link.burst = some (.exact 10) ∧ (s.port 3).link.history.length ≤ 8
    let e : Entry := { entry with phase := .filling }
    let m : Entry := { e with set := some (0, 1) }
    let s := linked .locked (some (.exact 10))
    let f (e : Entry) (n : Nat) := linked .locked (some (.exact 10)) fun q => { q with
      frame := { q.frame with entries := [e], recv := .filling (filling n) }, link := { q.link with history := eight } }
    let w := onPort fun q => { q with frame := { q.frame with entries := [entry] } }
    let item (x : Option Code) : SetItem := ⟨1, 0, 5, [⟨3, img, none⟩, ⟨4, hac, x⟩]⟩
    let member (x : Option Code) : State := { f m 4 with sets := busy.sets.set 0 { formed := true, mask := 0x18, items := [item x] } }
    let slots (x : Option Code) := (item x).slots.map fun y => if y.port = 3 then { y with status := some .complete } else y
    (Quiet s ∧ ends s ∧ (8192 : U16).toNat ≤ 8192 ∧ (s.port 3).frame.recv = .idle) ∧
    (∀ n ∈ [2, 4], Quiet (f e n) ∧ ends (f e n) ∧ ((f e n).port 3).frame.recv = .filling (filling n) ∧
      ((f e n).port 3).frame.entries = [e] ∧ e.trigger = (filling n).trigger ∧ e.phase = .filling ∧ e.set = none ∧
      ((f e n).port 3).ctl.exposes = [] ∧ ((f e n).port 3).ctl.lensMsgs = [] ∧ (filling n).ranges.length ≤ 16) ∧
    (∀ x ∈ [none, some Code.timedOut], Quiet (member x) ∧ ends (member x) ∧ ((member x).port 3).frame.entries = [m] ∧
      m.set = some (0, 1) ∧ (member x).sets[(0 : SetId)].items.find? (fun y => decide (y.number = 1)) = some (item x)) ∧
    ((∃ x ∈ slots none, x.status = none) ∧ ∀ x ∈ slots (some .timedOut), x.status ≠ none) ∧
    (Quiet w ∧ (w.port 3).frame.recv = .idle ∧ (w.port 3).frame.entries = [entry] ∧ entry.phase = .exposed ∧
      entry.timer = some 200 ∧ entry.set = none) := by
  refine ⟨?_, ?_, ?_, ?_, ?_⟩ <;> decide

/-! ### The control channel -/

/-- A HEAD_ACCESS transaction at a stage, with the words read so far. -/
def sending (h : HeadAccess) (st : Stage) (data : List U16 := []) : State :=
  talking { state := .sending, replyTimer := some 2, holdTimer := some 50, ready := true
            txn := some { message := .access h, part := 0, stage := st, acked := 0, data := data } }

/-- HeadAccessAnswers and the timeouts of TimeoutsAndIdentification: a WRITE of two words at its header, its first and its last word
and a HOLD, and a READ of two words at its header, its first and its last word. -/
theorem witness_head_answers :
    (∀ x ∈ [(access true 2, Stage.header, ([] : List U16)), (access true 2, .word 0, []), (access true 2, .word 1, []),
        (access true 2, .hold, []), (access false 2, .header, []), (access false 2, .data, []), (access false 2, .data, [9])],
      let s := sending x.1 x.2.1 x.2.2
      Quiet s ∧ (s.port 3).ctl.state = .sending ∧ (s.port 3).ctl.exposes = [] ∧ (s.port 3).ctl.lensMsgs = [] ∧
        (s.port 3).ctl.heads = [] ∧ recordKind x.1.recAt s = 1 ∧ (x.1.part.write = true → x.1.part.words ≠ []) ∧
        x.1.part.count ≤ 8 ∧ (x.2.2.length < x.1.part.count ∨ x.2.2 = []) ∧
        (s.port 3).ctl.txn = some { message := .access x.1, part := 0, stage := x.2.1, acked := 0, data := x.2.2 } ∧
        (s.port 3).ctl.replyTimer.isSome = true ∧ (s.port 3).ctl.holdTimer.isSome = true) ∧
    (0 + 1 < (access true 2).part.words.length ∧ 1 + 1 = (access true 2).part.words.length) ∧
    (([] : List U16).length + 1 < (access false 2).part.count ∧ (access false 2).part.count ≤ [(9 : U16)].length + 1) := by decide

/-- Port 3 with one entry, nothing waiting on its channel, and a transaction or none. -/
def served (c : ChannelState) (x : Option Txn) (e : Entry) (f : Port → Port := id) : State :=
  onPort fun q => f { q with
    ctl := { q.ctl with state := c, txn := x, replyTimer := some 2, holdTimer := some 50, ready := true }
    frame := { q.frame with entries := [e] } }

/-- A phase of trigger 5 with a unit in progress and one after it. -/
def moving : LensPhase where
  trigger := 5
  started := 0
  targets := [⟨0, 100, some 9, none, false⟩, ⟨1, 100, some 9, none, false⟩]
  flags := 0
  deadline := some 50

/-- The entry of trigger 5 in its lens phase, with a lens record at `hac`. -/
def inPhase : Entry := { entry with phase := .lensMoving, lensRec := some hac, lensPairs := some [(0, 100), (1, 100)] }

/-- The LENS message of that phase, and its transaction at a part and a stage. -/
def lensTxn (part : Nat) (st : Stage) : Txn :=
  { message := .lens ⟨5, [(0, 9), (1, 9)]⟩, part := part, stage := st, acked := 0, data := [] }

/-- HeadAccessAnswers, an EXPOSE: at its header, its word and a HOLD. -/
theorem witness_expose_answers :
    let e : Entry := { entry with phase := .exposeQueued }
    ∀ st ∈ [Stage.header, .word 0, .hold],
      let x : Txn := { message := .expose e.trigger, part := 0, stage := st, acked := 0, data := [] }
      let s := served .sending (some x) e
      Quiet s ∧ (s.port 3).ctl.txn = some x ∧ (s.port 3).frame.entries = [e] ∧ e.set = none ∧ (s.port 3).frame.recv = .idle ∧
        (s.port 3).ctl.exposes = [] ∧ (s.port 3).ctl.lensMsgs = [] ∧ (s.port 3).ctl.heads = [] ∧
        (s.port 3).ctl.replyTimer.isSome = true ∧ (s.port 3).ctl.holdTimer.isSome = true := by decide

/-- HeadAccessAnswers, a LENS: its first part and its last, with either late action. -/
theorem witness_lens_answers :
    (∀ x ∈ [(0, Stage.header), (0, .word 0), (1, .word 0), (1, .hold)], ∀ d ∈ [LateAction.expose, .drop],
      let s := served .sending (some (lensTxn x.1 x.2)) inPhase fun q => { q with lens := { q.lens with phase := some moving, lateAction := d } }
      Quiet s ∧ (s.port 3).ctl.txn = some (lensTxn x.1 x.2) ∧ (s.port 3).lens.phase = some moving ∧ moving.targets.length ≤ 4 ∧
        (s.port 3).lens.held = [] ∧ (s.port 3).lens.lateAction = d) ∧
    (([((0 : UnitId), 9), (1, 9)] : List (UnitId × Nat))[0 + 1]? = some (1, 9)) ∧
    (([((0 : UnitId), 9), (1, 9)] : List (UnitId × Nat))[1 + 1]? = none) ∧
    ∃ y ∈ settled (some 0) .refused moving.targets, y.result = some .refused := by decide

/-- TimeoutsAndIdentification: the fifth word of a PING, with heights 8192 and 8193, and a retry that is due. -/
theorem witness_identification :
    let x : Txn := { message := .ping, part := 0, stage := .data, acked := 0, data := [1, 2, 3, 8192] }
    let s := talking { state := .sending, txn := some x }
    let r := talking { state := .idle, retryTimer := some 100 }
    (Quiet s ∧ (s.port 3).ctl.exposes = [] ∧ (s.port 3).ctl.lensMsgs = [] ∧ (s.port 3).ctl.heads = [] ∧
      (s.port 3).ctl.txn = some x ∧ (s.port 3).ctl.identity = none ∧ (8192 : U16).toNat ≤ 8192 ∧ ¬ (8193 : U16).toNat ≤ 8192) ∧
    (Quiet r ∧ (r.port 3).ctl.state = .idle ∧ (r.port 3).ctl.txn = none ∧ (r.port 3).ctl.retryTimer.isSome = true) := by decide

/-- TimeoutsAndIdentification: an identity held with boot count 3, a changed one beside the PING's 2, on a port with nothing in hand. -/
theorem witness_held_identity :
    let old : Identity := { model := 1, boot := 3, presence := 15, maxWidth := 1, maxHeight := 1 }
    let x : Txn := { message := .ping, part := 0, stage := .data, acked := 0, data := [1, 2, 3, 8192] }
    let s := talking { state := .sending, txn := some x, identity := some old }
    Quiet s ∧ (s.port 3).ctl.identity = some old ∧ old.boot ≠ 2 ∧ (s.port 3).ctl.noCompare = false ∧
      (s.port 3).frame.entries = [] ∧ (s.port 3).frame.recv = .idle ∧ (s.port 3).lens.phase = none ∧ (s.port 3).lens.held = [] := by
  decide

/-- Notes: an idle channel, a HEAD_ACCESS header just sent, and a note under way on a port with nothing in hand. -/
theorem witness_notes :
    let i := talking { state := .idle }
    let h : State := { sending (access true 2) .header with cable := [⟨3, .header 4 true 1⟩] }
    let n := talking { state := .note, noteTimer := some 2 }
    (Quiet i ∧ (i.port 3).ctl.state = .idle ∧ (i.port 3).ctl.heads = []) ∧
    (Quiet h ∧ (h.port 3).ctl.state = .sending ∧ h.cable = ⟨3, .header 4 true 1⟩ :: [] ∧
      (h.port 3).ctl.txn = some { message := .access (access true 2), part := 0, stage := .header, acked := 0, data := [] }) ∧
    (Quiet n ∧ (n.port 3).ctl.state = .note ∧ IdlePort 3 n) := by decide

/-! ### Axes, inputs, takes, lens and sweeps -/

/-- A point of source 0 on axis A at 10, one count away from 9, with port 3's taker and chains; the source's last number, its last
fire of a limit of two, and a next point beyond the range. -/
def passing (f : Port → Port) (number made mask : Nat) (g : PitchProgramme) : State :=
  let s := onPort f
  { s with trig := { s.trig with
    axisA := { position := g.origin - 1 }
    sources := s.trig.sources.set 0 { kind := .pitch g, active := true, next := some g.origin, number := BitVec.ofNat 32 number
                                      made := BitVec.ofNat 32 made, mask := BitVec.ofNat 8 mask } } }

/-- Two fires, every ten counts from 10 on. -/
def step10 : PitchProgramme := { axis := .a, origin := 10, pitch := 10, direction := .forward, limit := 2 }

/-- AxisCount: not RUNNING; a source of no port that goes on, that ends with its last number, with its limit and at the end of the range;
and a source of port 3 whose fire is skipped and whose fire is admitted at once, on a busy and on an IDLE channel. -/
theorem witness_axis_count :
    let passes (s : State) (g : PitchProgramme) := Quiet s ∧ (s.source 0).kind = .pitch g ∧ g.axis = .a ∧ (s.source 0).active = true ∧
      (s.source 0).next = some ((axisState .a s.trig).position + 1) ∧ ∀ j : SourceId, j ≠ 0 → (s.source j).kind = .none
    let idle (q : Port) : Port := ready { q with ctl := { q.ctl with state := .idle } }
    let far : PitchProgramme := { step10 with origin := 2147483647 }
    let halted : State := { passing id 4 0 0 step10 with chain := {} }
    (passes halted step10 ∧ halted.running = false) ∧
    (∀ x ∈ [(4, 0), (0xFFFFFFFE, 0), (4, 1)], passes (passing id x.1 x.2 0 step10) step10 ∧ ((passing id x.1 x.2 0 step10).source 0).mask = 0) ∧
    (passes (passing id 4 0 0 far) far ∧ 2147483647 < (2147483647 : U32).toInt + far.pitch) ∧
    (let s := passing id 4 0 8 step10
     passes s step10 ∧ (s.source 0).mask = BitVec.twoPow 8 (3 : PortId).val ∧ s.setOf 3 = none ∧ (refusedTaker 5 (s.port 3)).isSome = true) ∧
    (∀ f ∈ [ready, idle], passes (passing f 4 0 8 step10) step10) ∧
    TakesAtOnce 3 img (0x40000, 64, 16, .packed) (passing ready 4 0 8 step10) ∧
    TakesAtOnce 3 img (0x40000, 64, 16, .packed) (passing idle 4 0 8 step10) := by
  refine ⟨?_, ?_, ?_, ?_, ?_, ⟨?_, ?_, ?_, ?_, ?_, ?_, ?_, ?_, ?_⟩, ⟨?_, ?_, ?_, ?_, ?_, ?_, ?_, ?_, ?_⟩⟩ <;> decide

/-- Inputs: a rise without and with a debounce, its expiry, and a fall. -/
theorem witness_inputs :
    let s (d : Debouncer) : State := { cell with trig := { cell.trig with in0 := d } }
    (∀ k : SourceId, (cell.source k).kind = .input .in0 → (cell.source k).mask = 0) ∧
    (Quiet (s {}) ∧ (s {}).trig.in0.state = .low ∧ (s {}).trig.in0.setting = 0) ∧
    (Quiet (s { setting := 1000 }) ∧ (s { setting := 1000 }).trig.in0.setting ≠ 0) ∧
    (Quiet (s { state := .rising, setting := 1000, timer := some 1000 }) ∧
      (s { state := .rising, setting := 1000, timer := some 1000 }).trig.in0.state = .rising) := by decide

/-- Inputs: an edge of a source that drives port 3, refused for want of READY, and one taken. -/
theorem witness_input_takes :
    let s (f : Port → Port) : State := { onPort f with trig := { (onPort f).trig with
      sources := (onPort f).trig.sources.set 0 { kind := .input .in0, active := true, mask := 0x08, number := 4 } } }
    (Quiet (s id) ∧ (s id).running = true ∧ (s id).trig.in0.state = .low ∧ (s id).trig.in0.setting = 0 ∧ ((s id).source 0).kind = .input .in0 ∧
      ((s id).source 0).mask = BitVec.twoPow 8 (3 : PortId).val ∧ (s id).setOf 3 = none ∧
      (∀ j : SourceId, j ≠ 0 → ((s id).source j).active = false) ∧ (refusedTaker 5 ((s id).port 3)).isSome = true) ∧
    TakesAtOnce 3 img (0x40000, 64, 16, .packed) (s ready) := by
  refine ⟨?_, ⟨?_, ?_, ?_, ?_, ?_, ?_, ?_, ?_, ?_⟩⟩ <;> decide

/-- DriveCode: the focus table of 05_lens_settings.md, below, above and between its points. -/
theorem witness_drive_code :
    let t : List TablePoint := [(-2000, 400), (0, 1200), (5000, 3100)]
    2 ≤ t.length ∧ tableWf t = true ∧ (-2001 : Int) < -2000 ∧ (5000 : Int) < 5001 ∧
      t = [] ++ (-2000, 400) :: (0, 1200) :: [(5000, 3100)] ∧ (-2000 : Int) < -1 ∧ (-1 : Int) < 0 := by decide

/-- LensDeadline: the only entry in LENS_MOVING, its message waiting behind a note, and its transaction in progress; with either late
action. -/
theorem witness_lens_deadline :
    ∀ d ∈ [LateAction.expose, .drop],
      let f (q : Port) : Port := { q with lens := { q.lens with phase := some moving, lateAction := d } }
      let n := served .note none inPhase f
      let s := served .sending (some (lensTxn 0 .hold)) inPhase f
      (Quiet n ∧ (n.port 3).lens.phase = some moving ∧ moving.deadline = some 50 ∧ (n.port 3).frame.entries = [inPhase] ∧
        inPhase.trigger = moving.trigger ∧ inPhase.set = none ∧ (n.port 3).frame.recv = .idle ∧ (n.port 3).lens.held = [] ∧
        (n.port 3).ctl.exposes = [] ∧ (n.port 3).ctl.state ≠ .idle ∧ (n.port 3).ctl.txn = none) ∧
      (Quiet s ∧ (s.port 3).ctl.txn = some (lensTxn 0 .hold) ∧ (s.port 3).ctl.lensMsgs = [] ∧ (s.port 3).ctl.heads = []) := by decide

/-- LensDeadline, the start of a phase: lens mode OFF; a record with a unit to write, and with units without a table or absent. -/
theorem witness_phase_starts :
    let old : Entry := { entry with phase := .exposeQueued, trigger := 4 }
    let e : Entry := { entry with phase := .lensWait, lensRec := some hac, lensPairs := some [(0, 100)] }
    let x : Txn := { message := .expose 4, part := 0, stage := .word 0, acked := 0, data := [] }
    let s (f : LensState → LensState) (i : Option Identity) := onPort fun q => { q with
      ctl := { q.ctl with state := .sending, txn := some x, identity := i }, frame := { q.frame with entries := [old, e] }, lens := f q.lens }
    let chain (l : LensState) : LensState := { l with chain := true, tables := l.tables.set 0 [(0, 0), (200, 4000)] }
    let here : Identity := { model := 1, boot := 2, presence := 1, maxWidth := 1, maxHeight := 1 }
    (Quiet (s id none) ∧ ((s id none).port 3).ctl.txn = some x ∧ ((s id none).port 3).frame.entries = [old, e] ∧
      e.trigger ≠ old.trigger ∧ ((s id none).port 3).frame.recv = .idle ∧ ((s id none).port 3).lens.chain = false) ∧
    (partsToWrite [judgeTarget ((s chain (some here)).port 3).lens 1 (0, 100)] = [(0, 2000)]) ∧
    (partsToWrite [judgeTarget ((s chain none).port 3).lens 0 (0, 100)] = []) := by decide

/-- LensDeadline, a lens record closed with its entry: in LENS_WAIT and in LENS_MOVING. -/
theorem witness_lens_close :
    let w := served .note none { inPhase with phase := .lensWait }
    let m := served .note none inPhase fun q => { q with
      lens := { q.lens with phase := some moving }, ctl := { q.ctl with lensMsgs := [⟨5, [(0, 9), (1, 9)]⟩] } }
    (Quiet w ∧ (w.port 3).ctl.state = .note ∧ (w.port 3).ctl.txn = none ∧ (w.port 3).frame.recv = .idle ∧
      (w.port 3).lens.phase = none ∧ ∀ x ∈ (w.port 3).ctl.lensMsgs, x.trigger = 5) ∧
    (Quiet m ∧ (m.port 3).lens.phase = some moving ∧ ∀ x ∈ (m.port 3).ctl.lensMsgs, x.trigger = inPhase.trigger) := by decide

/-- SweepComplete: a host sweep of port 5 with nothing waiting, and an auto sweep of port 6 in TRIPPED with port 5 waiting. -/
theorem witness_sweep_complete :
    let auto : SweepEntry := { port := 6, origin := .auto, cause := .short, averages := 16, recAt := none }
    let s : State := { setPort 6 (fun q => { q with power := { q.power with state := .tripped } }) busy with
      sweeps := { front := busy.sweeps.front.map fun m => { m with entry := auto }
                  queue := [{ port := 5, origin := .host, cause := .ok, averages := 1, recAt := some at0 }] } }
    (busy.sweeps.front.isSome = true ∧ ∀ m ∈ busy.sweeps.front, Quiet busy ∧ m.entry.recAt = some at0 ∧ m.entry.origin = .host ∧
      powerOf m.entry.port busy = .off ∧ (busy.port m.entry.port).power.pendingOn = false ∧ recordKind at0 busy = 1 ∧
      0x80 ≤ distanceFrom (blockAt (0x840 + 0x80 * m.entry.port.val) busy) at0.toNat) ∧
    (s.sweeps.front.isSome = true ∧ ∀ m ∈ s.sweeps.front, Quiet s ∧ m.entry.recAt = none ∧ m.entry.origin = .auto ∧
      powerOf m.entry.port s = .tripped ∧ (s.port m.entry.port).power.expired = false) := by decide

/-- SweepComplete: pending-on in OFF and in TRIPPED, an expired cooldown with a retry left and without, and under a low supply. -/
theorem witness_sweep_power :
    ∀ st ∈ [PowerState.off, .tripped], ∀ n ∈ [0, 1], ∀ on ∈ [false, true], ∀ low ∈ [false, true],
      let s : State := setPort 5 (fun q => { q with power := { q.power with state := st, pendingOn := on, expired := true, retries := n } })
        { busy with power := { busy.power with supplyLow := low } }
      Quiet s ∧ powerOf 5 s = st ∧ ∀ m ∈ s.sweeps.front, m.entry.port = 5 ∧ m.entry.origin = .host ∧ m.entry.recAt = some at0 ∧
        recordKind at0 s = 1 := by decide

/-- SweepAndBinArithmetic: a rising and a falling pair that straddles the level, a delay below 0, and a range of one count with positions at its ends. -/
theorem witness_sweep_arithmetic :
    ((700 : Int) ≤ 800 ∧ (800 : Int) < 1100) ∧ ((700 : Int) < 800 ∧ (800 : Int) ≤ 1100) ∧ (-1 : Int) < 0 ∧ (0 : Int) < 32 ∧ (0 : Int) ≤ 0 ∧ (32 : Int) ≤ 32 ∧
      ((0 : Int) < 1 ∧ (1 : Int) < 32) := by decide

/-- LayoutsRoundTrip: the longest LINE number and the widest frame are legal. -/
theorem witness_layouts :
    burstLegal (.frameOpen { header with width := 8192, height := 8192 }) = true ∧ burstLegal (.line 8191 [0]) = true ∧
      burstLegal (.frameClose 8192) = true ∧ burstLegal .fill = true := by decide

end Sys2Proof.Tests
end

section
/-! PROOFS. What the closing operations of a port leave alone: completions, exposure entries, lens phases, held commands and the
control channel. -/

namespace Sys2Proof.Machine

/-- Nothing goes on at a port: its channel is SUSPENDED without READY and its exposure list is empty (R57, R105). -/
structure Dormant (q : Port) : Prop where
  suspended : q.ctl.state = .suspended
  notReady : q.ctl.ready = false
  noEntry : q.frame.entries = []

/-- From `s` to `t` a port has at most closed what it had in hand: host memory changes by DMA, records complete, sets change;
the Power Controller, the clock, the sweeps and the other ports stay as they are, and so do the port's power, link, sweep, flex map
and alerts; no exposure entry comes in, and a dormant port stays dormant. -/
structure Closes (p : PortId) (s t : State) : Prop where
  dma : DmaOnly s t
  power : t.power = s.power
  trig : t.trig = s.trig
  sweeps : t.sweeps = s.sweeps
  cell : t.chain.cell = s.chain.cell
  others : ∀ q, q ≠ p → t.port q = s.port q
  portPower : (t.port p).power = (s.port p).power
  link : (t.port p).link = (s.port p).link
  sweep : (t.port p).sweep = (s.port p).sweep
  flex : (t.port p).flex = (s.port p).flex
  alerts : (t.port p).alerts = (s.port p).alerts
  entries : (t.port p).frame.entries ⊆ (s.port p).frame.entries
  dormant : Dormant (s.port p) → Dormant (t.port p)

namespace Closes

variable {p : PortId} {s t u : State}

theorem refl (p : PortId) (s : State) : Closes p s s :=
  ⟨.refl s, rfl, rfl, rfl, rfl, fun _ _ => rfl, rfl, rfl, rfl, rfl, rfl, List.Subset.refl _, id⟩

theorem trans (h : Closes p s t) (g : Closes p t u) : Closes p s u where
  dma := h.dma.trans g.dma
  power := g.power.trans h.power
  trig := g.trig.trans h.trig
  sweeps := g.sweeps.trans h.sweeps
  cell := g.cell.trans h.cell
  others q hq := (g.others q hq).trans (h.others q hq)
  portPower := g.portPower.trans h.portPower
  link := g.link.trans h.link
  sweep := g.sweep.trans h.sweep
  flex := g.flex.trans h.flex
  alerts := g.alerts.trans h.alerts
  entries := List.Subset.trans g.entries h.entries
  dormant := g.dormant ∘ h.dormant

theorem of_cardKept (h : CardKept s t) (d : DmaOnly s t) : Closes p s t where
  dma := d
  power := h.power
  trig := h.trig
  sweeps := h.sweeps
  cell := h.cell
  others q _ := h.port q
  portPower := by rw [h.port]
  link := by rw [h.port]
  sweep := by rw [h.port]
  flex := by rw [h.port]
  alerts := by rw [h.port]
  entries := by rw [h.port]; exact List.Subset.refl _
  dormant := by rw [h.port]; exact id

/-- A fold of closing operations. -/
theorem foldl {α : Type} (f : State → α → State) (hf : ∀ s x, Closes p s (f s x)) (l : List α) (s : State) :
    Closes p s (l.foldl f s) := by
  induction l generalizing s with
  | nil => exact refl p s
  | cons x t ih => exact (hf s x).trans (ih (f s x))

end Closes

theorem closes_modPort (p : PortId) (f : Port → Port) (s : State) (hpower : (f (s.port p)).power = (s.port p).power)
    (hlink : (f (s.port p)).link = (s.port p).link) (hsweep : (f (s.port p)).sweep = (s.port p).sweep)
    (hflex : (f (s.port p)).flex = (s.port p).flex) (halerts : (f (s.port p)).alerts = (s.port p).alerts)
    (hentries : (f (s.port p)).frame.entries ⊆ (s.port p).frame.entries)
    (hdormant : Dormant (s.port p) → (f (s.port p)).ctl.state = .suspended ∧ (f (s.port p)).ctl.ready = false) :
    Closes p s (modPort p f s) where
  dma := dmaOnly_modPort p f s
  power := rfl
  trig := rfl
  sweeps := rfl
  cell := rfl
  others q hq := modPort_port_other s p q f hq
  portPower := by simpa [modPort_port] using hpower
  link := by simpa [modPort_port] using hlink
  sweep := by simpa [modPort_port] using hsweep
  flex := by simpa [modPort_port] using hflex
  alerts := by simpa [modPort_port] using halerts
  entries := by simpa [modPort_port] using hentries
  dormant h := by
    rw [modPort_port, if_pos rfl]
    exact ⟨(hdormant h).1, (hdormant h).2, List.subset_nil.mp (h.noEntry ▸ hentries)⟩

theorem closes_modLens (p : PortId) (f : LensState → LensState) (s : State) : Closes p s (modLens p f s) :=
  closes_modPort p _ s rfl rfl rfl rfl rfl (List.Subset.refl _) fun h => ⟨h.suspended, h.notReady⟩

theorem closes_modTake (p : PortId) (f : Taker → Taker) (s : State) : Closes p s (modTake p f s) :=
  closes_modPort p _ s rfl rfl rfl rfl rfl (List.Subset.refl _) fun h => ⟨h.suspended, h.notReady⟩

theorem closes_modCtl (p : PortId) (f : Channel → Channel) (s : State)
    (h : (s.port p).ctl.state = .suspended → (s.port p).ctl.ready = false →
      (f (s.port p).ctl).state = .suspended ∧ (f (s.port p).ctl).ready = false) : Closes p s (modCtl p f s) :=
  closes_modPort p _ s rfl rfl rfl rfl rfl (List.Subset.refl _) fun d => h d.suspended d.notReady

theorem closes_modFrame (p : PortId) (f : FrameRx → FrameRx) (s : State)
    (h : (f (s.port p).frame).entries ⊆ (s.port p).frame.entries) : Closes p s (modFrame p f s) :=
  closes_modPort p _ s rfl rfl rfl rfl rfl h fun d => ⟨d.suspended, d.notReady⟩

theorem closes_touchPort (p : PortId) (s : State) : Closes p s (touchPort p s) where
  dma := .of_eq rfl rfl
  power := rfl
  trig := rfl
  sweeps := rfl
  cell := rfl
  others q hq := by rw [touchPort_port, if_neg hq]
  portPower := by rw [touchPort_port, if_pos rfl]
  link := by rw [touchPort_port, if_pos rfl]
  sweep := by rw [touchPort_port, if_pos rfl]
  flex := by rw [touchPort_port, if_pos rfl]
  alerts := by rw [touchPort_port, if_pos rfl]
  entries := by rw [touchPort_port, if_pos rfl]; exact List.Subset.refl _
  dormant h := by rw [touchPort_port, if_pos rfl]; exact ⟨h.suspended, h.notReady, h.noEntry⟩

theorem closes_modSet (p : PortId) (k : SetId) (f : FrameSet → FrameSet) (s : State) : Closes p s (modSet k f s) :=
  ⟨.of_eq rfl rfl, rfl, rfl, rfl, rfl, fun _ _ => rfl, rfl, rfl, rfl, rfl, rfl, List.Subset.refl _, id⟩

/-! ## Completions -/

variable (p : PortId)

theorem closes_dmaWrite (a : Addr) (bs : List Byte) (s : State) : Closes p s (dmaWrite a bs s) :=
  .of_cardKept (cardKept_dmaWrite a bs s) (dmaOnly_dmaWrite a bs s)

theorem closes_completeCommand (a : Addr) (c : Code) (r : List Byte) (s : State) : Closes p s (completeCommand a c r s) :=
  .of_cardKept (cardKept_completeCommand a c r s) (dmaOnly_completeCommand a c r s)

theorem closes_completeRecord (ch : ChainId) (a : Addr) (ok : Bool) (s : State) : Closes p s (completeRecord ch a ok s) :=
  .of_cardKept (cardKept_completeRecord ch a ok s) (dmaOnly_completeRecord ch a ok s)

theorem closes_completeLens (p' : PortId) (a : Addr) (c : Code) (source : SourceId) (trigger : U32) (o : LensOutcome)
    (fl : BitVec 4) (ts : List Target) (b e : U64) (s : State) :
    Closes p s (completeLens p' a c source trigger o fl ts b e s) :=
  .of_cardKept (cardKept_completeLens ..) (dmaOnly_completeLens ..)

theorem closes_completeItem (k : SetId) (i : SetItem) (s : State) : Closes p s (completeItem k i s) := by
  unfold completeItem
  refine .trans (.trans (.trans (.foldl _ ?_ _ _) (.foldl _ ?_ _ _)) (.foldl _ ?_ _ _)) (closes_modSet p k _ _)
  · exact fun s x => closes_dmaWrite p _ _ s
  · exact fun s x => .of_cardKept (cardKept_finishState ..) (dmaOnly_finishState ..)
  · exact fun s x => .of_cardKept (cardKept_finishCount ..) (dmaOnly_finishCount ..)

theorem closes_closeSlot (k : SetId) (n : U32) (p' : PortId) (c : Code) (s : State) : Closes p s (closeSlot k n p' c s) := by
  unfold closeSlot
  split
  · exact .refl p s
  · dsimp only
    split
    · exact (closes_modSet p k _ s).trans (closes_completeItem p k _ _)
    · exact closes_modSet p k _ s

theorem closes_completeImage (p' : PortId) (e : Entry) (f : Option Filling) (sent : Nat) (c : Code) (s : State) :
    Closes p s (completeImage p' e f sent c s) := by
  unfold completeImage
  dsimp only
  split
  · exact (closes_dmaWrite p _ _ s).trans (closes_completeRecord p _ _ _ _)
  · exact (((closes_dmaWrite p _ _ s).trans (closes_dmaWrite p _ _ _)).trans (closes_dmaWrite p _ _ _)).trans
      (closes_closeSlot p _ _ _ _ _)

theorem closes_closeLensShare (e : Entry) (c : Code) (s : State) : Closes p s (closeLensShare p e c s) := by
  unfold closeLensShare
  split
  · split
    · exact closes_completeLens p ..
    · exact .refl p s
  · split
    · exact .refl p s
    · dsimp only
      split
      · exact (closes_modLens p _ s).trans (closes_completeLens p ..)
      · exact closes_modLens p _ s
  · exact .refl p s

theorem closes_removeMessages (n : U32) (s : State) : Closes p s (removeMessages p n s) :=
  closes_modCtl p _ s fun h g => ⟨h, g⟩

/-! ## Exposure entries -/

/-- A close takes the entry of its trigger number out of the list and leaves the port's other blocks alone (R121, R122). -/
theorem closes_closeEntry (n : U32) (c : Code) (sent : Nat) (s : State) : Closes p s (closeEntry p n c sent s) := by
  unfold closeEntry
  split
  · exact .refl p s
  · rename_i e _
    exact ((((closes_closeLensShare p e c s).trans (closes_removeMessages p n _)).trans
      (closes_modFrame p _ _ fun x hx => List.mem_of_mem_filter hx)).trans (closes_completeImage p ..)).trans
      (closes_touchPort p _)

/-- After a close no entry of the trigger number is in the list. -/
theorem closeEntry_gone (n : U32) (c : Code) (sent : Nat) (s : State) :
    ∀ e ∈ ((closeEntry p n c sent s).port p).frame.entries, e.trigger ≠ n := by
  intro e he
  unfold closeEntry at he
  split at he
  · rename_i hnone
    simpa using List.find?_eq_none.mp hnone e he
  · dsimp only at he
    have h1 := (closes_touchPort p _).entries he
    have h2 := (closes_completeImage p ..).entries h1
    rw [modFrame_port_self] at h2
    simpa using (List.mem_filter.mp h2).2

theorem closes_closeEntries (c : Code) (ns : List U32) (s : State) :
    Closes p s (closeEntries c (ns.map fun n => (p, n)) s) := by
  induction ns generalizing s with
  | nil => exact .refl p s
  | cons n ns ih => exact (closes_closeEntry p n c 0 s).trans (ih _)

theorem closeEntries_gone (c : Code) (ns : List U32) (s : State) :
    ∀ e ∈ ((closeEntries c (ns.map fun n => (p, n)) s).port p).frame.entries, e.trigger ∉ ns := by
  induction ns generalizing s with
  | nil => simp
  | cons n ns ih =>
    intro e he hmem
    rcases List.mem_cons.mp hmem with heq | hmem
    · exact closeEntry_gone p n c 0 s e ((closes_closeEntries p c ns _).entries he) heq
    · exact ih _ e he hmem

theorem entriesOf_eq (s : State) :
    entriesOf p s = ((s.port p).frame.entries.map (·.trigger)).map fun n => (p, n) := by
  simp [entriesOf]

/-! ## Held commands and lens phases -/

theorem closes_applyTable (h : HeldTable) (s : State) : Closes p s (applyTable p h s) :=
  (closes_modLens p _ s).trans (closes_completeCommand p ..)

theorem closes_applyHeld (s : State) : Closes p s (applyHeld p s) :=
  (closes_modLens p _ s).trans (.foldl _ (fun s h => closes_applyTable p h s) _ _)

theorem closes_settleTargets (r : UnitResult) (s : State) : Closes p s (settleTargets p r s) := by
  unfold settleTargets
  split
  · exact .refl p s
  · dsimp only
    split
    · exact closes_modLens p _ s
    · exact (closes_modLens p _ s).trans (closes_modLens p _ _)

theorem closes_stopDiscarding (s : State) : Closes p s (stopDiscarding p s) :=
  closes_modFrame p _ s (List.Subset.refl _)

theorem closes_afterCloses (s : State) : Closes p s (afterCloses p s) :=
  ((closes_modLens p _ s).trans (closes_stopDiscarding p _)).trans (closes_applyHeld p _)

theorem closes_closeAll (c : Code) (s : State) : Closes p s (closeAll p c s) := by
  unfold closeAll
  dsimp only
  rw [entriesOf_eq]
  exact ((closes_settleTargets p _ s).trans (closes_closeEntries p c _ _)).trans (closes_afterCloses p _)

/-- A port's entries all close (R122): the exposure list is empty. -/
theorem closeAll_entries (c : Code) (s : State) : ((closeAll p c s).port p).frame.entries = [] := by
  unfold closeAll
  dsimp only
  rw [entriesOf_eq]
  refine List.subset_nil.mp fun e he => absurd ?_ (closeEntries_gone p c _ _ e ((closes_afterCloses p _).entries he))
  exact List.mem_map_of_mem ((closes_closeEntries p c _ _).entries ((closes_afterCloses p _).entries he))

/-! ## The control channel -/

theorem cardKept_failHeadAccess (c : Code) (s : State) : CardKept s (failHeadAccess p c s) := by
  have fold : ∀ (hs : List HeadMessage) (s : State), CardKept s (hs.foldl (fun t m => match m with
      | .access h => completeCommand h.recAt c (headResults 0 []) t
      | .ping => t) s) := by
    intro hs
    induction hs with
    | nil => exact .refl
    | cons m ms ih =>
      intro s
      cases m with
      | access h => exact (cardKept_completeCommand ..).trans (ih _)
      | ping => exact ih s
  unfold failHeadAccess
  dsimp only
  refine .trans ?_ (fold _ _)
  split
  · split
    · exact cardKept_completeCommand ..
    · exact .refl s
  · exact .refl s

theorem dmaOnly_failHeadAccess (c : Code) (s : State) : DmaOnly s (failHeadAccess p c s) := by
  have fold : ∀ (hs : List HeadMessage) (s : State), DmaOnly s (hs.foldl (fun t m => match m with
      | .access h => completeCommand h.recAt c (headResults 0 []) t
      | .ping => t) s) := by
    intro hs
    refine dmaOnly_foldl _ (fun s m => ?_) hs
    cases m with
    | access h => exact dmaOnly_completeCommand ..
    | ping => exact .refl s
  unfold failHeadAccess
  dsimp only
  refine .trans ?_ (fold _ _)
  split
  · split
    · exact dmaOnly_completeCommand ..
    · exact .refl s
  · exact .refl s

theorem closes_failHeadAccess (c : Code) (s : State) : Closes p s (failHeadAccess p c s) :=
  .of_cardKept (cardKept_failHeadAccess p c s) (dmaOnly_failHeadAccess p c s)

theorem closes_suspendChannel (c : Code) (clear : Bool) (s : State) : Closes p s (suspendChannel p c clear s) :=
  (closes_failHeadAccess p c s).trans (closes_modCtl p _ _ fun _ _ => ⟨rfl, rfl⟩)

/-- A channel that has left LOCKED is SUSPENDED without READY, and nothing is sent or waits on it (R57). -/
theorem suspendChannel_ctl (c : Code) (clear : Bool) (s : State) :
    let x := ((suspendChannel p c clear s).port p).ctl
    x.state = .suspended ∧ x.ready = false ∧ x.txn = none ∧ (clear = true → x.identity = none) := by
  unfold suspendChannel
  rw [modCtl_port_self]
  exact ⟨rfl, rfl, rfl, fun h => by simp [h]⟩

end Sys2Proof.Machine
end

section
/-! PROOFS. The operations outside the Power Controller and the Link Receiver: they keep the budget and every port's power and link
state, and they wake no port but those that are awake. -/

namespace Sys2Proof.Machine

/-- From `s` to `t` the budget and every port's power state, class in use and link state stay as they are, and a dormant port stays
dormant unless it is one of `A`. -/
structure Keeps (A : PortId → Prop) (s t : State) : Prop where
  power : t.power = s.power
  state : ∀ q, powerOf q t = powerOf q s
  cls : ∀ q, (t.port q).power.clsInUse = (s.port q).power.clsInUse
  link : ∀ q, (t.port q).link.state = (s.port q).link.state
  dormant : ∀ q, ¬ A q → Dormant (s.port q) → Dormant (t.port q)

/-- Every port but those of `A` is dormant. -/
abbrev OnlyAwake (A : PortId → Prop) (s : State) : Prop := ∀ q, ¬ A q → Dormant (s.port q)

section
variable {A : PortId → Prop} {s t u : State}

theorem Keeps.refl (A : PortId → Prop) (s : State) : Keeps A s s :=
  ⟨rfl, fun _ => rfl, fun _ => rfl, fun _ => rfl, fun _ _ => id⟩

theorem Keeps.trans (h : Keeps A s t) (g : Keeps A t u) : Keeps A s u where
  power := g.power.trans h.power
  state q := (g.state q).trans (h.state q)
  cls q := (g.cls q).trans (h.cls q)
  link q := (g.link q).trans (h.link q)
  dormant q hq := g.dormant q hq ∘ h.dormant q hq

theorem Keeps.onlyAwake (h : Keeps A s t) (hs : OnlyAwake A s) : OnlyAwake A t :=
  fun q hq => h.dormant q hq (hs q hq)

theorem Keeps.of_ports (hp : t.power = s.power) (h : ∀ q, t.port q = s.port q) : Keeps A s t where
  power := hp
  state q := by unfold powerOf; rw [h]
  cls q := by rw [h]
  link q := by rw [h]
  dormant q _ := by rw [h]; exact id

/-- The bookkeeping of the mirrors is none of the laws' business. -/
theorem Keeps.of_portView (hp : t.power = s.power) (h : ∀ q, portView (t.port q) = portView (s.port q)) : Keeps A s t where
  power := hp
  state q := show (portView (t.port q)).power.state = (portView (s.port q)).power.state by rw [h q]
  cls q := show (portView (t.port q)).power.clsInUse = (portView (s.port q)).power.clsInUse by rw [h q]
  link q := show (portView (t.port q)).link.state = (portView (s.port q)).link.state by rw [h q]
  dormant q _ d :=
    ⟨show (portView (t.port q)).ctl.state = .suspended by rw [h q]; exact d.suspended,
      show (portView (t.port q)).ctl.ready = false by rw [h q]; exact d.notReady,
      show (portView (t.port q)).frame.entries = [] by rw [h q]; exact d.noEntry⟩

theorem keeps_ite (c : Prop) [Decidable c] (ht : Keeps A s t) (hu : Keeps A s u) : Keeps A s (if c then t else u) := by
  split
  · exact ht
  · exact hu

theorem CardKept.keeps (h : CardKept s t) : Keeps A s t := .of_ports h.power h.port

theorem Closes.keeps {p : PortId} (h : Closes p s t) : Keeps A s t where
  power := h.power
  state q := by
    unfold powerOf
    rcases eq_or_ne q p with rfl | hq
    · rw [h.portPower]
    · rw [h.others q hq]
  cls q := by
    rcases eq_or_ne q p with rfl | hq
    · rw [h.portPower]
    · rw [h.others q hq]
  link q := by
    rcases eq_or_ne q p with rfl | hq
    · rw [h.link]
    · rw [h.others q hq]
  dormant q _ := by
    rcases eq_or_ne q p with rfl | hq
    · exact h.dormant
    · rw [h.others q hq]; exact id

/-- A fold of operations that keep, as long as only the ports of `A` are awake. -/
theorem keeps_foldl {α : Type} {f : State → α → State} (l : List α)
    (hf : ∀ s, ∀ x ∈ l, OnlyAwake A s → Keeps A s (f s x)) (hs : OnlyAwake A s) : Keeps A s (l.foldl f s) := by
  induction l generalizing s with
  | nil => exact .refl A s
  | cons x l ih =>
    have h := hf s x List.mem_cons_self hs
    exact h.trans (ih (fun s y hy => hf s y (List.mem_cons_of_mem x hy)) (h.onlyAwake hs))

theorem keeps_forPorts {f : PortId → State → State} (ps : List PortId)
    (hf : ∀ s p, OnlyAwake A s → Keeps A s (f p s)) (hs : OnlyAwake A s) : Keeps A s (forPorts ps f s) :=
  keeps_foldl ps (fun s p _ => hf s p) hs

/-- A fold of operations that keep whatever is awake. -/
theorem keeps_foldl' {α : Type} {f : State → α → State} (l : List α) (hf : ∀ s x, Keeps A s (f s x)) (s : State) :
    Keeps A s (l.foldl f s) := by
  induction l generalizing s with
  | nil => exact .refl A s
  | cons x l ih => exact (hf s x).trans (ih _)

theorem keeps_forPorts' {f : PortId → State → State} (ps : List PortId) (hf : ∀ s p, Keeps A s (f p s)) (s : State) :
    Keeps A s (forPorts ps f s) := keeps_foldl' ps hf s

end

variable {A : PortId → Prop} (p : PortId)

/-! ## Updates of the state -/

theorem keeps_modPort (f : Port → Port) (s : State) (hstate : (f (s.port p)).power.state = (s.port p).power.state)
    (hcls : (f (s.port p)).power.clsInUse = (s.port p).power.clsInUse)
    (hlink : (f (s.port p)).link.state = (s.port p).link.state)
    (hdormant : ¬ A p → Dormant (s.port p) → Dormant (f (s.port p))) : Keeps A s (modPort p f s) where
  power := rfl
  state q := by
    unfold powerOf
    rw [modPort_port]
    split
    · rename_i hq; rw [hq]; exact hstate
    · rfl
  cls q := by
    rw [modPort_port]
    split
    · rename_i hq; rw [hq]; exact hcls
    · rfl
  link q := by
    rw [modPort_port]
    split
    · rename_i hq; rw [hq]; exact hlink
    · rfl
  dormant q hA := by
    rw [modPort_port]
    split
    · rename_i hq
      subst hq
      exact fun h => ⟨(hdormant hA h).suspended, (hdormant hA h).notReady, (hdormant hA h).noEntry⟩
    · exact id

theorem keeps_modPower (f : PortPower → PortPower) (s : State) (hstate : (f (s.port p).power).state = (s.port p).power.state)
    (hcls : (f (s.port p).power).clsInUse = (s.port p).power.clsInUse) : Keeps A s (modPower p f s) :=
  keeps_modPort p _ s hstate hcls rfl fun _ h => ⟨h.suspended, h.notReady, h.noEntry⟩

theorem keeps_modLink (f : LinkRx → LinkRx) (s : State) (h : (f (s.port p).link).state = (s.port p).link.state) :
    Keeps A s (modLink p f s) :=
  keeps_modPort p _ s rfl rfl h fun _ h => ⟨h.suspended, h.notReady, h.noEntry⟩

theorem keeps_modLens (f : LensState → LensState) (s : State) : Keeps A s (modLens p f s) := (closes_modLens p f s).keeps

theorem keeps_modTake (f : Taker → Taker) (s : State) : Keeps A s (modTake p f s) := (closes_modTake p f s).keeps

theorem keeps_modSweep (f : PortSweep → PortSweep) (s : State) : Keeps A s (modSweep p f s) :=
  keeps_modPort p _ s rfl rfl rfl fun _ h => ⟨h.suspended, h.notReady, h.noEntry⟩

theorem keeps_modFlex (f : FlexMap → FlexMap) (s : State) : Keeps A s (modFlex p f s) :=
  keeps_modPort p _ s rfl rfl rfl fun _ h => ⟨h.suspended, h.notReady, h.noEntry⟩

/-- A change of the channel, of a port that may be awake or one that leaves a SUSPENDED channel so. -/
theorem keeps_modCtl (f : Channel → Channel) (s : State)
    (h : ¬ A p → Dormant (s.port p) → (f (s.port p).ctl).state = .suspended ∧ (f (s.port p).ctl).ready = false) :
    Keeps A s (modCtl p f s) :=
  keeps_modPort p _ s rfl rfl rfl fun hA d => ⟨(h hA d).1, (h hA d).2, d.noEntry⟩

/-- A change of the channel that leaves its state and READY alone. -/
theorem keeps_modCtl_same (f : Channel → Channel) (s : State) (hstate : (f (s.port p).ctl).state = (s.port p).ctl.state)
    (hready : (f (s.port p).ctl).ready = (s.port p).ctl.ready) : Keeps A s (modCtl p f s) :=
  keeps_modCtl p f s fun _ d => ⟨hstate.trans d.suspended, hready.trans d.notReady⟩

theorem keeps_modFrame (f : FrameRx → FrameRx) (s : State)
    (h : ¬ A p → (s.port p).frame.entries = [] → (f (s.port p).frame).entries = []) : Keeps A s (modFrame p f s) :=
  keeps_modPort p _ s rfl rfl rfl fun hA d => ⟨d.suspended, d.notReady, h hA d.noEntry⟩

theorem keeps_touchPort (s : State) : Keeps A s (touchPort p s) := (closes_touchPort p s).keeps

theorem keeps_modChain (f : ChainEngine → ChainEngine) (s : State) : Keeps A s (modChain f s) := .of_ports rfl fun _ => rfl
theorem keeps_modTrig (f : TriggerCell → TriggerCell) (s : State) : Keeps A s (modTrig f s) := .of_ports rfl fun _ => rfl
theorem keeps_modSweeps (f : SweepUnit → SweepUnit) (s : State) : Keeps A s (modSweeps f s) := .of_ports rfl fun _ => rfl
theorem keeps_modSet (k : SetId) (f : FrameSet → FrameSet) (s : State) : Keeps A s (modSet k f s) := .of_ports rfl fun _ => rfl
theorem keeps_dmaWrite (a : Addr) (bs : List Byte) (s : State) : Keeps A s (dmaWrite a bs s) := .of_ports rfl fun _ => rfl
theorem keeps_sendMessage (g : Group) (s : State) : Keeps A s (sendMessage g s) := .of_ports rfl fun _ => rfl
theorem keeps_sendSymbol (y : Symbol) (s : State) : Keeps A s (sendSymbol p y s) := .of_ports rfl fun _ => rfl
theorem keeps_takeRecord (ch : ChainId) (a : Addr) (s : State) : Keeps A s (takeRecord ch a s) := keeps_modChain _ s

/-! ## Causes, alerts, completions and mirrors -/

theorem keeps_setCause (g : Group) (s : State) : Keeps A s (setCause g s) := (cardKept_setCause g s).keeps

theorem keeps_setPortAlert (bit : Nat) (s : State) : Keeps A s (setPortAlert p bit s) := by
  unfold setPortAlert
  split
  · exact .refl A s
  · exact (keeps_modPort p _ s rfl rfl rfl fun _ h => ⟨h.suspended, h.notReady, h.noEntry⟩).trans (keeps_setCause _ _)

theorem keeps_setCellAlert (bit : Nat) (s : State) : Keeps A s (setCellAlert bit s) := by
  unfold setCellAlert
  split
  · exact .refl A s
  · exact (keeps_modChain _ s).trans (keeps_setCause _ _)

theorem keeps_completeCommand (a : Addr) (c : Code) (r : List Byte) (s : State) : Keeps A s (completeCommand a c r s) :=
  (cardKept_completeCommand a c r s).keeps

theorem writePortMirror_power (s : State) : (writePortMirror p s).power = s.power := by
  unfold writePortMirror
  exact dmaWrite_power ..

theorem keeps_writePortMirror (s : State) : Keeps A s (writePortMirror p s) :=
  .of_portView (writePortMirror_power p s) fun q => by
    rw [writePortMirror_port]
    split
    · rename_i hq; rw [hq]; rfl
    · rfl

theorem keeps_writeCellMirror (s : State) : Keeps A s (writeCellMirror s) := by
  unfold writeCellMirror
  exact (keeps_modChain _ s).trans (keeps_dmaWrite _ _ _)

theorem flushPort_power (s : State) : (flushPort p s).power = s.power := by
  rcases flushPort_cases p s with ⟨-, -, h⟩ | ⟨-, -, h⟩ | ⟨-, h⟩ <;> rw [h]
  · exact writePortMirror_power p s
  · exact dropPortDue_power s p

theorem keeps_flushPort (s : State) : Keeps A s (flushPort p s) :=
  .of_portView (flushPort_power p s) fun q => by
    rw [flushPort_port]
    split
    · rename_i hq; rw [hq.1]; rfl
    · rfl

theorem keeps_flushMirrors (s : State) : Keeps A s (flushMirrors s) := by
  have h : Keeps A s (forPorts allPorts flushPort s) := keeps_forPorts' _ (fun s p => keeps_flushPort p s) s
  rcases flushMirrors_cases s with e | e | ⟨-, e⟩ <;> rw [e]
  · exact h.trans (keeps_writeCellMirror _)
  · exact h.trans (keeps_modChain _ _)
  · exact h

/-! ## Exposure entries and lens phases -/

theorem keeps_modEntry (n : U32) (f : Entry → Entry) (s : State) : Keeps A s (modEntry p n f s) :=
  keeps_modFrame p _ s fun _ h => by rw [h]; rfl

theorem keeps_closeEntry (n : U32) (c : Code) (sent : Nat) (s : State) : Keeps A s (closeEntry p n c sent s) :=
  (closes_closeEntry p n c sent s).keeps

theorem keeps_queueExpose (n : U32) (s : State) : Keeps A s (queueExpose p n s) :=
  (keeps_modCtl_same p _ s rfl rfl).trans (keeps_modEntry p n _ _)

theorem keeps_endPhase (fixed : Option LensOutcome) (late : Bool) (s : State) : Keeps A s (endPhase p fixed late s) := by
  unfold endPhase
  split
  · exact .refl A s
  · rename_i ph _
    split
    · exact keeps_modLens p _ s
    · dsimp only
      refine keeps_ite _ ?_ (.trans ?_ (keeps_queueExpose p _ _))
      on_goal 1 => split
      on_goal 1 => refine .trans ?_ (keeps_queueExpose p _ _)
      on_goal 2 => refine .trans (.trans ?_ (keeps_modEntry p _ _ _)) (keeps_closeEntry p _ _ _ _)
      all_goals
        refine .trans ?_ (closes_applyHeld p _).keeps
        have h := (keeps_modLens (A := A) p (fun l => { l with phase := none }) s).trans (keeps_modEntry p ph.trigger
          (fun e => { e with outcome := fixed.getD (phaseOutcome late ph.targets), flags := ph.flags }) _)
        split
        · exact h.trans (closes_completeLens p ..).keeps
        · exact h

theorem keeps_startPhase (e : Entry) (s : State) : Keeps A s (startPhase p e s) := by
  unfold startPhase
  dsimp only
  split
  · exact (keeps_modLens p _ s).trans (keeps_endPhase p _ _ _)
  · exact ((keeps_modLens p _ s).trans (keeps_modCtl_same p _ _ rfl rfl)).trans (keeps_modEntry p _ _ _)

theorem keeps_advancePhases (n : Nat) (s : State) : Keeps A s (advancePhases p n s) := by
  induction n generalizing s with
  | zero => exact .refl A s
  | succ n ih =>
    unfold advancePhases
    split
    · exact .refl A s
    · split
      · exact (keeps_startPhase p _ s).trans (ih _)
      · exact .refl A s

theorem keeps_advanceLens (s : State) : Keeps A s (advanceLens p s) := keeps_advancePhases p _ s

/-! ## The control channel -/

/-- A message begins on a channel that is not SUSPENDED. -/
theorem keeps_beginTxn (m : Message) (s : State) (h : (s.port p).ctl.state ≠ .suspended) : Keeps A s (beginTxn p m s) := by
  have h1 : Keeps A s (sendSymbol p .startMark (modCtl p (fun c => { c with
      state := .sending, txn := some ⟨m, 0, .header, 0, []⟩, replyTimer := some replyMs }) s)) :=
    (keeps_modCtl p _ s fun _ d => absurd d.suspended h).trans (keeps_sendSymbol p _ _)
  unfold beginTxn
  dsimp only
  split
  · exact h1.trans (keeps_sendSymbol p _ _)
  · exact h1

theorem keeps_arbitrate (s : State) : Keeps A s (arbitrate p s) := by
  unfold arbitrate
  dsimp only
  split
  · rename_i hidle
    have begins : ∀ (m : Message) (f : Channel → Channel), (f (s.port p).ctl).state = (s.port p).ctl.state →
        (f (s.port p).ctl).ready = (s.port p).ctl.ready → Keeps A s (beginTxn p m (modCtl p f s)) := by
      intro m f hstate hready
      refine (keeps_modCtl_same p f s hstate hready).trans (keeps_beginTxn p m _ ?_)
      rw [modCtl_port_self, hstate, hidle]
      decide
    split
    · exact begins _ _ rfl rfl
    · exact begins _ _ rfl rfl
    · exact begins _ _ rfl rfl
    · exact .refl A s
  · exact .refl A s

theorem keeps_queuePing (s : State) : Keeps A s (queuePing p s) := by
  unfold queuePing
  split
  · exact .refl A s
  · exact keeps_modCtl_same p _ s rfl rfl

theorem keeps_headRestart (s : State) : Keeps A s (headRestart p s) := by
  unfold headRestart
  have h : Keeps A s (forgetCodes p (closeAll p .headRestart s)) := (closes_closeAll p _ s).keeps.trans (keeps_modLens p _ _)
  exact (h.trans (keeps_modCtl p (fun c => { c with ready := false }) _ fun _ d => ⟨d.suspended, rfl⟩)).trans
    (keeps_setPortAlert p _ _)

theorem keeps_pingFailed (s : State) : Keeps A s (pingFailed p s) := keeps_modCtl_same p _ s rfl rfl

theorem keeps_takeIdentity (hp : A p) (i : Identity) (s : State) : Keeps A s (takeIdentity p i s) := by
  unfold takeIdentity
  dsimp only
  refine Keeps.trans ?_ (keeps_modCtl p _ _ fun hA => absurd hp hA)
  exact keeps_ite _ (keeps_headRestart p s) (.refl A s)

theorem keeps_exposeResult (n : U32) (r : TxnEnd) (s : State) : Keeps A s (exposeResult p n r s) := by
  unfold exposeResult
  cases r
  · exact (keeps_modEntry p _ _ s).trans (keeps_advanceLens p _)
  · exact (keeps_closeEntry p _ _ _ s).trans (keeps_advanceLens p _)
  · exact (keeps_closeEntry p _ _ _ s).trans (keeps_advanceLens p _)

theorem keeps_handResult (hp : A p) (t : Txn) (r : TxnEnd) (s : State) : Keeps A s (handResult p t r s) := by
  unfold handResult
  split
  · exact keeps_exposeResult p _ r s
  · exact (keeps_endPhase p _ _ s).trans (keeps_advanceLens p _)
  · split <;> exact keeps_completeCommand _ _ _ s
  · split
    · split
      · exact keeps_takeIdentity p hp _ s
      · exact keeps_pingFailed p s
    · exact keeps_pingFailed p s

theorem keeps_settleTargets (r : UnitResult) (s : State) : Keeps A s (settleTargets p r s) := (closes_settleTargets p r s).keeps

theorem keeps_finishTxn (hp : A p) (r : TxnEnd) (s : State) : Keeps A s (finishTxn p r s) := by
  unfold finishTxn
  split
  · exact .refl A s
  · rename_i t _
    dsimp only
    refine Keeps.trans (Keeps.trans (Keeps.trans (Keeps.trans ?_ (keeps_modCtl p _ _ fun hA => absurd hp hA))
      (keeps_sendSymbol p _ _)) (keeps_handResult p hp t r _)) (keeps_arbitrate p _)
    split
    · exact keeps_settleTargets p _ s
    · exact .refl A s

theorem keeps_awaitAnswer (t : Txn) (s : State) : Keeps A s (awaitAnswer p t s) := keeps_modCtl_same p _ s rfl rfl

theorem keeps_lensPartDone (t : Txn) (s : State) : Keeps A s (lensPartDone p t s) := by
  unfold lensPartDone
  split
  · split
    · exact .refl A s
    · exact (keeps_modLens p _ s).trans (keeps_modLens p _ _)
  · exact .refl A s

theorem keeps_partDone (hp : A p) (t : Txn) (s : State) : Keeps A s (partDone p t s) := by
  unfold partDone
  dsimp only
  split
  · exact ((keeps_lensPartDone p t s).trans (keeps_modCtl_same p _ _ rfl rfl)).trans (keeps_finishTxn p hp _ _)
  · exact (((keeps_lensPartDone p t s).trans (keeps_awaitAnswer p _ _)).trans (keeps_sendSymbol p _ _)).trans
      (keeps_sendSymbol p _ _)

theorem keeps_headerAcked (t : Txn) (s : State) : Keeps A s (headerAcked p t s) := by
  unfold headerAcked
  split
  · exact .refl A s
  · split <;> exact (keeps_awaitAnswer p _ s).trans (keeps_sendSymbol p _ _)

theorem keeps_wordAcked (hp : A p) (t : Txn) (i : Nat) (s : State) : Keeps A s (wordAcked p t i s) := by
  unfold wordAcked
  split
  · exact .refl A s
  · dsimp only
    split
    · exact (keeps_awaitAnswer p _ s).trans (keeps_sendSymbol p _ _)
    · exact keeps_partDone p hp _ s

theorem keeps_suspendChannel (c : Code) (clear : Bool) (s : State) : Keeps A s (suspendChannel p c clear s) :=
  (closes_suspendChannel p c clear s).keeps

theorem keeps_stopChannel (s : State) : Keeps A s (stopChannel p s) := by
  unfold stopChannel
  dsimp only
  have h1 : Keeps A s (failHeadAccess p .stopped s) := (cardKept_failHeadAccess p _ s).keeps
  refine Keeps.trans (Keeps.trans (t := if (s.port p).ctl.state = .sending then
    sendSymbol p .abortMark (failHeadAccess p .stopped s) else failHeadAccess p .stopped s) ?_
    (keeps_modCtl p _ _ fun _ d => ?_)) (keeps_arbitrate p _)
  · split
    · exact h1.trans (keeps_sendSymbol p _ _)
    · exact h1
  · exact ⟨by simp [d.suspended], d.notReady⟩

theorem keeps_endNote (hp : A p) (s : State) : Keeps A s (endNote p s) :=
  (keeps_modCtl p _ s fun hA => absurd hp hA).trans (keeps_arbitrate p _)

end Sys2Proof.Machine
end

section
/-! PROOFS. The same for the receiver's bursts, the sweeps, the events of the channel, the triggers and the commands. -/

namespace Sys2Proof.Machine

variable {A : PortId → Prop} (p : PortId)

/-- A port that is not dormant is one of those awake. -/
theorem OnlyAwake.mem {s : State} (hs : OnlyAwake A s) {p : PortId} (h : ¬ Dormant (s.port p)) : A p :=
  by_contra fun hA => h (hs p hA)

theorem OnlyAwake.of_ctl {s : State} (hs : OnlyAwake A s) {p : PortId} (h : (s.port p).ctl.state ≠ .suspended) : A p :=
  hs.mem fun d => h d.suspended

theorem OnlyAwake.of_ready {s : State} (hs : OnlyAwake A s) {p : PortId} (h : (s.port p).ctl.ready = true) : A p :=
  hs.mem fun d => by rw [d.notReady] at h; exact Bool.false_ne_true h

/-! ## Bursts -/

theorem keeps_crossBin (b : BinId) (s : State) : Keeps A s (crossBin p b s) :=
  keeps_ite _ ((keeps_modFlex p _ s).trans (keeps_setPortAlert p _ _)) (keeps_modFlex p _ s)

theorem keeps_flexCharge (w : Nat) (s : State) : Keeps A s (flexCharge p w s) := by
  unfold flexCharge
  split
  · exact .refl A s
  · exact keeps_ite _ ((keeps_modFlex p _ s).trans (keeps_crossBin p _ _)) (keeps_modFlex p _ s)

theorem keeps_flexDrop (c : DropCause) (s : State) : Keeps A s (flexDrop p c s) := by
  unfold flexDrop
  dsimp only
  split
  · exact ((keeps_flexCharge p 16 s).trans (keeps_modFlex p _ _)).trans (keeps_setPortAlert p _ _)
  · exact (keeps_flexCharge p 16 s).trans (keeps_modFlex p _ _)

theorem keeps_setFilling (f : Filling) (s : State) : Keeps A s (setFilling p f s) := keeps_modFrame p _ s fun _ h => h

theorem keeps_eraseNext (s : State) : Keeps A s (eraseNext p s) := by
  unfold eraseNext
  dsimp only
  split
  · exact .refl A s
  · split
    · exact .refl A s
    · exact (keeps_ite _ (keeps_dmaWrite _ _ s) (.refl A s)).trans (keeps_setFilling p _ _)

theorem keeps_eraseLines (n : Nat) (s : State) : Keeps A s (eraseLines p n s) := by
  induction n generalizing s with
  | zero => exact .refl A s
  | succ n ih => exact (keeps_eraseNext p s).trans (ih _)

theorem keeps_writeNext (data : List Byte) (s : State) : Keeps A s (writeNext p data s) := by
  unfold writeNext
  dsimp only
  split
  · exact .refl A s
  · split
    · exact .refl A s
    · exact keeps_ite _ ((keeps_dmaWrite _ _ s).trans (keeps_setFilling p _ _)) (keeps_setFilling p _ s)

theorem keeps_takeDamaged (s : State) : Keeps A s (takeDamaged p s) := by
  unfold takeDamaged
  split
  · exact keeps_ite _ (keeps_eraseNext p s) (.refl A s)
  · exact .refl A s

theorem keeps_eraseRest (s : State) : Keeps A s (eraseRest p s) := by
  unfold eraseRest
  split
  · exact keeps_eraseLines p _ s
  · exact .refl A s

theorem keeps_takeLine (n : Nat) (data : List Byte) (s : State) : Keeps A s (takeLine p n data s) := by
  unfold takeLine
  split
  · exact .refl A s
  · refine keeps_ite _ ?_ (keeps_ite _ ?_ (keeps_ite _ ?_ ?_))
    · exact (keeps_modFrame p _ s fun _ h => h).trans (keeps_takeDamaged p _)
    · exact keeps_modFrame p _ s fun _ h => h
    · exact keeps_modFrame p _ s fun _ h => h
    · exact (keeps_eraseLines p _ s).trans (keeps_writeNext p data _)

theorem keeps_takeFrameClose (sent : Nat) (s : State) : Keeps A s (takeFrameClose p sent s) := by
  unfold takeFrameClose
  split
  · exact keeps_modFrame p _ s fun _ h => h
  · exact .refl A s
  · dsimp only
    split
    · exact keeps_eraseRest p s
    · exact (keeps_eraseRest p s).trans (keeps_closeEntry p _ _ _ _)

theorem keeps_matchFrame (h : FrameHeader) (e : Entry) (s : State) : Keeps A s (matchFrame p h e s) := by
  unfold matchFrame
  dsimp only
  have older (es : List Entry) : Keeps A s (es.foldl (fun t x => closeEntry p x.trigger .missed 0 t) s) :=
    keeps_foldl' es (fun t x => keeps_closeEntry p x.trigger .missed 0 t) s
  refine keeps_ite _ ?_ ?_
  · exact (((older _).trans (keeps_modEntry p _ _ _)).trans (keeps_closeEntry p _ _ _ _)).trans
      (keeps_modFrame p _ _ fun _ h => h)
  · exact ((((((older _).trans (keeps_modEntry p _ _ _)).trans (keeps_setFilling p _ _)).trans (keeps_dmaWrite _ _ _)).trans
      (keeps_dmaWrite _ _ _)).trans (keeps_dmaWrite _ _ _)).trans (keeps_dmaWrite _ _ _)

theorem keeps_closeLost (s : State) : Keeps A s (closeLost p s) := by
  unfold closeLost
  split
  · exact .refl A s
  · exact (keeps_eraseRest p s).trans (keeps_closeEntry p _ _ _ _)

theorem keeps_takeFrameOpen (h : FrameHeader) (s : State) : Keeps A s (takeFrameOpen p h s) := by
  unfold takeFrameOpen
  dsimp only
  split
  · exact (keeps_closeLost p s).trans (keeps_matchFrame p h _ _)
  · exact (keeps_closeLost p s).trans (keeps_modFrame p _ _ fun _ h => h)

theorem keeps_recordBurst (b : Burst) (exact : Bool) (s : State) : Keeps A s (recordBurst p b exact s) :=
  keeps_modLink p _ s (by dsimp only; split <;> rfl)

theorem keeps_lockedBurst (b : Burst) (exact : Bool) (s : State) : Keeps A s (lockedBurst p b exact s) := by
  refine (keeps_recordBurst p b exact s).trans ?_
  cases b with
  | frameOpen h => exact keeps_takeFrameOpen p h _
  | line n data => exact keeps_takeLine p n data _
  | frameClose n => exact keeps_takeFrameClose p n _
  | fill => exact .refl A _
  | damaged => exact (keeps_takeDamaged p _).trans (keeps_flexCharge p 1 _)

theorem keeps_endBurst (bytes : List Byte) (s : State) : Keeps A s (endBurst p bytes s) := by
  unfold endBurst
  dsimp only
  split
  · exact .refl A s
  · split
    · split
      · exact keeps_recordBurst p _ _ s
      · exact keeps_lockedBurst p _ _ s
      · exact .refl A s
    · exact .refl A s
  · exact keeps_ite _ (keeps_lockedBurst p _ _ s) (.refl A s)

theorem keeps_endBadBurst (s : State) : Keeps A s (endBadBurst p s) := keeps_ite _ (keeps_endBurst p [] s) (.refl A s)

theorem keeps_frameExpired (n : U32) (s : State) : Keeps A s (frameExpired p n s) := by
  unfold frameExpired
  split
  · exact .refl A s
  · exact keeps_ite _ (keeps_closeEntry p n _ _ s) (.refl A s)

/-! ## Sweeps -/

theorem keeps_examineSweeps (s : State) : Keeps A s (examineSweeps s) := by
  unfold examineSweeps
  split
  · exact (keeps_modSweeps _ s).trans (keeps_modSweep _ _ _)
  · exact .refl A s

theorem keeps_joinSweeps (e : SweepEntry) (s : State) : Keeps A s (joinSweeps e s) :=
  ((keeps_modSweeps _ s).trans (keeps_modSweep _ _ _)).trans (keeps_examineSweeps _)

theorem keeps_requestAutoSweep (c : Code) (s : State) : Keeps A s (requestAutoSweep p c s) :=
  keeps_ite _ (keeps_joinSweeps _ s) (.refl A s)

theorem keeps_deliverSweep (m : Measuring) (r : SweepResult) (s : State) : Keeps A s (deliverSweep m r s) := by
  have h := (keeps_dmaWrite (A := A) (blockAt (breakRecordOffset m.entry.port + 4) s) (sweepBody m s.now r) s).trans
    (keeps_dmaWrite (blockAt (breakRecordOffset m.entry.port) s) (u32 ((s.port m.entry.port).sweep.count + 1)) _)
  unfold deliverSweep
  dsimp only
  split
  · refine .trans ?_ (keeps_setPortAlert _ _ _)
    split
    · exact h.trans (keeps_completeCommand _ _ _ _)
    · exact h
  · split
    · exact h.trans (keeps_completeCommand _ _ _ _)
    · exact h

theorem keeps_abandonSweep (e : SweepEntry) (s : State) : Keeps A s (abandonSweep e s) := by
  unfold abandonSweep
  dsimp only
  split
  · exact (keeps_modSweep _ _ s).trans (keeps_completeCommand _ _ _ _)
  · exact keeps_modSweep _ _ s

/-! ## Events of the control channel -/

/-- A transaction is in progress only on a channel that is awake. -/
theorem OnlyAwake.of_sending {s : State} (hs : OnlyAwake A s) {p : PortId} {t : Txn} (h : sending (s.port p).ctl = some t) :
    A p := by
  refine hs.of_ctl fun e => ?_
  rw [sending, e, if_neg (by decide)] at h
  cases h

theorem OnlyAwake.of_isSome_sending {s : State} (hs : OnlyAwake A s) {p : PortId}
    (h : (sending (s.port p).ctl).isSome = true) : A p :=
  hs.of_sending (Option.some_get h).symm

/-- Notes are taken on a channel that is awake. -/
theorem OnlyAwake.of_noteTaken {s : State} (hs : OnlyAwake A s) {p : PortId} (h : noteTaken (s.port p).ctl = true) : A p :=
  hs.of_ctl fun e => by rw [noteTaken, e] at h; exact absurd h (by decide)

theorem keeps_answered (ack : Bool) (s : State) (hs : OnlyAwake A s) : Keeps A s (answered p ack s) := by
  unfold answered
  split
  · exact .refl A s
  · rename_i t ht
    have hp := hs.of_sending ht
    split
    · exact keeps_ite _ (keeps_headerAcked p t s) (keeps_finishTxn p hp _ s)
    · exact keeps_ite _ (keeps_wordAcked p hp t _ s) (keeps_finishTxn p hp _ s)
    · exact keeps_ite _ (keeps_finishTxn p hp _ s) (.refl A s)
    · exact .refl A s

theorem keeps_holdSigned (s : State) (hs : OnlyAwake A s) : Keeps A s (holdSigned p s) := by
  unfold holdSigned
  split
  · exact .refl A s
  · rename_i t ht
    have hp := hs.of_sending ht
    split
    · exact keeps_ite _ (keeps_modCtl_same p _ s rfl rfl) (keeps_finishTxn p hp _ s)
    · exact keeps_finishTxn p hp _ s
    · exact keeps_finishTxn p hp _ s
    · exact .refl A s

theorem keeps_holdAnswered (ack : Bool) (s : State) (hs : OnlyAwake A s) : Keeps A s (holdAnswered p ack s) := by
  unfold holdAnswered
  split
  · exact .refl A s
  · rename_i t ht
    have hp := hs.of_sending ht
    exact keeps_ite _ (keeps_ite _ (keeps_partDone p hp _ s) (keeps_finishTxn p hp _ s)) (.refl A s)

theorem keeps_dataWord (w : U16) (s : State) (hs : OnlyAwake A s) : Keeps A s (dataWord p w s) := by
  unfold dataWord
  split
  · exact .refl A s
  · rename_i t ht
    have hp := hs.of_sending ht
    refine keeps_ite _ ?_ (.refl A s)
    dsimp only
    split
    · exact .refl A s
    · exact keeps_ite _ (keeps_awaitAnswer p _ s) ((keeps_awaitAnswer p _ s).trans (keeps_finishTxn p hp _ _))

theorem keeps_replyExpired (s : State) (hs : OnlyAwake A s) : Keeps A s (replyExpired p s) := by
  unfold replyExpired
  dsimp only
  split
  · rename_i h
    exact keeps_finishTxn p (hs.of_isSome_sending h.1) _ s
  · exact .refl A s

theorem keeps_holdExpired (s : State) (hs : OnlyAwake A s) : Keeps A s (holdExpired p s) := by
  unfold holdExpired
  dsimp only
  split
  · rename_i h
    exact keeps_finishTxn p (hs.of_isSome_sending h.1) _ s
  · exact .refl A s

theorem keeps_noteBegins (collides : Bool) (s : State) (hs : OnlyAwake A s) : Keeps A s (noteBegins p collides s) := by
  unfold noteBegins
  dsimp only
  split
  · rename_i h
    exact keeps_modCtl p _ s fun hA => absurd (hs.of_ctl (by rw [h]; decide)) hA
  · rename_i h _
    have hp : A p := hs.of_ctl (by rw [h]; decide)
    refine keeps_ite _ (.trans ?_ (keeps_modCtl p _ _ fun hA => absurd hp hA)) (.refl A s)
    exact .of_ports rfl fun _ => rfl
  · exact .refl A s

theorem keeps_overtempTaken (s : State) (hs : OnlyAwake A s) : Keeps A s (overtempTaken p s) := by
  unfold overtempTaken
  split
  · rename_i h
    exact (keeps_setPortAlert p _ s).trans (keeps_endNote p (hs.of_noteTaken h) _)
  · exact .refl A s

theorem keeps_lensFaultTaken (unit : Byte) (s : State) (hs : OnlyAwake A s) : Keeps A s (lensFaultTaken p unit s) := by
  unfold lensFaultTaken
  split
  · rename_i h
    have hp := hs.of_noteTaken h
    split
    · exact ((keeps_modLens p _ s).trans (keeps_setPortAlert p _ _)).trans (keeps_endNote p hp _)
    · exact keeps_endNote p hp s
  · exact .refl A s

theorem keeps_headRestartTaken (s : State) (hs : OnlyAwake A s) : Keeps A s (headRestartTaken p s) := by
  unfold headRestartTaken
  split
  · rename_i h
    exact (((keeps_headRestart p s).trans (keeps_modCtl_same p (fun c => { c with noCompare := true, retryTimer := none }) _
      rfl rfl)).trans (keeps_queuePing p _)).trans (keeps_endNote p (hs.of_noteTaken h) _)
  · exact .refl A s

theorem keeps_noteDropped (s : State) (hs : OnlyAwake A s) : Keeps A s (noteDropped p s) := by
  unfold noteDropped
  split
  · rename_i h
    exact keeps_endNote p (hs.of_noteTaken h) s
  · exact .refl A s

theorem keeps_noteExpired (s : State) (hs : OnlyAwake A s) : Keeps A s (noteExpired p s) := by
  unfold noteExpired
  split
  · rename_i h
    exact keeps_endNote p (hs.of_ctl (by rw [h]; decide)) s
  · exact .refl A s

theorem keeps_retryExpired (s : State) : Keeps A s (retryExpired p s) :=
  keeps_ite _ (((keeps_modCtl_same p (fun c => { c with retryTimer := none }) s rfl rfl).trans (keeps_queuePing p _)).trans
    (keeps_arbitrate p _)) (.refl A s)

theorem keeps_withdrawLens (s : State) (hs : OnlyAwake A s) : Keeps A s (withdrawLens p s) := by
  unfold withdrawLens
  split
  · rename_i t ht
    refine keeps_ite _ (.trans (keeps_modCtl p _ s fun hA => absurd (hs.of_sending ht) hA) (keeps_sendSymbol p _ _)) ?_
    exact keeps_modCtl_same p _ s rfl rfl
  · exact keeps_modCtl_same p _ s rfl rfl

theorem keeps_deadlineExpired (s : State) (hs : OnlyAwake A s) : Keeps A s (deadlineExpired p s) := by
  unfold deadlineExpired
  split
  · exact .refl A s
  · have h := keeps_settleTargets (A := A) p .cut s
    exact keeps_ite _ ((((h.trans (keeps_withdrawLens p _ (h.onlyAwake hs))).trans (keeps_endPhase p _ _ _)).trans
      (keeps_advanceLens p _)).trans (keeps_arbitrate p _)) (.refl A s)

/-! ## Triggers -/

theorem keeps_modSource (k : SourceId) (f : Source → Source) (s : State) : Keeps A s (modSource k f s) := keeps_modTrig _ s

theorem keeps_writeRecordState (a : Addr) (st : RecordState) (s : State) : Keeps A s (writeRecordState a st s) :=
  keeps_dmaWrite _ _ s

theorem keeps_failImageAtBind (a : Addr) (s : State) : Keeps A s (failImageAtBind p a s) :=
  ((cardKept_writeResult a _ _ s).trans (cardKept_completeRecord ..)).keeps

theorem keeps_bindTake (hp : A p) (f : Fire) (set : Option (SetId × U32)) (x : Offer) (s : State) :
    Keeps A s (bindTake p f set x s) := by
  have h1 := keeps_takeRecord (A := A) (.image p) x.image s
  unfold bindTake
  dsimp only
  refine .trans (.trans ?_ (keeps_modFrame p _ _ fun hA => absurd hp hA)) (keeps_modTake p _ _)
  split
  · refine .trans ?_ (closes_completeLens p ..).keeps
    refine .trans (.trans ?_ (keeps_dmaWrite _ _ _)) (keeps_writeRecordState _ _ _)
    split
    · exact (h1.trans (keeps_takeRecord _ _ _)).trans (keeps_writeRecordState _ _ _)
    · exact h1
  · refine .trans (.trans ?_ (keeps_dmaWrite _ _ _)) (keeps_writeRecordState _ _ _)
    split
    · exact (h1.trans (keeps_takeRecord _ _ _)).trans (keeps_writeRecordState _ _ _)
    · exact h1

theorem keeps_handEntry (s : State) : Keeps A s (handEntry p s) := (keeps_advanceLens p s).trans (keeps_arbitrate p _)

theorem keeps_refuseNoBuffer (s : State) : Keeps A s (refuseNoBuffer p s) :=
  (keeps_modTake p _ s).trans (keeps_setPortAlert p _ _)

theorem keeps_admitSingle (f : Fire) (s : State) (hs : OnlyAwake A s) : Keeps A s (admitSingle p f s) := by
  unfold admitSingle
  dsimp only
  split
  · exact keeps_modTake p _ s
  · rename_i hready
    refine keeps_ite _ (keeps_modTake p _ s) ?_
    split
    · exact keeps_refuseNoBuffer p s
    · refine keeps_ite _ (keeps_modTake p _ s) ?_
      split
      · exact (keeps_bindTake p (hs.of_ready (by simpa using hready)) f none _ s).trans (keeps_handEntry p _)
      · exact ((keeps_takeRecord _ _ s).trans (keeps_failImageAtBind p _ _)).trans (keeps_refuseNoBuffer p _)

theorem keeps_fireSingle (f : Fire) (s : State) (hs : OnlyAwake A s) : Keeps A s (fireSingle p f s) := by
  have h := keeps_modTake (A := A) p (stepPattern f.number) s
  exact keeps_ite _ (h.trans (keeps_admitSingle p f _ (h.onlyAwake hs))) (h.trans (keeps_modTake p _ _))

/-- An admitted set has every member READY (R131). -/
theorem ready_of_setRefusal_none {z : FrameSet} {s : State} (h : setRefusal z s = none) (hp : p ∈ maskPorts z.mask) :
    (s.port p).ctl.ready = true := by
  unfold setRefusal at h
  dsimp only at h
  split at h
  · cases h
  · rename_i hnone
    simpa using List.find?_eq_none.mp hnone p hp

theorem keeps_dropUnsound (x : PortId × Addr) (s : State) : Keeps A s (dropUnsound x s) :=
  (keeps_takeRecord _ _ s).trans (keeps_failImageAtBind x.1 _ _)

theorem keeps_skipSet (k : SetId) (r : Code × Option PortId) (s : State) : Keeps A s (skipSet k r s) := by
  unfold skipSet
  dsimp only
  split
  · exact (keeps_modSet _ _ s).trans (keeps_forPorts' _ (fun s p => keeps_setPortAlert p _ s) _)
  · exact (keeps_modSet _ _ s).trans
      (keeps_foldl' _ (fun s x => keeps_dropUnsound x s) _)
  · exact keeps_modSet _ _ s

theorem keeps_takeSet (k : SetId) (f : Fire) (s : State) (hs : OnlyAwake A s)
    (hready : ∀ p ∈ maskPorts s.sets[k].mask, (s.port p).ctl.ready = true) : Keeps A s (takeSet k f s) := by
  unfold takeSet
  dsimp only
  refine .trans (.trans (keeps_foldl _ (fun t x hx _ => keeps_bindTake x.1 ?_ f _ _ t) hs) (keeps_modSet _ _ _))
    (keeps_forPorts' _ (fun s p => keeps_handEntry p s) _)
  obtain ⟨q, hq, hx⟩ := List.mem_filterMap.mp hx
  obtain ⟨y, -, rfl⟩ := Option.map_eq_some_iff.mp hx
  exact hs.of_ready (hready q hq)

theorem forPorts_modTake_sets (f : Taker → Taker) (ps : List PortId) (s : State) :
    (forPorts ps (fun p => modTake p f) s).sets = s.sets := by
  unfold forPorts
  induction ps generalizing s with
  | nil => rfl
  | cons q ps ih => exact ih _

theorem keeps_fireSet (k : SetId) (f : Fire) (s : State) (hs : OnlyAwake A s) : Keeps A s (fireSet k f s) := by
  have h : Keeps A s (forPorts (maskPorts s.sets[k].mask) (fun p => modTake p (stepPattern f.number)) s) :=
    keeps_forPorts' _ (fun s p => keeps_modTake p _ s) s
  unfold fireSet
  dsimp only
  refine keeps_ite _ ?_ (h.trans (keeps_forPorts' _ (fun s p => keeps_modTake p _ s) _))
  split
  · exact h.trans (keeps_skipSet k _ _)
  · rename_i hnone
    refine h.trans (keeps_takeSet k f _ (h.onlyAwake hs) fun q hq => ready_of_setRefusal_none q hnone ?_)
    rwa [forPorts_modTake_sets] at hq

theorem keeps_firePort (f : Fire) (s : State) (hs : OnlyAwake A s) : Keeps A s (firePort f p s) := by
  unfold firePort
  split
  · exact keeps_fireSingle p f s hs
  · exact keeps_ite _ (keeps_fireSet _ f s hs) (.refl A s)

theorem keeps_fire (k : SourceId) (s : State) (hs : OnlyAwake A s) : Keeps A s (fire k s) := by
  have h := keeps_modSource (A := A) k countFire s
  exact h.trans (keeps_forPorts _ (fun s p hs => keeps_firePort p _ s hs) (h.onlyAwake hs))

theorem keeps_setAxis (ax : Axis) (x : AxisState) (s : State) : Keeps A s (setAxis ax x s) := keeps_modTrig _ s

theorem keeps_pitchCount (ax : Axis) (up : Bool) (pos : U32) (k : SourceId) (s : State) (hs : OnlyAwake A s) :
    Keeps A s (pitchCount ax up pos k s) := by
  unfold pitchCount
  dsimp only
  split
  · exact keeps_ite _ ((keeps_ite _ (keeps_fire k s hs) (.refl A s)).trans (keeps_modSource k _ _)) (.refl A s)
  · exact .refl A s

theorem keeps_sampleAxis (ax : Axis) (ch1 ch2 : Bool) (s : State) (hs : OnlyAwake A s) : Keeps A s (sampleAxis ax ch1 ch2 s) := by
  unfold sampleAxis
  dsimp only
  split
  · exact keeps_setAxis ax _ s
  · rename_i up _
    have h := keeps_setAxis (A := A) ax
      { position := if up then (axisState ax s.trig).position + 1 else (axisState ax s.trig).position - 1
        ch1 := ch1, ch2 := ch2 } s
    exact h.trans (keeps_foldl _ (fun s k _ hs => keeps_pitchCount ax up _ k s hs) (h.onlyAwake hs))

theorem keeps_countEdge (i : Input) (s : State) (hs : OnlyAwake A s) : Keeps A s (countEdge i s) :=
  keeps_ite _ (keeps_foldl _ (fun s k _ hs => keeps_ite _ (keeps_fire k s hs) (.refl A s)) hs) (.refl A s)

theorem keeps_lineRises (i : Input) (s : State) (hs : OnlyAwake A s) : Keeps A s (lineRises i s) := by
  refine keeps_ite _ (keeps_ite _ (.trans ?_ (keeps_countEdge i _ ?_)) (keeps_modTrig _ s)) (.refl A s)
  · exact keeps_modTrig _ s
  · exact (keeps_modTrig (A := A) _ s).onlyAwake hs

theorem keeps_debounceExpires (i : Input) (s : State) (hs : OnlyAwake A s) : Keeps A s (debounceExpires i s) :=
  keeps_ite _ (.trans (keeps_modTrig _ s) (keeps_countEdge i _ ((keeps_modTrig (A := A) _ s).onlyAwake hs))) (.refl A s)

end Sys2Proof.Machine
end

section
/-! PROOFS. The laws of the power budget and of the links, port by port, and how the ledger of the budget follows a change of one
port (R6, R7, R8). -/

namespace Sys2Proof.Machine

/-! ## The budget's ledger -/

/-- The part of the law of the budget that holds while ports are being shed: all of it but the bounds (R6, R8, R17). -/
structure Ledger (s : State) : Prop where
  grantsOnce : s.power.grants.Nodup
  grantsPowered : ∀ p, p ∈ s.power.grants ↔ isPowered (powerOf p s) = true
  reservedSum : s.power.reserved = (s.power.grants.map (heldBy s)).sum
  queueOnce : s.power.queue.Nodup
  queueQueued : ∀ p, p ∈ s.power.queue ↔ powerOf p s = .queued
  oneInrush : ∀ p q, powerOf p s = .inrush → powerOf q s = .inrush → p = q

theorem PowerLaw.ledger {s : State} (h : PowerLaw s) : Ledger s :=
  ⟨h.grantsOnce, h.grantsPowered, h.reservedSum, h.queueOnce, h.queueQueued, h.oneInrush⟩

theorem Ledger.powerLaw {s : State} (h : Ledger s) (hin : s.power.reserved ≤ s.power.budget)
    (hmax : s.power.budget ≤ maxBudget) : PowerLaw s :=
  ⟨h.grantsOnce, h.grantsPowered, h.reservedSum, hin, hmax, h.queueOnce, h.queueQueued, h.oneInrush⟩

/-- The budget and every port's power state and class in use are as they were. -/
structure SamePower (s t : State) : Prop where
  power : t.power = s.power
  state : ∀ q, powerOf q t = powerOf q s
  cls : ∀ q, (t.port q).power.clsInUse = (s.port q).power.clsInUse

/-- Every port but one has its power state and its class in use as before. -/
abbrev OtherPower (p : PortId) (s t : State) : Prop :=
  ∀ q, q ≠ p → powerOf q t = powerOf q s ∧ (t.port q).power.clsInUse = (s.port q).power.clsInUse

section
variable {A : PortId → Prop} {p : PortId} {s t u : State}

theorem OtherPower.of_ports (h : ∀ q, q ≠ p → t.port q = s.port q) : OtherPower p s t :=
  fun q hq => by unfold powerOf; rw [h q hq]; exact ⟨rfl, rfl⟩

theorem Keeps.samePower (h : Keeps A s t) : SamePower s t := ⟨h.power, h.state, h.cls⟩

theorem SamePower.trans (h : SamePower s t) (g : SamePower t u) : SamePower s u :=
  ⟨g.power.trans h.power, fun q => (g.state q).trans (h.state q), fun q => (g.cls q).trans (h.cls q)⟩

theorem SamePower.ledger (h : SamePower s t) (hs : Ledger s) : Ledger t where
  grantsOnce := h.power ▸ hs.grantsOnce
  grantsPowered q := by rw [h.power, h.state]; exact hs.grantsPowered q
  reservedSum := by
    have held : heldBy t = heldBy s := funext fun q => by unfold heldBy; rw [h.cls]
    rw [h.power, held]; exact hs.reservedSum
  queueOnce := h.power ▸ hs.queueOnce
  queueQueued q := by rw [h.power, h.state]; exact hs.queueQueued q
  oneInrush q r := by rw [h.state, h.state]; exact hs.oneInrush q r

theorem SamePower.powerLaw (h : SamePower s t) (hs : PowerLaw s) : PowerLaw t :=
  (h.ledger hs.ledger).powerLaw (h.power ▸ hs.withinBudget) (h.power ▸ hs.budgetMax)

/-- The sum of the reservations of ports whose classes are as before. -/
theorem sum_heldBy_congr (l : List PortId) (h : ∀ q ∈ l, (t.port q).power.clsInUse = (s.port q).power.clsInUse) :
    (l.map (heldBy t)).sum = (l.map (heldBy s)).sum := by
  congr 1
  exact List.map_congr_left fun q hq => by unfold heldBy; rw [h q hq]

/-- While a port changes that does not come to be in INRUSH, at most one port is in INRUSH. -/
theorem Ledger.inrush_of_others (hs : Ledger s) (others : OtherPower p s t) (hp : powerOf p t ≠ .inrush) (q r : PortId)
    (hq : powerOf q t = .inrush) (hr : powerOf r t = .inrush) : q = r := by
  have old : ∀ x, powerOf x t = .inrush → powerOf x s = .inrush := by
    intro x hx
    rcases eq_or_ne x p with rfl | h
    · exact absurd hx hp
    · rwa [(others x h).1] at hx
  exact hs.oneInrush q r (old q hq) (old r hr)

/-- A port neither powered nor waiting changes to such a state. -/
theorem Ledger.idle (hs : Ledger s) (others : OtherPower p s t) (hpower : t.power = s.power)
    (hp : isPowered (powerOf p s) = false) (hq : powerOf p s ≠ .queued)
    (hp' : isPowered (powerOf p t) = false) (hq' : powerOf p t ≠ .queued) : Ledger t where
  grantsOnce := hpower ▸ hs.grantsOnce
  grantsPowered q := by
    rw [hpower, hs.grantsPowered]
    rcases eq_or_ne q p with rfl | h
    · rw [hp, hp']
    · rw [(others q h).1]
  reservedSum := by
    rw [hpower, hs.reservedSum]
    refine (sum_heldBy_congr _ fun q hmem => (others q ?_).2).symm
    rintro rfl
    rw [hs.grantsPowered, hp] at hmem
    exact Bool.false_ne_true hmem
  queueOnce := hpower ▸ hs.queueOnce
  queueQueued q := by
    rw [hpower, hs.queueQueued]
    rcases eq_or_ne q p with rfl | h
    · exact iff_of_false hq hq'
    · rw [(others q h).1]
  oneInrush := hs.inrush_of_others others fun e => by rw [e] at hp'; exact absurd hp' (by decide)

/-- A powered port loses its power: it leaves the grant-order list with its reservation (R8). -/
theorem Ledger.release (hs : Ledger s) (others : OtherPower p s t)
    (hpower : t.power = { s.power with grants := s.power.grants.erase p
                                       reserved := s.power.reserved - reservation (s.port p).power.clsInUse })
    (hp : isPowered (powerOf p s) = true) (hp' : isPowered (powerOf p t) = false) (hq' : powerOf p t ≠ .queued) :
    Ledger t where
  grantsOnce := by rw [hpower]; exact hs.grantsOnce.erase p
  grantsPowered q := by
    rw [hpower, hs.grantsOnce.mem_erase_iff, hs.grantsPowered]
    rcases eq_or_ne q p with rfl | h
    · simp [hp']
    · simp [h, (others q h).1]
  reservedSum := by
    have held := List.sum_map_erase (heldBy s) ((hs.grantsPowered p).mpr hp)
    rw [hpower]
    dsimp only
    rw [sum_heldBy_congr (s := s) _ fun q hmem => (others q (hs.grantsOnce.mem_erase_iff.mp hmem).1).2, hs.reservedSum, ← held]
    exact Nat.add_sub_cancel_left ..
  queueOnce := by rw [hpower]; exact hs.queueOnce
  queueQueued q := by
    rw [hpower, hs.queueQueued]
    rcases eq_or_ne q p with rfl | h
    · exact iff_of_false (fun e => by rw [e] at hp; exact absurd hp (by decide)) hq'
    · rw [(others q h).1]
  oneInrush := hs.inrush_of_others others fun e => by rw [e] at hp'; exact absurd hp' (by decide)

/-- A QUEUED port leaves the budget queue (R7). -/
theorem Ledger.unqueue (hs : Ledger s) (others : OtherPower p s t)
    (hpower : t.power = { s.power with queue := s.power.queue.erase p }) (hp : powerOf p s = .queued)
    (hp' : isPowered (powerOf p t) = false) (hq' : powerOf p t ≠ .queued) : Ledger t where
  grantsOnce := by rw [hpower]; exact hs.grantsOnce
  grantsPowered q := by
    rw [hpower, hs.grantsPowered]
    rcases eq_or_ne q p with rfl | h
    · rw [hp, hp']; decide
    · rw [(others q h).1]
  reservedSum := by
    rw [hpower]
    refine hs.reservedSum.trans (sum_heldBy_congr _ fun q hmem => (others q ?_).2).symm
    rintro rfl
    rw [hs.grantsPowered, hp] at hmem
    exact absurd hmem (by decide)
  queueOnce := by rw [hpower]; exact hs.queueOnce.erase p
  queueQueued q := by
    rw [hpower, hs.queueOnce.mem_erase_iff, hs.queueQueued]
    rcases eq_or_ne q p with rfl | h
    · simp [hq']
    · simp [h, (others q h).1]
  oneInrush := hs.inrush_of_others others fun e => by rw [e] at hp'; exact absurd hp' (by decide)

/-- A port neither powered nor waiting joins the tail of the budget queue (R7). -/
theorem Ledger.enqueue (hs : Ledger s) (others : OtherPower p s t)
    (hpower : t.power = { s.power with queue := s.power.queue ++ [p] }) (hp : isPowered (powerOf p s) = false)
    (hq : powerOf p s ≠ .queued) (hq' : powerOf p t = .queued) : Ledger t where
  grantsOnce := by rw [hpower]; exact hs.grantsOnce
  grantsPowered q := by
    rw [hpower, hs.grantsPowered]
    rcases eq_or_ne q p with rfl | h
    · rw [hp, hq']; decide
    · rw [(others q h).1]
  reservedSum := by
    rw [hpower]
    refine hs.reservedSum.trans (sum_heldBy_congr _ fun q hmem => (others q ?_).2).symm
    rintro rfl
    rw [hs.grantsPowered, hp] at hmem
    exact Bool.false_ne_true hmem
  queueOnce := by
    rw [hpower]
    refine List.nodup_append.mpr ⟨hs.queueOnce, List.nodup_singleton p, fun a ha b hb => ?_⟩
    rw [List.mem_singleton.mp hb]
    rintro rfl
    exact hq ((hs.queueQueued a).mp ha)
  queueQueued q := by
    rw [hpower, List.mem_append, List.mem_singleton, hs.queueQueued]
    rcases eq_or_ne q p with rfl | h
    · simp [hq']
    · simp [h, (others q h).1]
  oneInrush := hs.inrush_of_others others fun e => by rw [e] at hq'; exact absurd hq' (by decide)

/-- The head of the budget queue is granted while no port is in INRUSH (R6, R8). -/
theorem Ledger.grant {rest : List PortId} (hs : Ledger s) (others : OtherPower p s t) (hhead : s.power.queue = p :: rest)
    (hpower : t.power = { s.power with queue := rest, grants := s.power.grants ++ [p]
                                       reserved := s.power.reserved + reservation (s.port p).power.clsInUse })
    (hnone : ∀ q, powerOf q s ≠ .inrush) (hp' : powerOf p t = .inrush)
    (hcls : (t.port p).power.clsInUse = (s.port p).power.clsInUse) : Ledger t := by
  have hqueued : powerOf p s = .queued := (hs.queueQueued p).mp (hhead ▸ List.mem_cons_self)
  have hnew : p ∉ s.power.grants := fun h => by
    rw [hs.grantsPowered, hqueued] at h; exact absurd h (by decide)
  have honce : (p :: rest).Nodup := hhead ▸ hs.queueOnce
  refine ⟨?_, fun q => ?_, ?_, ?_, fun q => ?_, ?_⟩
  · rw [hpower]
    refine List.nodup_append.mpr ⟨hs.grantsOnce, List.nodup_singleton p, fun a ha b hb => ?_⟩
    rw [List.mem_singleton.mp hb]
    exact fun e => hnew (e ▸ ha)
  · rw [hpower, List.mem_append, List.mem_singleton, hs.grantsPowered]
    rcases eq_or_ne q p with rfl | h
    · simp [hp', isPowered]
    · simp [h, (others q h).1]
  · rw [hpower, List.map_append, List.sum_append, sum_heldBy_congr (s := s) s.power.grants fun q hmem =>
      (others q fun e => hnew (e ▸ hmem)).2, ← hs.reservedSum]
    simp [heldBy, hcls]
  · rw [hpower]; exact honce.of_cons
  · rw [hpower]
    have := hs.queueQueued q
    rw [hhead, List.mem_cons] at this
    rcases eq_or_ne q p with rfl | h
    · simpa [hp'] using honce.notMem
    · simpa [h, (others q h).1] using this
  · have only : ∀ x, powerOf x t = .inrush → x = p := by
      intro x hx
      by_contra h
      rw [(others x h).1] at hx
      exact hnone x hx
    exact fun q r h₁ h₂ => (only q h₁).trans (only r h₂).symm

/-- A powered port goes on to another powered state, and not anew into INRUSH. -/
theorem Ledger.powered (hs : Ledger s) (others : OtherPower p s t) (hpower : t.power = s.power)
    (hp : isPowered (powerOf p s) = true) (hp' : isPowered (powerOf p t) = true) (hin : powerOf p t ≠ .inrush)
    (hcls : (t.port p).power.clsInUse = (s.port p).power.clsInUse) : Ledger t where
  grantsOnce := hpower ▸ hs.grantsOnce
  grantsPowered q := by
    rw [hpower, hs.grantsPowered]
    rcases eq_or_ne q p with rfl | h
    · rw [hp, hp']
    · rw [(others q h).1]
  reservedSum := by
    rw [hpower, hs.reservedSum]
    refine (sum_heldBy_congr _ fun q _ => ?_).symm
    rcases eq_or_ne q p with rfl | h
    · exact hcls
    · exact (others q h).2
  queueOnce := hpower ▸ hs.queueOnce
  queueQueued q := by
    rw [hpower, hs.queueQueued]
    rcases eq_or_ne q p with rfl | h
    · exact iff_of_false (fun e => by rw [e] at hp; exact absurd hp (by decide))
        (fun e => by rw [e] at hp'; exact absurd hp' (by decide))
    · rw [(others q h).1]
  oneInrush := hs.inrush_of_others others hin

end

end Sys2Proof.Machine
end

section
/-! PROOFS. What the Power Controller's operations do to a port and to the rest of the card, and how they keep the laws of the budget
and of the links (R4 to R20). -/

namespace Sys2Proof.Machine

/-! ## Changes of one port -/

/-- From `s` to `t` nothing of any port has changed but one port's power, and nothing else of the card but the Power Controller's
cell, records that complete, causes and mirrors due. -/
structure PowerOnly (p : PortId) (s t : State) : Prop where
  dma : DmaOnly s t
  trig : t.trig = s.trig
  sweeps : t.sweeps = s.sweeps
  cell : t.chain.cell = s.chain.cell
  others : ∀ q, q ≠ p → t.port q = s.port q
  link : (t.port p).link = (s.port p).link
  ctl : (t.port p).ctl = (s.port p).ctl
  lens : (t.port p).lens = (s.port p).lens
  frame : (t.port p).frame = (s.port p).frame
  sweep : (t.port p).sweep = (s.port p).sweep
  flex : (t.port p).flex = (s.port p).flex
  alerts : (t.port p).alerts = (s.port p).alerts

/-- From `s` to `t` power has been removed from a port (R8, R15, R27, R57, R85): its link is DOWN with no drop counted, its exposure
list is empty, its channel SUSPENDED without READY, transaction and identity, its lens units UNKNOWN; its sweep, flex map and alerts
and the other ports are as they were. -/
structure Unplugged (p : PortId) (s t : State) : Prop where
  dma : DmaOnly s t
  trig : t.trig = s.trig
  sweeps : t.sweeps = s.sweeps
  cell : t.chain.cell = s.chain.cell
  others : ∀ q, q ≠ p → t.port q = s.port q
  link : (t.port p).link = { huntAgain (s.port p).link with state := .down }
  sweep : (t.port p).sweep = (s.port p).sweep
  flex : (t.port p).flex = (s.port p).flex
  alerts : (t.port p).alerts = (s.port p).alerts
  dormant : Dormant (t.port p)
  txn : (t.port p).ctl.txn = none
  identity : (t.port p).ctl.identity = none
  known : ∀ u : UnitId, (t.port p).lens.known[u] = none

section
variable {p : PortId} {s t u : State}

theorem PowerOnly.refl (p : PortId) (s : State) : PowerOnly p s s :=
  ⟨.refl s, rfl, rfl, rfl, fun _ _ => rfl, rfl, rfl, rfl, rfl, rfl, rfl, rfl⟩

theorem PowerOnly.trans (h : PowerOnly p s t) (g : PowerOnly p t u) : PowerOnly p s u where
  dma := h.dma.trans g.dma
  trig := g.trig.trans h.trig
  sweeps := g.sweeps.trans h.sweeps
  cell := g.cell.trans h.cell
  others q hq := (g.others q hq).trans (h.others q hq)
  link := g.link.trans h.link
  ctl := g.ctl.trans h.ctl
  lens := g.lens.trans h.lens
  frame := g.frame.trans h.frame
  sweep := g.sweep.trans h.sweep
  flex := g.flex.trans h.flex
  alerts := g.alerts.trans h.alerts

theorem CardKept.powerOnly (h : CardKept s t) (d : DmaOnly s t) : PowerOnly p s t :=
  ⟨d, h.trig, h.sweeps, h.cell, fun q _ => h.port q, by rw [h.port], by rw [h.port], by rw [h.port], by rw [h.port],
    by rw [h.port], by rw [h.port], by rw [h.port]⟩

theorem PowerOnly.unplugged (h : PowerOnly p s t) (g : Unplugged p t u) : Unplugged p s u where
  dma := h.dma.trans g.dma
  trig := g.trig.trans h.trig
  sweeps := g.sweeps.trans h.sweeps
  cell := g.cell.trans h.cell
  others q hq := (g.others q hq).trans (h.others q hq)
  link := g.link.trans (by rw [h.link])
  sweep := g.sweep.trans h.sweep
  flex := g.flex.trans h.flex
  alerts := g.alerts.trans h.alerts
  dormant := g.dormant
  txn := g.txn
  identity := g.identity
  known := g.known

theorem Unplugged.powerOnly (h : Unplugged p s t) (g : PowerOnly p t u) : Unplugged p s u where
  dma := h.dma.trans g.dma
  trig := g.trig.trans h.trig
  sweeps := g.sweeps.trans h.sweeps
  cell := g.cell.trans h.cell
  others q hq := (g.others q hq).trans (h.others q hq)
  link := g.link.trans h.link
  sweep := g.sweep.trans h.sweep
  flex := g.flex.trans h.flex
  alerts := g.alerts.trans h.alerts
  dormant := ⟨by rw [g.ctl]; exact h.dormant.suspended, by rw [g.ctl]; exact h.dormant.notReady,
    by rw [g.frame]; exact h.dormant.noEntry⟩
  txn := by rw [g.ctl]; exact h.txn
  identity := by rw [g.ctl]; exact h.identity
  known := by rw [g.lens]; exact h.known

end

variable (p : PortId)

theorem powerOnly_modPower (f : PortPower → PortPower) (s : State) : PowerOnly p s (modPower p f s) :=
  ⟨dmaOnly_modPort p _ s, rfl, rfl, rfl, fun q hq => modPower_port_other s p q f hq, modPower_port_link .., modPower_port_ctl ..,
    modPower_port_lens .., modPower_port_frame .., modPower_port_sweep .., modPower_port_flex .., modPower_port_alerts ..⟩

theorem powerOnly_modPowerCell (f : PowerCell → PowerCell) (s : State) : PowerOnly p s (modPowerCell f s) :=
  ⟨.of_eq rfl rfl, rfl, rfl, rfl, fun _ _ => rfl, rfl, rfl, rfl, rfl, rfl, rfl, rfl⟩

theorem powerOnly_completeCommand (a : Addr) (c : Code) (r : List Byte) (s : State) :
    PowerOnly p s (completeCommand a c r s) :=
  (cardKept_completeCommand a c r s).powerOnly (dmaOnly_completeCommand a c r s)

@[simp] theorem powerOf_modPower (f : PortPower → PortPower) (s : State) :
    powerOf p (modPower p f s) = (f (s.port p).power).state := by
  unfold powerOf; rw [modPower_port_self]

/-! ## The ON command in flight -/

theorem powerOnly_completeOn (c : Code) (s : State) : PowerOnly p s (completeOn p c s) := by
  unfold completeOn
  split
  · exact .refl p s
  · exact (powerOnly_modPower p _ s).trans (powerOnly_completeCommand p ..)

@[simp] theorem completeOn_power (c : Code) (s : State) : (completeOn p c s).power = s.power := by
  unfold completeOn
  split
  · rfl
  · exact (cardKept_completeCommand ..).power

/-- The ON command in flight is gone, and nothing else of the port's power has changed (R4). -/
@[simp] theorem completeOn_portPower (c : Code) (s : State) :
    ((completeOn p c s).port p).power = { (s.port p).power with onCommand := none } := by
  unfold completeOn
  split
  · rename_i h; rw [← h]
  · rw [(cardKept_completeCommand ..).port]; exact modPower_port_self ..

theorem keeps_completeOn {A : PortId → Prop} (c : Code) (s : State) : Keeps A s (completeOn p c s) := by
  unfold completeOn
  split
  · exact .refl A s
  · exact (keeps_modPower p _ s rfl rfl).trans (keeps_completeCommand ..)

/-! ## Power removal -/

theorem closes_forgetCodes (s : State) : Closes p s (forgetCodes p s) := closes_modLens p _ s

theorem closes_powerRemoved (s : State) : Closes p (linkDown p s) (powerRemoved p s) := by
  unfold powerRemoved
  exact ((closes_closeAll p _ _).trans (closes_suspendChannel p _ _ _)).trans (closes_forgetCodes p _)

@[simp] theorem powerRemoved_power (s : State) : (powerRemoved p s).power = s.power := (closes_powerRemoved p s).power

@[simp] theorem powerRemoved_portPower (s : State) : ((powerRemoved p s).port p).power = (s.port p).power :=
  (closes_powerRemoved p s).portPower.trans (modLink_port_power ..)

theorem powerRemoved_entries (s : State) : ((powerRemoved p s).port p).frame.entries = [] := by
  unfold powerRemoved
  have sub := ((closes_suspendChannel p .linkLost true (closeAll p .powerLost (linkDown p s))).trans
    (closes_forgetCodes p _)).entries
  rw [closeAll_entries] at sub
  exact List.subset_nil.mp sub

theorem unplugged_powerRemoved (s : State) : Unplugged p s (powerRemoved p s) := by
  have h := closes_powerRemoved p s
  have ctl : ((powerRemoved p s).port p).ctl =
      ((suspendChannel p .linkLost true (closeAll p .powerLost (linkDown p s))).port p).ctl := by
    unfold powerRemoved forgetCodes; exact modLens_port_ctl ..
  obtain ⟨suspended, notReady, txn, identity⟩ := suspendChannel_ctl p .linkLost true (closeAll p .powerLost (linkDown p s))
  refine ⟨(DmaOnly.of_eq rfl rfl).trans h.dma, h.trig, h.sweeps, h.cell, fun q hq => ?_, ?_, ?_, ?_, ?_, ⟨?_, ?_, ?_⟩, ?_, ?_,
    fun u => ?_⟩
  · exact (h.others q hq).trans (modLink_port_other s p q _ hq)
  · exact h.link.trans (modLink_port_self ..)
  · exact h.sweep.trans (modLink_port_sweep ..)
  · exact h.flex.trans (modLink_port_flex ..)
  · exact h.alerts.trans (modLink_port_alerts ..)
  · rw [ctl]; exact suspended
  · rw [ctl]; exact notReady
  · exact powerRemoved_entries p s
  · rw [ctl]; exact txn
  · rw [ctl]; exact identity rfl
  · unfold powerRemoved forgetCodes
    rw [modLens_port_self]
    exact Vector.getElem_replicate ..

/-! ## The queue of the budget -/

/-- What an examination of the budget queue can do: nothing, or a grant of its head (R6, R7). -/
theorem examineBudget_cases (s : State) :
    examineBudget s = s ∨ ∃ q rest, s.power.queue = q :: rest ∧ grantable q s = true ∧ examineBudget s = grant q rest s := by
  unfold examineBudget
  cases hq : s.power.queue with
  | nil => exact .inl rfl
  | cons q rest =>
    cases hg : grantable q s
    · exact .inl (by simp [hg])
    · exact .inr ⟨q, rest, rfl, hg, by simp [hg]⟩

theorem grantable_iff (s : State) : grantable p s = true ↔
    (∀ q, powerOf q s ≠ .inrush) ∧ s.power.reserved + reservation (s.port p).power.clsInUse ≤ s.power.budget := by
  have all : ∀ q : PortId, q ∈ allPorts := by decide
  simp only [grantable, Bool.and_eq_true, List.all_eq_true, decide_eq_true_eq]
  exact and_congr_left' ⟨fun h q => h q (all q), fun h q _ => h q⟩

theorem powerOnly_grant (rest : List PortId) (s : State) : PowerOnly p s (grant p rest s) :=
  (powerOnly_modPowerCell p _ s).trans (powerOnly_modPower p _ _)

/-- An examination changes no port but one of the queue. -/
theorem examineBudget_port {s : State} (h : p ∉ s.power.queue) : (examineBudget s).port p = s.port p := by
  rcases examineBudget_cases s with e | ⟨q, rest, hq, -, e⟩ <;> rw [e]
  refine (powerOnly_grant q rest s).others p fun hp => h ?_
  rw [hq, hp]
  exact List.mem_cons_self

/-! ## The law of the links at one port -/

/-- The law of the links at one port (R27, R36, R57, R105). -/
structure PortLinked (q : Port) : Prop where
  unpowered : q.power.state ≠ .on → q.power.state ≠ .foldback → q.link.state = .down ∧ q.frame.entries = []
  unlocked : q.link.state ≠ .locked → Dormant q

theorem linkLaw_iff (s : State) : LinkLaw s ↔ ∀ q, PortLinked (s.port q) :=
  ⟨fun h q => ⟨h.unpowered q, fun hl => ⟨(h.unlocked q hl).1, (h.unlocked q hl).2.1, (h.unlocked q hl).2.2⟩⟩,
    fun h => ⟨fun q => (h q).unpowered, fun q hl =>
      ⟨((h q).unlocked hl).suspended, ((h q).unlocked hl).notReady, ((h q).unlocked hl).noEntry⟩⟩⟩

/-- A port whose link is not DOWN is in ON or FOLDBACK. -/
theorem PortLinked.lit {q : Port} (h : PortLinked q) (hl : q.link.state ≠ .down) :
    q.power.state = .on ∨ q.power.state = .foldback := by
  by_contra hn
  rw [not_or] at hn
  exact hl (h.unpowered hn.1 hn.2).1

section
variable {p} {s t : State}

/-- A change of one port alone keeps the law of the links if it keeps it there. -/
theorem linkLaw_of_port (hs : LinkLaw s) (others : ∀ q, q ≠ p → t.port q = s.port q) (hp : PortLinked (t.port p)) :
    LinkLaw t := by
  rw [linkLaw_iff] at hs ⊢
  intro q
  rcases eq_or_ne q p with rfl | hq
  · exact hp
  · rw [others q hq]; exact hs q

theorem Unplugged.linkLaw (h : Unplugged p s t) (hs : LinkLaw s) : LinkLaw t :=
  linkLaw_of_port hs h.others ⟨fun _ _ => ⟨by rw [h.link], h.dormant.noEntry⟩, fun _ => h.dormant⟩

/-- A port's power may change freely while it is not in ON or FOLDBACK, and into ON and FOLDBACK. -/
theorem PowerOnly.linkLaw (h : PowerOnly p s t) (hs : LinkLaw s)
    (hp : (powerOf p s ≠ .on ∧ powerOf p s ≠ .foldback) ∨ powerOf p t = .on ∨ powerOf p t = .foldback) : LinkLaw t := by
  have hq := (linkLaw_iff s).mp hs p
  refine linkLaw_of_port hs h.others ⟨fun h1 h2 => ?_, fun hl => ?_⟩
  · rw [h.link, h.frame]
    rcases hp with ⟨h3, h4⟩ | h3 | h3
    · exact hq.unpowered h3 h4
    · exact absurd h3 h1
    · exact absurd h3 h2
  · rw [h.link] at hl
    have d := hq.unlocked hl
    exact ⟨by rw [h.ctl]; exact d.suspended, by rw [h.ctl]; exact d.notReady, by rw [h.frame]; exact d.noEntry⟩

/-- An operation that wakes no port but those whose links are LOCKED keeps the law of the links. -/
theorem Keeps.linkLaw {A : PortId → Prop} (h : Keeps A s t) (hA : ∀ q, A q → (s.port q).link.state = .locked)
    (hs : LinkLaw s) : LinkLaw t := by
  rw [linkLaw_iff] at hs ⊢
  intro q
  refine ⟨fun h1 h2 => ?_, fun hl => ?_⟩
  · have hdown := (hs q).unpowered (fun e => h1 ((h.state q).trans e)) (fun e => h2 ((h.state q).trans e))
    have hnot : (s.port q).link.state ≠ .locked := by rw [hdown.1]; decide
    exact ⟨(h.link q).trans hdown.1, (h.dormant q (fun a => hnot (hA q a)) ((hs q).unlocked hnot)).noEntry⟩
  · rw [h.link] at hl
    exact h.dormant q (fun a => hl (hA q a)) ((hs q).unlocked hl)

end

/-! ## Operations that keep the laws -/

/-- From `s` to `t` the laws of the budget and of the links are kept. -/
structure KeepsLaws (s t : State) : Prop where
  budget : PowerLaw s → PowerLaw t
  links : PowerLaw s → LinkLaw s → LinkLaw t

/-- From `s` to `t` the ledger of the budget and the law of the links are kept, and no reservation has been made. -/
structure Frees (s t : State) : Prop where
  ledger : Ledger s → Ledger t
  links : Ledger s → LinkLaw s → LinkLaw t
  budget : t.power.budget = s.power.budget
  reserved : t.power.reserved ≤ s.power.reserved

section
variable {p} {s t u : State}

theorem KeepsLaws.refl (s : State) : KeepsLaws s s := ⟨id, fun _ => id⟩

theorem KeepsLaws.trans (h : KeepsLaws s t) (g : KeepsLaws t u) : KeepsLaws s u :=
  ⟨g.budget ∘ h.budget, fun hp hl => g.links (h.budget hp) (h.links hp hl)⟩

theorem KeepsLaws.foldl {α : Type} {f : State → α → State} (l : List α) (hf : ∀ s x, KeepsLaws s (f s x)) (s : State) :
    KeepsLaws s (l.foldl f s) := by
  induction l generalizing s with
  | nil => exact .refl s
  | cons x l ih => exact (hf s x).trans (ih _)

theorem Frees.refl (s : State) : Frees s s := ⟨id, fun _ => id, rfl, le_refl _⟩

theorem Frees.trans (h : Frees s t) (g : Frees t u) : Frees s u :=
  ⟨g.ledger ∘ h.ledger, fun hp hl => g.links (h.ledger hp) (h.links hp hl), g.budget.trans h.budget, g.reserved.trans h.reserved⟩

theorem Frees.foldl {α : Type} {f : State → α → State} (l : List α) (hf : ∀ s x, Frees s (f s x)) (s : State) :
    Frees s (l.foldl f s) := by
  induction l generalizing s with
  | nil => exact .refl s
  | cons x l ih => exact (hf s x).trans (ih _)

theorem Frees.keepsLaws (h : Frees s t) : KeepsLaws s t where
  budget hs := (h.ledger hs.ledger).powerLaw (h.budget ▸ h.reserved.trans hs.withinBudget) (h.budget ▸ hs.budgetMax)
  links hs := h.links hs.ledger

theorem keepsLaws_ite (c : Prop) [Decidable c] (ht : c → KeepsLaws s t) (hu : ¬ c → KeepsLaws s u) :
    KeepsLaws s (if c then t else u) := by
  split
  · exact ht ‹_›
  · exact hu ‹_›

/-- The ports awake by the law of the links are those whose links are LOCKED. -/
theorem LinkLaw.onlyAwake (h : LinkLaw s) : OnlyAwake (fun q => (s.port q).link.state = .locked) s :=
  fun q hq => ((linkLaw_iff s).mp h q).unlocked hq

/-- Operations that wake no port keep the laws. -/
theorem frees_of_keeps (h : ∀ A, OnlyAwake A s → Keeps A s t) : Frees s t := by
  have hp := (h (fun _ => True) fun _ n => absurd trivial n).samePower
  exact ⟨hp.ledger, fun _ hl => (h _ hl.onlyAwake).linkLaw (fun _ => id) hl, by rw [hp.power], by rw [hp.power]⟩

theorem keepsLaws_of_keeps (h : ∀ A, OnlyAwake A s → Keeps A s t) : KeepsLaws s t := (frees_of_keeps h).keepsLaws

/-- A change of one port's power among the states that are neither powered nor QUEUED. -/
theorem PowerOnly.frees_idle (h : PowerOnly p s t) (hpower : t.power = s.power)
    (hp : isPowered (powerOf p s) = false) (hq : powerOf p s ≠ .queued)
    (hp' : isPowered (powerOf p t) = false) (hq' : powerOf p t ≠ .queued) : Frees s t where
  ledger hs := hs.idle (.of_ports h.others) hpower hp hq hp' hq'
  links _ hl := by
    refine h.linkLaw hl (.inl ⟨?_, ?_⟩) <;> intro e <;> rw [e] at hp <;> exact absurd hp (by decide)
  budget := by rw [hpower]
  reserved := by rw [hpower]

end

/-- The same, as an update. -/
theorem frees_modPower_idle (f : PortPower → PortPower) {s : State} (hp : isPowered (powerOf p s) = false)
    (hq : powerOf p s ≠ .queued) (hp' : isPowered (f (s.port p).power).state = false)
    (hq' : (f (s.port p).power).state ≠ .queued) : Frees s (modPower p f s) :=
  (powerOnly_modPower p f s).frees_idle rfl hp hq (by rwa [powerOf_modPower]) (by rwa [powerOf_modPower])

/-! ## Turning off and trips -/

theorem isPowered_iff (st : PowerState) : isPowered st = true ↔ st = .inrush ∨ st = .on ∨ st = .foldback := by
  cases st <;> decide

theorem turnOff_powered (c : Code) {s : State} (h : isPowered (powerOf p s) = true) :
    turnOff p c s = powerRemoved p (enterOff p c (releaseGrant p s)) := by
  unfold turnOff
  rcases (isPowered_iff _).mp h with e | e | e <;> rw [e]

/-- A port in OFF by power removal: its grant released, then its power gone. -/
theorem unplugged_turnOff (c : Code) {s : State} (h : isPowered (powerOf p s) = true) : Unplugged p s (turnOff p c s) := by
  rw [turnOff_powered p c h]
  exact ((powerOnly_modPowerCell p _ s).trans (powerOnly_modPower p _ _)).unplugged (unplugged_powerRemoved p _)

/-- The grant of a powered port released: the port leaves the grant-order list with its reservation (R8). -/
abbrev released (p : PortId) (s : State) : PowerCell :=
  { s.power with grants := s.power.grants.erase p, reserved := s.power.reserved - reservation (s.port p).power.clsInUse }

/-- The power of a port that has entered OFF with a cause (R5, R14, R17, R18, R22). -/
abbrev offPower (c : Code) (w : PortPower) : PortPower :=
  { w with state := .off, cause := c, retries := 0, pendingOn := false
           detectTimer := none, inrushTimer := none, foldbackTimer := none }

theorem turnOff_power (c : Code) {s : State} (h : isPowered (powerOf p s) = true) : (turnOff p c s).power = released p s := by
  rw [turnOff_powered p c h, powerRemoved_power]
  rfl

theorem turnOff_portPower (c : Code) {s : State} (h : isPowered (powerOf p s) = true) :
    ((turnOff p c s).port p).power = offPower c (s.port p).power := by
  rw [turnOff_powered p c h, powerRemoved_portPower]
  exact modPower_port_self ..

/-- Turning a port off frees its grant or its place in the queue, if it has one. -/
theorem frees_turnOff (c : Code) (s : State) : Frees s (turnOff p c s) := by
  cases hst : powerOf p s with
  | off => unfold turnOff; rw [hst]; exact .refl s
  | tripped => unfold turnOff; rw [hst]; exact .refl s
  | detect =>
    unfold turnOff; rw [hst]
    exact frees_modPower_idle p _ (by rw [hst]; rfl) (by rw [hst]; decide) rfl nofun
  | queued =>
    unfold turnOff; rw [hst]
    have h : PowerOnly p s (enterOff p c (leaveQueue p s)) := (powerOnly_modPowerCell p _ s).trans (powerOnly_modPower p _ _)
    have hoff : powerOf p (enterOff p c (leaveQueue p s)) = .off := powerOf_modPower ..
    refine ⟨fun hs => hs.unqueue (.of_ports h.others) rfl hst (by rw [hoff]; rfl) (by rw [hoff]; decide), fun _ hl =>
      h.linkLaw hl (.inl ?_), rfl, le_refl _⟩
    rw [hst]; decide
  | _ =>
    have h : isPowered (powerOf p s) = true := by rw [hst]; rfl
    have hoff : powerOf p (turnOff p c s) = .off := by unfold powerOf; rw [turnOff_portPower p c h]
    have hpower := turnOff_power p c h
    have hu := unplugged_turnOff p c h
    exact ⟨fun hs => hs.release (.of_ports hu.others) hpower h (by rw [hoff]; rfl) (by rw [hoff]; decide),
      fun _ hl => hu.linkLaw hl, by rw [hpower], by rw [hpower]; exact Nat.sub_le ..⟩

/-- The power of a port that has entered TRIPPED with a cause (R12). -/
abbrev trippedPower (c : Code) (w : PortPower) : PortPower :=
  { w with state := .tripped, cause := c, cooldown := some (1000 * w.cooldownS)
           detectTimer := none, inrushTimer := none, foldbackTimer := none }

/-- A port that was not powered trips (R12). -/
theorem trip_unpowered (c : Code) {s : State} (h : isPowered (powerOf p s) = false) : trip p c s =
    requestAutoSweep p c (setPortAlert p alertTrip (completeOn p c (modPower p (trippedPower c) s))) := by
  simp only [trip, h, Bool.false_eq_true, if_false]
  rfl

/-- A powered port trips (R8, R12, R15), before an auto sweep is asked for and the budget queue is examined. -/
def tripFromPower (p : PortId) (c : Code) (s : State) : State :=
  powerRemoved p (setPortAlert p alertTrip (completeOn p c (modPower p (trippedPower c) (releaseGrant p s))))

theorem trip_powered (c : Code) {s : State} (h : isPowered (powerOf p s) = true) :
    trip p c s = examineBudget (requestAutoSweep p c (tripFromPower p c s)) := by
  simp only [trip, h, if_true]
  rfl

@[simp] theorem setPortAlert_power (bit : Nat) (s : State) : (setPortAlert p bit s).power = s.power := by
  unfold setPortAlert
  split
  · rfl
  · exact (cardKept_setCause _ _).power

@[simp] theorem setPortAlert_portPower (q : PortId) (bit : Nat) (s : State) :
    ((setPortAlert p bit s).port q).power = (s.port q).power := by
  rw [setPortAlert_port]
  split
  · rename_i h; rw [h.1, modPort_port, if_pos rfl]
  · rfl

theorem tripFromPower_power (c : Code) (s : State) : (tripFromPower p c s).power = released p s := by
  unfold tripFromPower
  rw [powerRemoved_power, setPortAlert_power, completeOn_power]
  rfl

theorem tripFromPower_portPower (c : Code) (s : State) :
    ((tripFromPower p c s).port p).power = { trippedPower c (s.port p).power with onCommand := none } := by
  unfold tripFromPower
  rw [powerRemoved_portPower, setPortAlert_portPower, completeOn_portPower, modPower_port_self]
  rfl

theorem frees_requestAutoSweep (c : Code) (s : State) : Frees s (requestAutoSweep p c s) :=
  frees_of_keeps fun _ _ => keeps_requestAutoSweep p c s

theorem frees_setPortAlert (bit : Nat) (s : State) : Frees s (setPortAlert p bit s) :=
  frees_of_keeps fun _ _ => keeps_setPortAlert p bit s

theorem frees_completeOn (c : Code) (s : State) : Frees s (completeOn p c s) := frees_of_keeps fun _ _ => keeps_completeOn p c s

theorem setPortAlert_port_other (bit : Nat) {q : PortId} (h : q ≠ p) (s : State) : (setPortAlert p bit s).port q = s.port q := by
  rw [setPortAlert_port, if_neg fun e => h e.1]

theorem tripFromPower_port_other (c : Code) {q : PortId} (h : q ≠ p) (s : State) : (tripFromPower p c s).port q = s.port q := by
  unfold tripFromPower
  rw [(unplugged_powerRemoved p _).others q h, setPortAlert_port_other p _ h, (powerOnly_completeOn p c _).others q h,
    modPower_port_other _ p q _ h]
  rfl

theorem frees_tripFromPower (c : Code) {s : State} (h : isPowered (powerOf p s) = true) : Frees s (tripFromPower p c s) := by
  have hpower := tripFromPower_power p c s
  have htripped : powerOf p (tripFromPower p c s) = .tripped := by unfold powerOf; rw [tripFromPower_portPower]
  have others : ∀ q, q ≠ p → (tripFromPower p c s).port q = s.port q := fun q hq => tripFromPower_port_other p c hq s
  have hu : Unplugged p _ (tripFromPower p c s) := unplugged_powerRemoved p _
  refine ⟨fun hs => hs.release (.of_ports others) hpower h (by rw [htripped]; rfl) (by rw [htripped]; decide),
    fun _ hl => linkLaw_of_port hl others ⟨fun _ _ => ⟨by rw [hu.link], hu.dormant.noEntry⟩, fun _ => hu.dormant⟩, by rw [hpower],
    by rw [hpower]; exact Nat.sub_le ..⟩

/-- An examination of the budget queue keeps the ledger. -/
theorem ledger_examineBudget {s : State} (hs : Ledger s) : Ledger (examineBudget s) := by
  rcases examineBudget_cases s with e | ⟨q, rest, hq, hg, e⟩ <;> rw [e]
  · exact hs
  · obtain ⟨hnone, -⟩ := (grantable_iff q s).mp hg
    refine hs.grant (.of_ports (powerOnly_grant q rest s).others) hq rfl hnone ?_ ?_
    · exact powerOf_modPower ..
    · unfold grant; rw [modPower_port_self]; rfl

theorem keepsLaws_examineBudget (s : State) : KeepsLaws s (examineBudget s) := by
  refine ⟨fun hs => ?_, fun hs hl => ?_⟩
  · refine (ledger_examineBudget hs.ledger).powerLaw ?_ ?_ <;>
      rcases examineBudget_cases s with e | ⟨q, rest, hq, hg, e⟩ <;> rw [e]
    · exact hs.withinBudget
    · exact ((grantable_iff q s).mp hg).2
    · exact hs.budgetMax
    · exact hs.budgetMax
  · rcases examineBudget_cases s with e | ⟨q, rest, hq, -, e⟩ <;> rw [e]
    · exact hl
    · refine (powerOnly_grant q rest s).linkLaw hl (.inl ?_)
      rw [(hs.queueQueued q).mp (hq ▸ List.mem_cons_self)]
      decide

/-- A trip keeps the laws (R12). -/
theorem keepsLaws_trip (c : Code) {s : State} (hq : powerOf p s ≠ .queued) : KeepsLaws s (trip p c s) := by
  cases h : isPowered (powerOf p s)
  · rw [trip_unpowered p c h]
    exact Frees.keepsLaws ((((frees_modPower_idle p _ h hq rfl (show PowerState.tripped ≠ .queued by decide)).trans (frees_completeOn p c _)).trans
      (frees_setPortAlert p _ _)).trans (frees_requestAutoSweep p c _))
  · rw [trip_powered p c h]
    exact ((frees_tripFromPower p c h).trans (frees_requestAutoSweep p c _)).keepsLaws.trans (keepsLaws_examineBudget _)

end Sys2Proof.Machine
end

section
/-! PROOFS. Every command keeps the laws of the budget and of the links: O5. -/

namespace Sys2Proof.Machine

variable (p : PortId)

/-! ## The Power Controller's events -/

theorem powerOf_eq (s : State) : powerOf p s = (s.port p).power.state := rfl

@[simp] theorem powerOf_modPowerCell (f : PowerCell → PowerCell) (s : State) : powerOf p (modPowerCell f s) = powerOf p s := rfl

theorem frees_modPower_same (f : PortPower → PortPower) (s : State) (hstate : (f (s.port p).power).state = (s.port p).power.state)
    (hcls : (f (s.port p).power).clsInUse = (s.port p).power.clsInUse) : Frees s (modPower p f s) :=
  frees_of_keeps fun _ _ => keeps_modPower p f s hstate hcls

theorem frees_completeCommand (a : Addr) (c : Code) (r : List Byte) (s : State) : Frees s (completeCommand a c r s) :=
  frees_of_keeps fun _ _ => keeps_completeCommand a c r s

theorem keepsLaws_completeCommand (a : Addr) (c : Code) (r : List Byte) (s : State) : KeepsLaws s (completeCommand a c r s) :=
  (frees_completeCommand a c r s).keepsLaws

/-- A port in OFF or TRIPPED enters DETECT. -/
theorem frees_enterDetect {s : State} (h : powerOf p s = .off ∨ powerOf p s = .tripped) : Frees s (enterDetect p s) := by
  refine frees_modPower_idle p _ ?_ ?_ rfl (show PowerState.detect ≠ .queued by decide) <;>
    (rcases h with e | e <;> rw [e] <;> decide)

theorem frees_acceptOn (a : Addr) (s : State) : Frees s (acceptOn p a s) := frees_modPower_same p _ s rfl rfl

theorem keepsLaws_takePowerOn (a : Addr) (s : State) : KeepsLaws s (takePowerOn a p s) := by
  have answered : ∀ c, KeepsLaws s (completeCommand a c [] s) := fun c => keepsLaws_completeCommand a c [] s
  have pending : KeepsLaws s (modPower p (fun w => { w with pendingOn := true }) (acceptOn p a s)) :=
    ((frees_acceptOn p a s).trans (frees_modPower_same p _ _ rfl rfl)).keepsLaws
  unfold takePowerOn
  dsimp only
  refine keepsLaws_ite _ (fun _ => answered _) fun _ => ?_
  split
  · exact answered _
  · exact answered _
  · rename_i hoff
    refine keepsLaws_ite _ (fun _ => answered _) fun _ => keepsLaws_ite _ (fun _ => pending) fun _ => ?_
    refine ((frees_acceptOn p a s).trans (frees_enterDetect p (.inl ?_))).keepsLaws
    exact (powerOf_modPower ..).trans hoff
  all_goals refine keepsLaws_ite _ (fun _ => answered _) fun _ => ?_
  · exact (frees_acceptOn p a s).keepsLaws
  · exact (frees_acceptOn p a s).keepsLaws
  · exact (frees_acceptOn p a s).keepsLaws
  · exact pending

theorem keepsLaws_hostOff (s : State) : KeepsLaws s (hostOff p s) := by
  have h := frees_completeOn p .cancelled s
  unfold hostOff
  dsimp only
  split
  · exact (h.trans (frees_modPower_same p _ _ rfl rfl)).keepsLaws
  · exact (h.trans (frees_modPower_same p _ _ rfl rfl)).keepsLaws
  · exact (h.trans (frees_turnOff p _ _)).keepsLaws
  all_goals exact (h.trans (frees_turnOff p _ _)).keepsLaws.trans (keepsLaws_examineBudget _)

theorem keepsLaws_takePowerOff (a : Addr) (s : State) : KeepsLaws s (takePowerOff a p s) :=
  (keepsLaws_hostOff p s).trans (keepsLaws_completeCommand ..)

/-- A detection that ends without a head. -/
theorem frees_detectFailed (c : Code) {s : State} (h : powerOf p s = .detect) : Frees s (detectFailed p c s) :=
  (frees_modPower_idle p _ (by rw [h]; rfl) (by rw [h]; decide) rfl (show PowerState.off ≠ .queued by decide)).trans
    (frees_completeOn p c _)

theorem keepsLaws_detectDone (ohms : Nat) (s : State) : KeepsLaws s (detectDone p ohms s) := by
  unfold detectDone
  refine keepsLaws_ite _ (fun h => ?_) fun _ => .refl s
  split
  · exact keepsLaws_trip p _ (by rw [h]; decide)
  · refine .trans ?_ (keepsLaws_examineBudget _)
    have hq : PowerOnly p s (modPowerCell (fun c => { c with queue := c.queue ++ [p] })
        (modPower p (fun w => { stopTimers w with state := .queued }) s)) :=
      (powerOnly_modPower p _ s).trans (powerOnly_modPowerCell p _ _)
    refine Frees.keepsLaws ⟨fun hs => hs.enqueue (.of_ports hq.others) rfl (by rw [h]; rfl) (by rw [h]; decide) ?_,
      fun _ hl => hq.linkLaw hl (.inl (by rw [h]; decide)), rfl, le_refl _⟩
    rw [powerOf_modPowerCell, powerOf_modPower]
  · exact ((frees_detectFailed p _ h).trans (frees_requestAutoSweep p _ _)).keepsLaws
  · exact (frees_detectFailed p _ h).keepsLaws

theorem samePower_modLink (f : LinkRx → LinkRx) (s : State) : SamePower s (modLink p f s) :=
  ⟨rfl, fun q => by rw [powerOf_eq, modLink_port_power]; rfl, fun q => by rw [modLink_port_power]⟩

/-- A change of the link of a port in ON or FOLDBACK, which leaves it LOCKED or finds it dormant. -/
theorem linkLaw_modLink (f : LinkRx → LinkRx) {s : State} (hs : LinkLaw s) (hp : powerOf p s = .on ∨ powerOf p s = .foldback)
    (hd : (f (s.port p).link).state ≠ .locked → Dormant (s.port p)) : LinkLaw (modLink p f s) := by
  refine linkLaw_of_port hs (fun q hq => modLink_port_other s p q f hq) ⟨fun h1 h2 => ?_, fun hl => ?_⟩
  · rw [modLink_port_power] at h1 h2
    exact absurd hp (not_or.mpr ⟨h1, h2⟩)
  · rw [modLink_port_self] at hl
    have d := hd hl
    exact ⟨by rw [modLink_port_ctl]; exact d.suspended, by rw [modLink_port_ctl]; exact d.notReady,
      by rw [modLink_port_frame]; exact d.noEntry⟩

theorem keepsLaws_inrushDone (s : State) : KeepsLaws s (inrushDone p s) := by
  unfold inrushDone
  refine keepsLaws_ite _ (fun h => .trans (Frees.keepsLaws ?_) (keepsLaws_examineBudget _)) fun _ => .refl s
  have on : Frees s (modPower p (fun w => { stopTimers w with state := .on, cause := .ok }) s) := by
    have hp := powerOnly_modPower p (fun w => { stopTimers w with state := .on, cause := .ok }) s
    have hon : powerOf p (modPower p (fun w => { stopTimers w with state := .on, cause := .ok }) s) = .on := powerOf_modPower ..
    refine ⟨fun hs => hs.powered (.of_ports hp.others) rfl (by rw [h]; rfl) (by rw [hon]; rfl) (by rw [hon]; decide) ?_,
      fun _ hl => hp.linkLaw hl (.inr (.inl hon)), rfl, le_refl _⟩
    rw [modPower_port_self]; rfl
  have hc := on.trans (frees_completeOn p .ok _)
  generalize hu : completeOn p .ok (modPower p (fun w => { stopTimers w with state := .on, cause := .ok }) s) = u at hc ⊢
  have hon : powerOf p u = .on := by rw [← hu, powerOf_eq, completeOn_portPower, modPower_port_self]
  have hlink : (u.port p).link = (s.port p).link := by
    rw [← hu]; exact ((powerOnly_modPower p _ s).trans (powerOnly_completeOn p .ok _)).link
  have same := samePower_modLink p (fun l => { huntAgain l with history := [], carrier := true }) u
  refine ⟨same.ledger ∘ hc.ledger, fun hs hl => linkLaw_modLink p _ (hc.links hs hl) (.inl hon) fun _ => ?_, hc.budget, hc.reserved⟩
  refine ((linkLaw_iff u).mp (hc.links hs hl) p).unlocked ?_
  rw [hlink, (((linkLaw_iff s).mp hl p).unpowered ?_ ?_).1]
  · decide
  · rw [← powerOf_eq, h]; decide
  · rw [← powerOf_eq, h]; decide

/-- A port in ON or FOLDBACK goes to one of the two. -/
theorem frees_modPower_on (f : PortPower → PortPower) {s : State} (h : powerOf p s = .on ∨ powerOf p s = .foldback)
    (h' : (f (s.port p).power).state = .on ∨ (f (s.port p).power).state = .foldback)
    (hcls : (f (s.port p).power).clsInUse = (s.port p).power.clsInUse) : Frees s (modPower p f s) := by
  have hp := powerOnly_modPower p f s
  refine ⟨fun hs => hs.powered (.of_ports hp.others) rfl ((isPowered_iff _).mpr (.inr h)) ?_ ?_ ?_,
    fun _ hl => hp.linkLaw hl (.inr (by rwa [powerOf_modPower])), rfl, le_refl _⟩
  · rw [powerOf_modPower]; exact (isPowered_iff _).mpr (.inr h')
  · rw [powerOf_modPower]; rcases h' with e | e <;> rw [e] <;> decide
  · rw [modPower_port_self]; exact hcls

theorem keepsLaws_currentSampled (ma : U16) (s : State) : KeepsLaws s (currentSampled p ma s) := by
  unfold currentSampled
  dsimp only
  refine keepsLaws_ite _ (fun hp => ?_) fun _ => .refl s
  have h : Frees s (modPower p (fun w => { w with loadMa := ma }) s) := frees_modPower_same p _ s rfl rfl
  have hst : powerOf p (modPower p (fun w => { w with loadMa := ma }) s) = powerOf p s := powerOf_modPower ..
  refine keepsLaws_ite _ (fun _ => h.keepsLaws.trans (keepsLaws_trip p _ ?_)) fun _ =>
    keepsLaws_ite _ (fun hon => ?_) fun _ => keepsLaws_ite _ (fun hfold => ?_) fun _ => h.keepsLaws
  · rw [hst]; intro e; rw [← powerOf_eq, e] at hp; exact absurd hp (by decide)
  · exact (h.trans (frees_modPower_on p _ (.inl (hst.trans hon.1)) (.inr rfl) rfl)).keepsLaws
  · exact (h.trans (frees_modPower_on p _ (.inr (hst.trans hfold.1)) (.inl rfl) rfl)).keepsLaws

theorem keepsLaws_inrushExpired (s : State) : KeepsLaws s (inrushExpired p s) :=
  keepsLaws_ite _ (fun h => keepsLaws_trip p _ (by rw [h]; decide)) fun _ => .refl s

theorem keepsLaws_foldbackExpired (s : State) : KeepsLaws s (foldbackExpired p s) :=
  keepsLaws_ite _ (fun h => keepsLaws_trip p _ (by rw [h]; decide)) fun _ => .refl s

/-- The decision at the end of a cooldown (R13). -/
theorem frees_decideCooldown {s : State} (h : powerOf p s = .tripped) : Frees s (decideCooldown p s) := by
  have off : ∀ (f : PortPower → PortPower) (t : State), powerOf p t = .tripped → (f (t.port p).power).state = .off →
      Frees t (modPower p f t) := fun f t ht hf =>
    frees_modPower_idle p f (by rw [ht]; rfl) (by rw [ht]; decide) (by rw [hf]; rfl) (by rw [hf]; decide)
  have h1 : Frees s (modPower p (fun w => { w with expired := false }) s) := frees_modPower_same p _ s rfl rfl
  have ht : powerOf p (modPower p (fun w => { w with expired := false }) s) = .tripped := (powerOf_modPower ..).trans h
  have probe : ∀ f : PortPower → PortPower, (∀ w, (f w).state = w.state ∧ (f w).clsInUse = w.clsInUse) →
      Frees s (enterDetect p (modPower p f (modPower p (fun w => { w with expired := false }) s))) := fun f hf =>
    (h1.trans (frees_modPower_same p f _ (hf _).1 (hf _).2)).trans
      (frees_enterDetect p (.inr ((powerOf_modPower ..).trans ((hf _).1.trans ht))))
  unfold decideCooldown
  dsimp only
  split
  · exact h1.trans (off _ _ ht rfl)
  · split
    · exact probe _ fun _ => ⟨rfl, rfl⟩
    · split
      · exact probe _ fun _ => ⟨rfl, rfl⟩
      · exact h1.trans (off _ _ ht rfl)

theorem keepsLaws_cooldownExpired (s : State) : KeepsLaws s (cooldownExpired p s) := by
  unfold cooldownExpired
  dsimp only
  refine keepsLaws_ite _ (fun h => ?_) fun _ => .refl s
  have h1 : Frees s (modPower p (fun w => { w with cooldown := none }) s) := frees_modPower_same p _ s rfl rfl
  refine keepsLaws_ite _ (fun _ => ?_) fun _ => ?_
  · exact (h1.trans (frees_modPower_same p _ _ rfl rfl)).keepsLaws
  · exact (h1.trans (frees_decideCooldown p ((powerOf_modPower ..).trans h.1))).keepsLaws

theorem frees_sweepEnded (s : State) : Frees s (sweepEnded p s) := by
  unfold sweepEnded
  dsimp only
  split
  · rename_i h
    exact (frees_modPower_same p _ s rfl rfl).trans (frees_enterDetect p (.inl ((powerOf_modPower ..).trans h.1)))
  · split
    · rename_i h
      exact frees_decideCooldown p h.1
    · exact .refl s

theorem keepsLaws_sweepDone (samples : List (List (BitVec 14))) (s : State) : KeepsLaws s (sweepDone samples s) := by
  unfold sweepDone
  split
  · exact .refl s
  · rename_i m _
    dsimp only
    refine KeepsLaws.trans (KeepsLaws.trans (keepsLaws_of_keeps fun A _ =>
      (keeps_deliverSweep m _ s).trans (keeps_modSweep m.entry.port _ _)) (frees_sweepEnded _ _).keepsLaws)
      (keepsLaws_of_keeps fun A _ => (keeps_modSweeps _ _).trans (keeps_examineSweeps _))

/-! ## Budget, supply and stop -/

/-- A change of the Power Controller's cell that leaves queue, grants and reserved sum alone keeps the ledger. -/
theorem ledger_modPowerCell (f : PowerCell → PowerCell) {s : State} (hgrants : (f s.power).grants = s.power.grants)
    (hqueue : (f s.power).queue = s.power.queue) (hreserved : (f s.power).reserved = s.power.reserved) (hs : Ledger s) :
    Ledger (modPowerCell f s) where
  grantsOnce := by rw [modPowerCell_power, hgrants]; exact hs.grantsOnce
  grantsPowered q := by rw [modPowerCell_power, hgrants]; exact hs.grantsPowered q
  reservedSum := by rw [modPowerCell_power, hgrants, hreserved]; exact hs.reservedSum
  queueOnce := by rw [modPowerCell_power, hqueue]; exact hs.queueOnce
  queueQueued q := by rw [modPowerCell_power, hqueue]; exact hs.queueQueued q
  oneInrush := hs.oneInrush

theorem linkLaw_modPowerCell (f : PowerCell → PowerCell) {s : State} (hs : LinkLaw s) : LinkLaw (modPowerCell f s) :=
  ⟨hs.unpowered, hs.unlocked⟩

theorem frees_shedPort (s : State) : Frees s (shedPort p s) :=
  ((frees_turnOff p _ s).trans (frees_completeOn p _ _)).trans (frees_setPortAlert p _ _)

theorem frees_shedLoop (n : Nat) (s : State) (shed : List PortId) : Frees s (shedLoop n s shed).1 := by
  induction n generalizing s shed with
  | zero => exact .refl s
  | succ n ih =>
    unfold shedLoop
    split
    · exact .refl s
    · split
      · exact .refl s
      · exact (frees_shedPort _ s).trans (ih _ _)

/-- A port shed has left the grant-order list with its reservation (R17). -/
theorem shedPort_power {s : State} (h : isPowered (powerOf p s) = true) : (shedPort p s).power = released p s := by
  unfold shedPort
  rw [setPortAlert_power, completeOn_power, turnOff_power p _ h]

/-- Shedding ends with the reserved sum within the budget (R17). -/
theorem shedLoop_fits (n : Nat) (s : State) (shed : List PortId) (hs : Ledger s) (hn : s.power.grants.length ≤ n) :
    (shedLoop n s shed).1.power.reserved ≤ s.power.budget := by
  induction n generalizing s shed with
  | zero =>
    rw [shedLoop, hs.reservedSum, List.length_eq_zero_iff.mp (Nat.le_zero.mp hn)]
    exact Nat.zero_le _
  | succ n ih =>
    unfold shedLoop
    split
    · assumption
    · split
      · rename_i hnone
        rw [hs.reservedSum, List.getLast?_eq_none_iff.mp hnone]
        exact Nat.zero_le _
      · rename_i p hlast
        have hmem := List.mem_of_getLast? hlast
        have hpower := shedPort_power p ((hs.grantsPowered p).mp hmem)
        have := ih (shedPort p s) (p :: shed) ((frees_shedPort p s).ledger hs) (by
          rw [hpower]
          have := List.length_erase_of_mem hmem
          dsimp only
          omega)
        rwa [(frees_shedPort p s).budget] at this

theorem keepsLaws_takeSetBudget (a : Addr) (budget : U32) (s : State) : KeepsLaws s (takeSetBudget a budget s) := by
  unfold takeSetBudget
  dsimp only
  refine KeepsLaws.trans (KeepsLaws.trans (t := (shedLoop _ (modPowerCell (fun c => { c with
    budget := min budget.toNat maxBudget }) s) []).1) ?_ (keepsLaws_completeCommand ..)) (keepsLaws_examineBudget _)
  have hl : Ledger s → Ledger (modPowerCell (fun c => { c with budget := min budget.toNat maxBudget }) s) :=
    ledger_modPowerCell _ rfl rfl rfl
  have h := frees_shedLoop (modPowerCell (fun c => { c with budget := min budget.toNat maxBudget }) s).power.grants.length
    (modPowerCell (fun c => { c with budget := min budget.toNat maxBudget }) s) []
  refine ⟨fun hs => (h.ledger (hl hs.ledger)).powerLaw ?_ ?_, fun hs => h.links (hl hs.ledger) ∘ linkLaw_modPowerCell _⟩
  · rw [h.budget]; exact shedLoop_fits _ _ _ (hl hs.ledger) (le_refl _)
  · rw [h.budget]; exact Nat.min_le_right ..

theorem frees_modPowerCell_supply (f : PowerCell → PowerCell) (s : State) (hgrants : (f s.power).grants = s.power.grants)
    (hqueue : (f s.power).queue = s.power.queue) (hreserved : (f s.power).reserved = s.power.reserved)
    (hbudget : (f s.power).budget = s.power.budget) : Frees s (modPowerCell f s) :=
  ⟨ledger_modPowerCell f hgrants hqueue hreserved, fun _ => linkLaw_modPowerCell f, hbudget, le_of_eq hreserved⟩

theorem frees_supplyLowPort (s : State) : Frees s (supplyLowPort p s) := by
  unfold supplyLowPort
  dsimp only
  refine Frees.trans (Frees.trans (Frees.trans (frees_turnOff p .supplyLow s) ?_) (frees_modPower_same p _ _ rfl rfl))
    (frees_completeOn p _ _)
  split
  · exact frees_setPortAlert p _ _
  · exact .refl _

theorem frees_supplyFell (s : State) : Frees s (supplyFell s) :=
  ((frees_modPowerCell_supply _ s rfl rfl rfl rfl).trans (Frees.foldl _ (fun s p => frees_supplyLowPort p s) _)).trans
    (frees_of_keeps fun _ _ => keeps_setCellAlert _ _)

theorem keepsLaws_supplySampled (mv : U32) (s : State) : KeepsLaws s (supplySampled mv s) := by
  have h : Frees s (modPowerCell (fun c => { c with supplyMv := mv }) s) := frees_modPowerCell_supply _ s rfl rfl rfl rfl
  refine keepsLaws_ite _ (fun _ => (h.trans (frees_supplyFell _)).keepsLaws) fun _ => keepsLaws_ite _ (fun _ => ?_) fun _ =>
    h.keepsLaws
  exact (h.trans (frees_modPowerCell_supply _ _ rfl rfl rfl rfl)).keepsLaws

theorem frees_stopPortPower (s : State) : Frees s (stopPortPower p s) := by
  unfold stopPortPower
  dsimp only
  refine Frees.trans (Frees.trans ?_ (frees_completeOn p _ _)) (frees_modPower_same p _ _ rfl rfl)
  split
  · exact frees_turnOff p _ s
  · exact frees_turnOff p _ s
  · exact .refl s

end Sys2Proof.Machine
end

section
/-! PROOFS. The link's events, the command records and the cell's own operations keep the laws; O5. -/

namespace Sys2Proof.Machine

variable (p : PortId)

/-! ## The camera link -/

theorem keepsLaws_modLink (f : LinkRx → LinkRx) {s : State} (hdown : (s.port p).link.state ≠ .down)
    (h : (s.port p).link.state = .locked → (f (s.port p).link).state = .locked) : KeepsLaws s (modLink p f s) := by
  refine ⟨(samePower_modLink p f s).powerLaw, fun _ hl => ?_⟩
  have hq := (linkLaw_iff s).mp hl p
  exact linkLaw_modLink p f hl (hq.lit hdown) fun hn => hq.unlocked fun e => hn (h e)

/-- A change of the link that keeps its state. -/
theorem keepsLaws_modLink_same (f : LinkRx → LinkRx) {s : State} (h : (f (s.port p).link).state = (s.port p).link.state) :
    KeepsLaws s (modLink p f s) := keepsLaws_of_keeps fun _ _ => keeps_modLink p f s h

theorem keepsLaws_markInHunt (mark : U64) (s : State) : KeepsLaws s (markInHunt p mark s) := by
  unfold markInHunt
  dsimp only
  split
  · exact keepsLaws_ite _ (fun h => keepsLaws_modLink p _ (by rw [h.1]; decide) (by rw [h.1]; exact nofun)) fun _ => .refl s
  · exact .refl s

theorem keeps_channelLocked {A : PortId → Prop} (hp : A p) (s : State) : Keeps A s (channelLocked p s) :=
  ((keeps_modCtl p _ s fun hA => absurd hp hA).trans (keeps_queuePing p _)).trans (keeps_arbitrate p _)

/-- Operations that wake no port but one whose link is LOCKED. -/
theorem keepsLaws_of_locked {s t : State} (hp : (s.port p).link.state = .locked) (h : ∀ A : PortId → Prop, A p → Keeps A s t) :
    KeepsLaws s t :=
  ⟨(h (fun _ => True) trivial).samePower.powerLaw, fun _ hl => (h (fun q => (s.port q).link.state = .locked) hp).linkLaw
    (fun _ => id) hl⟩

/-- A link that is not DOWN enters LOCKED (R30). -/
theorem keepsLaws_enterLocked {s : State} (h : (s.port p).link.state ≠ .down) : KeepsLaws s (enterLocked p s) := by
  refine (keepsLaws_modLink p (fun l => { l with state := .locked, confirm := 4, misses := 0 }) h fun _ => rfl).trans
    (keepsLaws_of_locked p ?_ fun A hA => (keeps_modFlex p _ _).trans (keeps_channelLocked p hA _))
  rw [modLink_port_self]

theorem keepsLaws_markInConfirm (mark : U64) (s : State) : KeepsLaws s (markInConfirm p mark s) := by
  unfold markInConfirm
  dsimp only
  refine keepsLaws_ite _ (fun h => ?_) fun _ => .refl s
  have hdown : (s.port p).link.state ≠ .down := by rw [h.1]; decide
  split
  · refine keepsLaws_ite _ (fun _ => keepsLaws_modLink_same p _ rfl) fun _ => ?_
    refine (keepsLaws_modLink_same p _ rfl).trans (keepsLaws_enterLocked p ?_)
    rw [modLink_port_self]
    exact hdown
  · exact keepsLaws_modLink p _ hdown (by rw [h.1]; exact nofun)

/-- The link of a port hunts again after a drop, whatever it did (R35). -/
def dropLink (c : DropCause) (l : LinkRx) : LinkRx :=
  { huntAgain l with lastDrop := c, drops := if l.drops = 0xFFFF then l.drops else l.drops + 1 }

/-- What follows the link's own share of a drop: the alert, the closes and the suspension of the channel (R36). -/
def afterDrop (p : PortId) (s : State) : State :=
  suspendChannel p .linkLost false (closeAll p .linkLost (setPortAlert p alertLinkDrop s))

theorem linkDrop_eq (c : DropCause) (s : State) : linkDrop p c s = afterDrop p (modLink p (dropLink c) (flexDrop p c s)) := rfl

theorem keeps_afterDrop {A : PortId → Prop} (s : State) : Keeps A s (afterDrop p s) :=
  ((keeps_setPortAlert p _ s).trans (closes_closeAll p _ _).keeps).trans (keeps_suspendChannel p _ _ _)

theorem suspendChannel_dormant (c : Code) (clear : Bool) {s : State} (h : (s.port p).frame.entries = []) :
    Dormant ((suspendChannel p c clear s).port p) := by
  obtain ⟨suspended, notReady, -, -⟩ := suspendChannel_ctl p c clear s
  exact ⟨suspended, notReady, List.subset_nil.mp (h ▸ (closes_suspendChannel p c clear s).entries)⟩

theorem afterDrop_dormant (s : State) : Dormant ((afterDrop p s).port p) := by
  unfold afterDrop
  generalize setPortAlert p alertLinkDrop s = t
  exact suspendChannel_dormant p _ _ (closeAll_entries p _ t)

/-- An operation that wakes no port keeps the law of the links at each. -/
theorem PortLinked.of_keeps {s t : State} {q : PortId} (h : Keeps (fun _ => False) s t) (hq : PortLinked (s.port q)) :
    PortLinked (t.port q) := by
  refine ⟨fun h1 h2 => ?_, fun hl => h.dormant q id (hq.unlocked fun e => hl ((h.link q).trans e))⟩
  obtain ⟨hdown, -⟩ := hq.unpowered (fun e => h1 ((h.state q).trans e)) (fun e => h2 ((h.state q).trans e))
  exact ⟨(h.link q).trans hdown, (h.dormant q id (hq.unlocked (by rw [hdown]; decide))).noEntry⟩

/-- A drop of a link in LOCKED (R35, R36). -/
theorem keepsLaws_linkDrop (c : DropCause) {s : State} (h : (s.port p).link.state = .locked) : KeepsLaws s (linkDrop p c s) := by
  rw [linkDrop_eq]
  refine (keepsLaws_of_keeps fun _ _ => keeps_flexDrop p c s).trans ?_
  have hlocked : ((flexDrop p c s).port p).link.state = .locked := ((keeps_flexDrop (A := fun _ => True) p c s).link p).trans h
  generalize flexDrop p c s = s1 at hlocked
  have hkeep := keeps_afterDrop (A := fun _ => False) p (modLink p (dropLink c) s1)
  refine ⟨((samePower_modLink p _ s1).trans hkeep.samePower).powerLaw, fun _ hl => (linkLaw_iff _).mpr fun q => ?_⟩
  have hs := (linkLaw_iff s1).mp hl
  rcases eq_or_ne q p with rfl | hq
  · refine ⟨fun h1 h2 => absurd ((hs q).lit (by rw [hlocked]; decide)) (not_or.mpr ⟨?_, ?_⟩), fun _ => afterDrop_dormant q _⟩
    · exact fun e => h1 ((hkeep.state q).trans (((samePower_modLink q _ s1).state q).trans e))
    · exact fun e => h2 ((hkeep.state q).trans (((samePower_modLink q _ s1).state q).trans e))
  · refine .of_keeps hkeep ?_
    rw [modLink_port_other s1 p q _ hq]
    exact hs q

theorem keepsLaws_badLockedMark {s : State} (h : (s.port p).link.state = .locked) : KeepsLaws s (badLockedMark p s) :=
  keepsLaws_ite _ (fun _ => keepsLaws_modLink_same p _ rfl) fun _ => keepsLaws_linkDrop p _ h

theorem endBadBurst_link (s : State) : ((endBadBurst p s).port p).link.state = (s.port p).link.state :=
  (keeps_endBadBurst (A := fun _ => True) p s).link p

theorem keepsLaws_markInLocked (mark : U64) (s : State) : KeepsLaws s (markInLocked p mark s) := by
  unfold markInLocked
  dsimp only
  refine keepsLaws_ite _ (fun h => ?_) fun _ => .refl s
  have ends : KeepsLaws s (endBadBurst p s) := keepsLaws_of_keeps fun A _ => keeps_endBadBurst p s
  split
  · exact ends.trans (keepsLaws_modLink_same p _ rfl)
  · exact ends.trans (keepsLaws_badLockedMark p ((endBadBurst_link p s).trans h.1))

theorem keepsLaws_windowCloses (s : State) : KeepsLaws s (windowCloses p s) :=
  keepsLaws_ite _ (fun h => (keepsLaws_of_keeps fun _ _ => keeps_endBadBurst p s).trans
    (keepsLaws_badLockedMark p ((endBadBurst_link p s).trans h.1))) fun _ => .refl s

theorem keepsLaws_carrierLost (s : State) : KeepsLaws s (carrierLost p s) := by
  unfold carrierLost
  split
  · exact .refl s
  · exact keepsLaws_modLink_same p _ rfl
  · rename_i h
    exact keepsLaws_modLink p _ (by rw [h]; decide) (by rw [h]; exact nofun)
  · rename_i h
    refine (keepsLaws_modLink_same p (fun l => { l with carrier := false }) rfl).trans (keepsLaws_linkDrop p _ ?_)
    rw [modLink_port_self]
    exact h

theorem keepsLaws_carrierBack (s : State) : KeepsLaws s (carrierBack p s) := by
  unfold carrierBack
  split
  · exact .refl s
  · exact keepsLaws_modLink_same p _ rfl

/-! ## Command records -/

/-- RESET_PORT at the link and the channel, once the port's entries have closed (R61). -/
theorem keepsLaws_resetLink {s : State} (hentries : (s.port p).frame.entries = []) : KeepsLaws s (resetLink p s) := by
  have h := closes_suspendChannel p .portReset false s
  obtain ⟨suspended, notReady, -, -⟩ := suspendChannel_ctl p .portReset false s
  have dormant : Dormant ((suspendChannel p .portReset false s).port p) :=
    ⟨suspended, notReady, List.subset_nil.mp (hentries ▸ h.entries)⟩
  have suspends : KeepsLaws s (suspendChannel p .portReset false s) := keepsLaws_of_keeps fun _ _ => h.keeps
  have hst : powerOf p (suspendChannel p .portReset false s) = powerOf p s := by rw [powerOf_eq, h.portPower]; rfl
  have hunts : powerOf p s = .on ∨ powerOf p s = .foldback → KeepsLaws s
      (modLink p (fun l => if l.state = .down then l else huntAgain l) (suspendChannel p .portReset false s)) := fun hp =>
    suspends.trans ⟨(samePower_modLink p _ _).powerLaw, fun _ hl => linkLaw_modLink p _ hl (by rwa [hst]) fun _ => dormant⟩
  unfold resetLink
  split
  · rename_i e; exact hunts (.inl e)
  · rename_i e; exact hunts (.inr e)
  · exact .refl s

theorem keeps_patternPositions {A : PortId → Prop} (f : Taker → Taker) (ps : List PortId) (s : State) :
    Keeps A s (forPorts ps (fun q => modTake q f) s) := keeps_forPorts' ps (fun s q => keeps_modTake q f s) s

theorem keepsLaws_takeResetPort (a : Addr) (s : State) : KeepsLaws s (takeResetPort a p s) := by
  unfold takeResetPort
  dsimp only
  refine ((KeepsLaws.trans ?_ (keepsLaws_resetLink p (closeAll_entries p .portReset s))).trans ?_).trans
    (keepsLaws_completeCommand ..)
  · exact keepsLaws_of_keeps fun _ _ => (closes_closeAll p _ s).keeps
  · exact keepsLaws_of_keeps fun _ _ => (keeps_modLens p _ _).trans (keeps_patternPositions _ _ _)

/-- A port's settings are no business of the laws (R194). -/
theorem configured_keeps {x : ConfigArgs} {q q' : Port} (h : configured x q = some q') :
    q'.power.state = q.power.state ∧ q'.power.clsInUse = q.power.clsInUse ∧ q'.link = q.link ∧ q'.ctl = q.ctl ∧
      q'.frame.entries = q.frame.entries := by
  unfold configured at h
  split at h
  · rename_i w l r v hw _ hr _
    cases h
    have hpower : w.state = q.power.state ∧ w.clsInUse = q.power.clsInUse := by
      unfold ifNamed configurePower at hw
      split at hw
      · split at hw
        · cases hw
        · split at hw
          · cases hw
          · cases hw; exact ⟨rfl, rfl⟩
      · cases hw; exact ⟨rfl, rfl⟩
    have hframe : r.entries = q.frame.entries := by
      unfold ifNamed configureFrame at hr
      split at hr
      · obtain ⟨e, -, rfl⟩ := Option.map_eq_some_iff.mp hr; rfl
      · cases hr; rfl
    exact ⟨hpower.1, hpower.2, rfl, rfl, hframe⟩
  · cases h

theorem keeps_takeConfigurePort {A : PortId → Prop} (a : Addr) (x : ConfigArgs) (s : State) :
    Keeps A s (takeConfigurePort a p x s) := by
  unfold takeConfigurePort
  refine keeps_ite _ (keeps_completeCommand ..) ?_
  split
  · exact keeps_completeCommand ..
  · rename_i q hq
    obtain ⟨hstate, hcls, hlink, hctl, hentries⟩ := configured_keeps hq
    exact (keeps_modPort p _ s hstate hcls (congrArg LinkRx.state hlink) fun _ d =>
      ⟨(congrArg Channel.state hctl).trans d.suspended, (congrArg Channel.ready hctl).trans d.notReady,
        hentries.trans d.noEntry⟩).trans (keeps_completeCommand ..)

section
variable {A : PortId → Prop}

theorem keeps_clearCellAlerts (cellFlags : Byte) (s : State) : Keeps A s (clearCellAlerts cellFlags s) :=
  keeps_ite _ (.refl A s) (keeps_modChain _ s)

theorem keeps_takeClearAlerts (a : Addr) (ports cellFlags : Byte) (portFlags : U16) (s : State) :
    Keeps A s (takeClearAlerts a ports cellFlags portFlags s) := by
  have cleared := keeps_forPorts' (A := A) (maskPorts ports) (fun s p => keeps_modPort p
    (fun q => { q with alerts := q.alerts &&& ~~~(portFlags.setWidth 11) }) s rfl rfl rfl fun _ d =>
      ⟨d.suspended, d.notReady, d.noEntry⟩) s
  exact keeps_ite _ (keeps_completeCommand ..)
    ((cleared.trans (keeps_clearCellAlerts cellFlags _)).trans (keeps_completeCommand ..))

theorem keeps_takeSetGather (a : Addr) (group count : Byte) (time : U16) (s : State) :
    Keeps A s (takeSetGather a group count time s) := by
  unfold takeSetGather
  split
  · exact keeps_completeCommand ..
  · exact ((keeps_ite _ (keeps_setCause _ s) (.refl A s)).trans (keeps_modChain _ _)).trans (keeps_completeCommand ..)

theorem keeps_takeHeadAccess (a : Addr) (x : HeadArgs) (s : State) : Keeps A s (takeHeadAccess a p x s) := by
  unfold takeHeadAccess
  split
  · exact keeps_completeCommand ..
  · exact keeps_ite _ (keeps_completeCommand ..) (keeps_ite _ (keeps_completeCommand ..)
      ((keeps_modCtl_same p _ s rfl rfl).trans (keeps_arbitrate p _)))

theorem keeps_takeSetSource (a : Addr) (x : SourceArgs) (s : State) : Keeps A s (takeSetSource a x s) := by
  have applied : ∀ k kind, Keeps A s (applySource k kind x s) := by
    intro k kind
    have h : Keeps A s (takeFromOthers k x.mask s) :=
      keeps_foldl' _ (fun t j => keeps_ite _ (.refl A t) (keeps_modSource j _ t)) s
    unfold applySource
    dsimp only
    split
    · exact (h.trans (keeps_modSource k _ _)).trans (keeps_modTrig _ _)
    · exact h.trans (keeps_modSource k _ _)
  unfold takeSetSource
  split
  · exact keeps_ite _ (keeps_completeCommand ..) (keeps_ite _ (keeps_completeCommand ..)
      ((applied _ _).trans (keeps_completeCommand ..)))
  · exact keeps_completeCommand ..

theorem keeps_takeSetPattern (a : Addr) (length : Byte) (bits : U16) (s : State) :
    Keeps A s (takeSetPattern a p length bits s) :=
  keeps_ite _ (keeps_completeCommand ..) ((keeps_patternPositions _ _ _).trans (keeps_completeCommand ..))

theorem keeps_takeSoftTrigger (a : Addr) (source : Byte) (s : State) (hs : OnlyAwake A s) :
    Keeps A s (takeSoftTrigger a source s) := by
  unfold takeSoftTrigger
  split
  · exact keeps_completeCommand ..
  · exact keeps_ite _ (keeps_completeCommand ..) ((keeps_fire _ s hs).trans (keeps_completeCommand ..))

theorem keeps_takeSetAxisPosition (a : Addr) (axis : Byte) (value : U32) (s : State) :
    Keeps A s (takeSetAxisPosition a axis value s) := by
  unfold takeSetAxisPosition
  split
  · exact keeps_completeCommand ..
  · exact ((keeps_setAxis _ _ s).trans (keeps_foldl' _ (fun t k => keeps_modSource k _ t) _)).trans (keeps_completeCommand ..)

theorem keeps_takeSetLensTable (a : Addr) (x : TableArgs) (s : State) : Keeps A s (takeSetLensTable a p x s) := by
  unfold takeSetLensTable
  split
  · exact keeps_ite _ (keeps_modLens p _ s) (closes_applyTable p _ s).keeps
  · exact keeps_completeCommand ..

theorem keeps_takeFormSet (a : Addr) (set members : Byte) (s : State) : Keeps A s (takeFormSet a set members s) := by
  unfold takeFormSet
  split
  · refine keeps_ite _ (keeps_completeCommand ..) ?_
    split
    · exact keeps_completeCommand ..
    · exact (((keeps_patternPositions _ _ _).trans (keeps_modSet _ _ _)).trans
        (keeps_forPorts' _ (fun s p => keeps_touchPort p s) _)).trans (keeps_completeCommand ..)
  · exact keeps_completeCommand ..

theorem keeps_dissolve (k : SetId) (s : State) : Keeps A s (dissolve k s) :=
  (keeps_modSet k _ s).trans (keeps_forPorts' _ (fun s p => keeps_touchPort p s) _)

theorem keeps_takeDissolveSet (a : Addr) (set : Byte) (s : State) : Keeps A s (takeDissolveSet a set s) := by
  unfold takeDissolveSet
  split
  · exact keeps_completeCommand ..
  · exact keeps_ite _ (keeps_completeCommand ..) (keeps_ite _ (keeps_completeCommand ..)
      ((keeps_dissolve _ s).trans (keeps_completeCommand ..)))

theorem keeps_takeCableSweep (a : Addr) (averages : Byte) (s : State) : Keeps A s (takeCableSweep a p averages s) := by
  unfold takeCableSweep
  split
  · exact keeps_ite _ (keeps_completeCommand ..) (keeps_joinSweeps _ s)
  · exact keeps_ite _ (keeps_completeCommand ..) (keeps_joinSweeps _ s)
  · exact keeps_completeCommand ..

theorem keeps_takeSetFlexAxis (a : Addr) (axis : Byte) (threshold : U16) (low high : U32) (s : State) :
    Keeps A s (takeSetFlexAxis a p axis threshold low high s) := by
  unfold takeSetFlexAxis
  split
  · exact keeps_completeCommand ..
  · exact (keeps_modFlex p _ s).trans (keeps_completeCommand ..)

theorem keeps_takeReleaseSnapshot (a : Addr) (s : State) : Keeps A s (takeReleaseSnapshot a p s) := by
  unfold takeReleaseSnapshot
  refine .trans ?_ (keeps_completeCommand ..)
  split
  · exact .refl A s
  · exact keeps_modFlex p _ s

end

theorem keepsLaws_withPort (a : Addr) (port : Byte) {f : PortId → State → State} {s : State} (noPort : List Byte)
    (hf : ∀ p, KeepsLaws s (f p s)) : KeepsLaws s (withPort a port f s noPort) := by
  unfold withPort
  split
  · exact hf _
  · exact keepsLaws_completeCommand ..

/-- Every command of the list keeps the laws (R201). -/
theorem keepsLaws_ownCommand (a : Addr) (c : Command) (s : State) : KeepsLaws s (ownCommand a c s) := by
  have kept : ∀ {t}, (∀ A, Keeps A s t) → KeepsLaws s t := fun h => keepsLaws_of_keeps fun A _ => h A
  cases c with
  | portPower port action =>
    refine keepsLaws_withPort a port _ fun p => ?_
    unfold takePortPower
    exact keepsLaws_ite _ (fun _ => keepsLaws_takePowerOn p a s) fun _ => keepsLaws_ite _
      (fun _ => keepsLaws_takePowerOff p a s) fun _ => keepsLaws_completeCommand ..
  | setBudget n => exact keepsLaws_takeSetBudget a n s
  | configurePort port x => exact keepsLaws_withPort a port _ fun p => kept fun A => keeps_takeConfigurePort p a x s
  | resetPort port => exact keepsLaws_withPort a port _ fun p => keepsLaws_takeResetPort p a s
  | clearAlerts ports cellFlags portFlags => exact kept fun A => keeps_takeClearAlerts a ports cellFlags portFlags s
  | setGather group count time => exact kept fun A => keeps_takeSetGather a group count time s
  | headAccess port x => exact keepsLaws_withPort a port _ fun p => kept fun A => keeps_takeHeadAccess p a x s
  | setSource x => exact kept fun A => keeps_takeSetSource a x s
  | setPattern port length bits =>
    exact keepsLaws_withPort a port _ fun p => kept fun A => keeps_takeSetPattern p a length bits s
  | softTrigger source => exact keepsLaws_of_keeps fun A hs => keeps_takeSoftTrigger a source s hs
  | setAxisPosition axis value => exact kept fun A => keeps_takeSetAxisPosition a axis value s
  | setLensTable port x => exact keepsLaws_withPort a port _ fun p => kept fun A => keeps_takeSetLensTable p a x s
  | formSet set members => exact kept fun A => keeps_takeFormSet a set members s
  | dissolveSet set => exact kept fun A => keeps_takeDissolveSet a set s
  | cableSweep port averages => exact keepsLaws_withPort a port _ fun p => kept fun A => keeps_takeCableSweep p a averages s
  | setFlexAxis port axis threshold low high =>
    exact keepsLaws_withPort a port _ fun p => kept fun A => keeps_takeSetFlexAxis p a axis threshold low high s
  | readFlexMap port => exact keepsLaws_withPort a port _ fun p => keepsLaws_completeCommand ..
  | clearFlexMap port =>
    exact keepsLaws_withPort a port _ fun p => kept fun A => (keeps_modFlex p _ s).trans (keeps_completeCommand ..)
  | releaseSnapshot port => exact keepsLaws_withPort a port _ fun p => kept fun A => keeps_takeReleaseSnapshot p a s

theorem keepsLaws_flushMirrors (s : State) : KeepsLaws s (flushMirrors s) := keepsLaws_of_keeps fun _ _ => keeps_flushMirrors s

theorem keepsLaws_takeCommand (a : Addr) (s : State) : KeepsLaws s (takeCommand a s) :=
  keepsLaws_of_keeps fun _ _ => (keeps_takeRecord _ a s).trans (keeps_writeRecordState _ _ _)

theorem keepsLaws_runCommand (a : Addr) (c : Command) (s : State) : KeepsLaws s (runCommand a c s) :=
  ((keepsLaws_takeCommand a s).trans (keepsLaws_ownCommand a c _)).trans (keepsLaws_flushMirrors _)

theorem keepsLaws_startRecord (a : Addr) (s : State) : KeepsLaws s (startRecord a s) := by
  have h := keepsLaws_takeCommand a s
  unfold startRecord
  refine keepsLaws_ite _ (fun _ => (h.trans (keepsLaws_completeCommand ..)).trans (keepsLaws_flushMirrors _)) fun _ => ?_
  split
  · exact (h.trans (keepsLaws_completeCommand ..)).trans (keepsLaws_flushMirrors _)
  · exact (h.trans (keepsLaws_ownCommand ..)).trans (keepsLaws_flushMirrors _)

theorem keepsLaws_modChain (f : ChainEngine → ChainEngine) (s : State) : KeepsLaws s (modChain f s) :=
  keepsLaws_of_keeps fun _ _ => keeps_modChain f s

theorem keepsLaws_walkSteps (n : Nat) (s : State) : KeepsLaws s (walkSteps n s) := by
  induction n generalizing s with
  | zero => exact .refl s
  | succ n ih =>
    unfold walkSteps
    refine keepsLaws_ite _ (fun _ => ?_) fun _ => .refl s
    split
    · exact (keepsLaws_startRecord _ s).trans (ih _)
    · exact keepsLaws_ite _ (fun _ => (keepsLaws_modChain _ s).trans (ih _)) fun _ => keepsLaws_modChain _ s

theorem keepsLaws_continueWalk (s : State) : KeepsLaws s (continueWalk s) := keepsLaws_walkSteps _ s

theorem keepsLaws_beginWalk (s : State) : KeepsLaws s (beginWalk s) :=
  (keepsLaws_modChain _ s).trans (keepsLaws_continueWalk _)

/-! ## Start, stop and hard reset -/

theorem keepsLaws_excludePort (s : State) : KeepsLaws s (excludePort p s) := by
  have h : KeepsLaws s (allSources.foldl (fun t k => modSource k
      (fun x => { x with mask := x.mask &&& ~~~BitVec.twoPow 8 p.val }) t) s) :=
    keepsLaws_of_keeps fun A _ => keeps_foldl' _ (fun t k => keeps_modSource k _ t) s
  exact keepsLaws_ite _ (fun _ => h.trans (keepsLaws_hostOff p _)) fun _ => h

theorem keepsLaws_applyPortCount (n : Nat) (s : State) : KeepsLaws s (applyPortCount n s) := by
  refine KeepsLaws.trans ?_ (.foldl _ (fun s p => keepsLaws_excludePort p s) _)
  exact keepsLaws_of_keeps fun A _ => keeps_foldl' _ (fun t k => keeps_ite _ (keeps_dissolve k t) (.refl A t)) s

theorem keepsLaws_writeCellMirror (s : State) : KeepsLaws s (writeCellMirror s) :=
  keepsLaws_of_keeps fun _ _ => keeps_writeCellMirror s

theorem keepsLaws_clearProgress (s : State) : KeepsLaws s (clearProgress s) := by
  unfold clearProgress
  exact keepsLaws_of_keeps fun _ _ => (keeps_modChain _ s).trans (keeps_dmaWrite _ _ _)

theorem keepsLaws_startRun (n : Nat) (s : State) : KeepsLaws s (startRun n s) := by
  unfold startRun
  dsimp only
  have mirrors : ∀ s, KeepsLaws s (forPorts allPorts writePortMirror s) := fun s =>
    keepsLaws_of_keeps fun A _ => keeps_forPorts' allPorts (fun s p => keeps_writePortMirror p s) s
  have begins : ∀ f s, KeepsLaws s (writeCellMirror (modChain f s)) := fun f s =>
    (keepsLaws_modChain f s).trans (keepsLaws_writeCellMirror _)
  refine KeepsLaws.trans ?_ (keepsLaws_beginWalk _)
  refine KeepsLaws.trans ?_ (begins _ _)
  refine KeepsLaws.trans ?_ (mirrors _)
  refine KeepsLaws.trans ?_ (keepsLaws_writeCellMirror _)
  refine KeepsLaws.trans ?_ (keepsLaws_clearProgress _)
  exact (keepsLaws_modChain _ s).trans (keepsLaws_applyPortCount n _)

theorem keepsLaws_startCell (s : State) : KeepsLaws s (startCell s) := by
  unfold startCell
  split
  · exact keepsLaws_of_keeps fun _ _ => (keeps_modChain _ s).trans (keeps_setCause _ _)
  · exact keepsLaws_startRun _ s

theorem keeps_closeEntries {A : PortId → Prop} (c : Code) (xs : List (PortId × U32)) (s : State) :
    Keeps A s (closeEntries c xs s) := keeps_foldl' xs (fun t x => keeps_closeEntry x.1 x.2 c 0 t) s

theorem keepsLaws_stopCell (s : State) : KeepsLaws s (stopCell s) := by
  have entries : ∀ s, KeepsLaws s (stopEntries s) := fun s => keepsLaws_of_keeps fun A _ =>
    (keeps_forPorts' _ (fun s p => keeps_settleTargets p .cut s) s).trans (keeps_closeEntries _ _ _)
  have ports : ∀ s, KeepsLaws s (forPorts allPorts stopPort s) := fun s => keepsLaws_of_keeps fun A _ =>
    keeps_forPorts' _ (fun s p => (closes_afterCloses p s).keeps.trans (keeps_stopChannel p _)) s
  have power : ∀ s, KeepsLaws s (stopPower s) := fun s => (Frees.foldl _ (fun s p => frees_stopPortPower p s) s).keepsLaws
  have sweeps : ∀ s, KeepsLaws s (stopSweeps s) := fun s =>
    (keepsLaws_of_keeps fun A _ => (keeps_modSweeps _ s).trans (keeps_foldl' _ (fun t e => keeps_abandonSweep e t) _)).trans
      (Frees.foldl _ (fun t e => frees_sweepEnded _ t) _).keepsLaws
  unfold stopCell
  exact ((((keepsLaws_modChain _ s).trans (keepsLaws_writeCellMirror _)).trans (entries _)).trans (ports _)).trans
    ((power _).trans (sweeps _))

theorem keepsLaws_enterStopped (s : State) : KeepsLaws s (enterStopped s) := by
  have h : KeepsLaws s (writeCellMirror (modChain (fun c => { c with cell := .stopped }) s)) :=
    (keepsLaws_modChain _ s).trans (keepsLaws_writeCellMirror _)
  exact keepsLaws_ite _ (fun _ => keepsLaws_ite _ (fun _ => h.trans (keepsLaws_startCell _)) fun _ => h) fun _ => .refl s

theorem keepsLaws_writeControl (v : U32) (s : State) : KeepsLaws s (writeControl v s) := by
  unfold writeControl
  dsimp only
  refine keepsLaws_ite _ (fun _ => .refl s) fun _ =>
    (keepsLaws_modChain (fun c => { c with run := v.getLsbD 0 }) s).trans ?_
  split
  · exact keepsLaws_startCell _
  · exact keepsLaws_startCell _
  · exact keepsLaws_stopCell _
  · exact .refl _

theorem keepsLaws_writeBlockHalf (high : Bool) (v : U32) (s : State) : KeepsLaws s (writeBlockHalf high v s) := by
  unfold writeBlockHalf
  split
  · exact keepsLaws_modChain _ s
  · exact keepsLaws_modChain _ s
  · exact .refl s

theorem keepsLaws_writeTap (s : State) : KeepsLaws s (writeTap s) :=
  keepsLaws_ite _ (fun _ => keepsLaws_ite _ (fun _ => keepsLaws_modChain _ s) fun _ => keepsLaws_beginWalk s) fun _ => .refl s

theorem keepsLaws_writeEnable (v : U32) (s : State) : KeepsLaws s (writeEnable v s) := by
  have message : ∀ old g s, KeepsLaws s (enableMessage old g s) := fun old g s =>
    keepsLaws_of_keeps fun A _ => keeps_ite _ (keeps_sendMessage g s) (.refl A s)
  unfold writeEnable
  exact (((keepsLaws_modChain _ s).trans (message _ _ _)).trans (message _ _ _)).trans (message _ _ _)

theorem keepsLaws_accessRegister (x : RegAccess) (s : State) : KeepsLaws s (accessRegister x s) := by
  unfold accessRegister
  refine keepsLaws_ite _ (fun _ => .refl s) fun _ => ?_
  dsimp only
  split
  · exact keepsLaws_writeControl _ s
  · exact keepsLaws_writeBlockHalf _ _ s
  · exact keepsLaws_writeBlockHalf _ _ s
  · exact keepsLaws_writeTap s
  · exact keepsLaws_modChain _ s
  · exact keepsLaws_writeEnable _ s
  · exact .refl s

theorem keepsLaws_hostPost (ws : List HostWrite) (s : State) : KeepsLaws s (hostPost ws s) :=
  keepsLaws_of_keeps fun _ _ => .of_ports rfl fun _ => rfl

theorem keepsLaws_gatherExpires (g : GatherGroup) (s : State) : KeepsLaws s (gatherExpires g s) :=
  keepsLaws_of_keeps fun A _ =>
    keeps_ite _ (keeps_ite _ ((keeps_modChain _ s).trans (keeps_setCause _ _)) (keeps_modChain _ s)) (.refl A s)

/-- A card whose ports are all as at hard reset obeys the laws. -/
theorem laws_of_reset {s : State} (hports : ∀ q, s.port q = {}) (hgrants : s.power.grants = []) (hqueue : s.power.queue = [])
    (hreserved : s.power.reserved = 0) (hbudget : s.power.budget = 480) : PowerLaw s ∧ LinkLaw s := by
  have off : ∀ q, powerOf q s = .off := fun q => by rw [powerOf_eq, hports]
  refine ⟨⟨?_, fun q => ?_, ?_, ?_, ?_, ?_, fun q => ?_, fun q _ h => ?_⟩, (linkLaw_iff s).mpr fun q => ?_⟩
  · rw [hgrants]; exact List.nodup_nil
  · simp [hgrants, off, isPowered]
  · rw [hgrants, hreserved]; rfl
  · rw [hreserved]; exact Nat.zero_le _
  · rw [hbudget]; decide
  · rw [hqueue]; exact List.nodup_nil
  · simp [hqueue, off]
  · rw [off] at h; cases h
  · rw [hports]; exact ⟨fun _ _ => ⟨rfl, rfl⟩, fun _ => ⟨rfl, rfl, rfl⟩⟩

theorem keepsLaws_hardReset (x : ResetInputs) (s : State) : KeepsLaws s (hardReset x s) := by
  have laws : PowerLaw (hardReset x s) ∧ LinkLaw (hardReset x s) := by
    have h := laws_of_reset (s := { pending := s.pending, mem := s.mem, bus := s.bus, cable := s.cable
                                    power := { supplyMv := x.supplyMv, supplyLow := decide (x.supplyMv.toNat < supplyLowMv) }
                                    trig := { axisA := { ch1 := x.a1, ch2 := x.a2 }, axisB := { ch1 := x.b1, ch2 := x.b2 }
                                              in0 := resetDebouncer x.in0, in1 := resetDebouncer x.in1 } })
      (fun q => by simp [State.port]) rfl rfl rfl rfl
    unfold hardReset
    split
    · have k : ∀ t, KeepsLaws t (setCellAlert cellAlertSupplyLow t) := fun t =>
        keepsLaws_of_keeps fun _ _ => keeps_setCellAlert _ t
      exact ⟨(k _).budget h.1, (k _).links h.1 h.2⟩
    · exact h
  exact ⟨fun _ => laws.1, fun _ _ => laws.2⟩

/-! ## Every command and every step -/

theorem keeps_lineFalls {A : PortId → Prop} (i : Input) (s : State) : Keeps A s (lineFalls i s) := by
  unfold lineFalls modDebouncer
  exact keeps_modTrig _ s

theorem keepsLaws_endCommand {s t u : State} (h : endCommand u = .next t) (hu : KeepsLaws s u) : KeepsLaws s t := by
  injection h with h
  exact h ▸ hu.trans (keepsLaws_flushMirrors u)

theorem keepsLaws_endCommand_of_keeps {s t u : State} (h : endCommand u = .next t) (hu : ∀ A, OnlyAwake A s → Keeps A s u) :
    KeepsLaws s t := keepsLaws_endCommand h (keepsLaws_of_keeps hu)

theorem keepsLaws_execRecord {a : Addr} {c : Command} {s t : State} (h : execRecord a c s = .next t) : KeepsLaws s t := by
  cases h
  exact keepsLaws_ite _ (fun _ => keepsLaws_runCommand a c s) fun _ => .refl s

/-- Every command keeps the laws. -/
theorem keepsLaws_exec (c : Instr) {s t : State} (h : exec c s = .next t) : KeepsLaws s t := by
  cases c with
  | cellStart value posted =>
    exact keepsLaws_endCommand h ((keepsLaws_hostPost posted s).trans (keepsLaws_writeControl value _))
  | cellStop value => exact keepsLaws_endCommand h (keepsLaws_writeControl value s)
  | cellStopped => exact keepsLaws_endCommand h (keepsLaws_enterStopped s)
  | blockAddressWrite high value => exact keepsLaws_endCommand h (keepsLaws_writeBlockHalf high value s)
  | tap value posted => exact keepsLaws_endCommand h ((keepsLaws_hostPost posted s).trans (keepsLaws_writeTap _))
  | causeClear value => exact keepsLaws_endCommand h (keepsLaws_modChain _ s)
  | causeEnableWrite value => exact keepsLaws_endCommand h (keepsLaws_writeEnable value s)
  | registerWriteIgnored access => exact keepsLaws_endCommand h (keepsLaws_accessRegister access s)
  | hardReset inputs => exact keepsLaws_endCommand h (keepsLaws_hardReset inputs s)
  | detectComplete p ohms => exact keepsLaws_endCommand h (keepsLaws_detectDone p ohms s)
  | inrushComplete p => exact keepsLaws_endCommand h (keepsLaws_inrushDone p s)
  | inrushTimeout p => exact keepsLaws_endCommand h (keepsLaws_inrushExpired p s)
  | foldbackEntry p ma => exact keepsLaws_endCommand h (keepsLaws_currentSampled p ma s)
  | foldbackReturn p ma => exact keepsLaws_endCommand h (keepsLaws_currentSampled p ma s)
  | foldbackTimeout p => exact keepsLaws_endCommand h (keepsLaws_foldbackExpired p s)
  | shortThreshold p ma => exact keepsLaws_endCommand h (keepsLaws_currentSampled p ma s)
  | cooldownExpiry p => exact keepsLaws_endCommand h (keepsLaws_cooldownExpired p s)
  | supplyLow mv => exact keepsLaws_endCommand h (keepsLaws_supplySampled mv s)
  | supplyRestored mv => exact keepsLaws_endCommand h (keepsLaws_supplySampled mv s)
  | huntExactMark p mark => exact keepsLaws_endCommand h (keepsLaws_markInHunt p mark s)
  | confirmMark p mark => exact keepsLaws_endCommand h (keepsLaws_markInConfirm p mark s)
  | lockedMark p mark => exact keepsLaws_endCommand h (keepsLaws_markInLocked p mark s)
  | recoveryWindowClose p => exact keepsLaws_endCommand h (keepsLaws_windowCloses p s)
  | carrierLoss p => exact keepsLaws_endCommand h (keepsLaws_carrierLost p s)
  | carrierReturn p => exact keepsLaws_endCommand h (keepsLaws_carrierBack p s)
  | confirmBurstEnd p burst => exact keepsLaws_endCommand_of_keeps h fun _ _ => keeps_endBurst p burst s
  | frameOpen p burst => exact keepsLaws_endCommand_of_keeps h fun _ _ => keeps_endBurst p burst s
  | line p burst => exact keepsLaws_endCommand_of_keeps h fun _ _ => keeps_endBurst p burst s
  | frameClose p burst => exact keepsLaws_endCommand_of_keeps h fun _ _ => keeps_endBurst p burst s
  | fillBurst p burst => exact keepsLaws_endCommand_of_keeps h fun _ _ => keeps_endBurst p burst s
  | damagedBurst p burst => exact keepsLaws_endCommand_of_keeps h fun _ _ => keeps_endBurst p burst s
  | frameTimeout p trigger => exact keepsLaws_endCommand_of_keeps h fun _ _ => keeps_frameExpired p trigger s
  | unitAnswer p ack => exact keepsLaws_endCommand_of_keeps h fun _ => keeps_answered p ack s
  | holdSign p => exact keepsLaws_endCommand_of_keeps h fun _ => keeps_holdSigned p s
  | holdAnswer p ack => exact keepsLaws_endCommand_of_keeps h fun _ => keeps_holdAnswered p ack s
  | readDataWord p word => exact keepsLaws_endCommand_of_keeps h fun _ => keeps_dataWord p word s
  | replyTimeout p => exact keepsLaws_endCommand_of_keeps h fun _ => keeps_replyExpired p s
  | holdLimit p => exact keepsLaws_endCommand_of_keeps h fun _ => keeps_holdExpired p s
  | noteStart p collides => exact keepsLaws_endCommand_of_keeps h fun _ => keeps_noteBegins p collides s
  | overtempNote p => exact keepsLaws_endCommand_of_keeps h fun _ => keeps_overtempTaken p s
  | lensFaultNote p unit => exact keepsLaws_endCommand_of_keeps h fun _ => keeps_lensFaultTaken p unit s
  | headRestartedNote p => exact keepsLaws_endCommand_of_keeps h fun _ => keeps_headRestartTaken p s
  | noteDiscarded p => exact keepsLaws_endCommand_of_keeps h fun _ => keeps_noteDropped p s
  | noteTimeout p => exact keepsLaws_endCommand_of_keeps h fun _ => keeps_noteExpired p s
  | pingRetryTimeout p => exact keepsLaws_endCommand_of_keeps h fun _ _ => keeps_retryExpired p s
  | axisCount axis ch1 ch2 => exact keepsLaws_endCommand_of_keeps h fun _ => keeps_sampleAxis axis ch1 ch2 s
  | inputRise input => exact keepsLaws_endCommand_of_keeps h fun _ => keeps_lineRises input s
  | inputFall input => exact keepsLaws_endCommand_of_keeps h fun _ _ => keeps_lineFalls input s
  | debounceExpiry input => exact keepsLaws_endCommand_of_keeps h fun _ => keeps_debounceExpires input s
  | lensDeadline p => exact keepsLaws_endCommand_of_keeps h fun _ => keeps_deadlineExpired p s
  | sweepComplete samples => exact keepsLaws_endCommand h (keepsLaws_sweepDone samples s)
  | gatherTimeout group => exact keepsLaws_endCommand h (keepsLaws_gatherExpires group s)
  | runChangeInStoppingOrFault value => exact keepsLaws_endCommand h (keepsLaws_writeControl value s)
  | _ => exact keepsLaws_execRecord h

/-- Every step keeps the laws. -/
theorem keepsLaws_step {s t : State} (h : step s = .next t) : KeepsLaws s t := by
  unfold step at h
  split at h
  · cases h
    unfold idleStep
    refine keepsLaws_ite _ (fun _ => (keepsLaws_continueWalk s).trans (keepsLaws_flushMirrors _)) fun _ => keepsLaws_ite _
      (fun _ => (keepsLaws_enterStopped s).trans (keepsLaws_flushMirrors _)) fun _ => ?_
    exact keepsLaws_of_keeps fun _ _ => keeps_modTrig _ s
  · rename_i c rest _
    refine KeepsLaws.trans (t := { s with pending := rest }) ?_ (keepsLaws_exec c h)
    exact keepsLaws_of_keeps fun _ _ => .of_ports rfl fun _ => rfl

/-- Settles O5: the laws of the budget and of the links are kept by every step. -/
theorem stepKeepsPowerLaw : Obligations.StepKeepsPowerLaw :=
  ⟨fun _ _ hs h => (keepsLaws_step h).budget hs, fun _ _ hs hl h => (keepsLaws_step h).links hs hl⟩

end Sys2Proof.Machine
end

section
/-! PROOFS. How a command ends: what two states share when they differ in the mirrors' bookkeeping alone, what a completion puts on the
bus, and how a state on the way to the mirror writes becomes one that `Ends` describes. -/

namespace Sys2Proof.Machine

/-! ## The same device but for the mirrors -/

/-- The Chain Engine without the bookkeeping of the cell mirror. -/
def chainView (c : ChainEngine) : ChainEngine := { c with mirrorCount := 0, mirrorDue := false }

/-- Two states hold the same card but for the bookkeeping of the mirrors: what `deviceView` compares, part by part. -/
structure SameDevice (v u : State) : Prop where
  pending : v.pending = u.pending
  cable : v.cable = u.cable
  chain : chainView v.chain = chainView u.chain
  power : v.power = u.power
  trig : v.trig = u.trig
  sets : v.sets = u.sets
  sweeps : v.sweeps = u.sweeps
  ports : ∀ q, portView (v.port q) = portView (u.port q)

theorem deviceView_port (s : State) (q : PortId) : (deviceView s).port q = portView (s.port q) := by
  simp [State.port, deviceView]

theorem sameDevice_iff (v u : State) : SameDevice v u ↔ deviceView v = deviceView u := by
  constructor
  · intro h
    have hports : v.ports.map portView = u.ports.map portView := by
      ext1 i hi
      rw [Vector.getElem_map, Vector.getElem_map]
      exact h.ports ⟨i, hi⟩
    have hchain : ({ v.chain with mirrorCount := 0, mirrorDue := false } : ChainEngine) =
      { u.chain with mirrorCount := 0, mirrorDue := false } := h.chain
    unfold deviceView
    rw [h.pending, h.cable, hchain, h.power, h.trig, h.sets, h.sweeps, hports]
  · intro h
    exact ⟨(congrArg State.pending h :), (congrArg State.cable h :), (congrArg State.chain h :), (congrArg State.power h :),
      (congrArg State.trig h :), (congrArg State.sets h :), (congrArg State.sweeps h :),
      fun q => by rw [← deviceView_port, ← deviceView_port, h]⟩

section
variable {s t u v w : State} {p q : PortId}

namespace SameDevice

theorem refl (s : State) : SameDevice s s := (sameDevice_iff s s).mpr rfl

theorem trans (h : SameDevice v u) (g : SameDevice u w) : SameDevice v w :=
  (sameDevice_iff v w).mpr (((sameDevice_iff v u).mp h).trans ((sameDevice_iff u w).mp g))

theorem symm (h : SameDevice v u) : SameDevice u v := (sameDevice_iff u v).mpr ((sameDevice_iff v u).mp h).symm

theorem portPower (h : SameDevice v u) (q : PortId) : (v.port q).power = (u.port q).power := (congrArg Port.power (h.ports q) :)
theorem portLink (h : SameDevice v u) (q : PortId) : (v.port q).link = (u.port q).link := (congrArg Port.link (h.ports q) :)
theorem portCtl (h : SameDevice v u) (q : PortId) : (v.port q).ctl = (u.port q).ctl := (congrArg Port.ctl (h.ports q) :)
theorem portLens (h : SameDevice v u) (q : PortId) : (v.port q).lens = (u.port q).lens := (congrArg Port.lens (h.ports q) :)
theorem portFrame (h : SameDevice v u) (q : PortId) : (v.port q).frame = (u.port q).frame := (congrArg Port.frame (h.ports q) :)
theorem portSweep (h : SameDevice v u) (q : PortId) : (v.port q).sweep = (u.port q).sweep := (congrArg Port.sweep (h.ports q) :)
theorem portFlex (h : SameDevice v u) (q : PortId) : (v.port q).flex = (u.port q).flex := (congrArg Port.flex (h.ports q) :)
theorem portAlerts (h : SameDevice v u) (q : PortId) : (v.port q).alerts = (u.port q).alerts := (congrArg Port.alerts (h.ports q) :)
theorem powerState (h : SameDevice v u) (q : PortId) : powerOf q v = powerOf q u := (congrArg PortPower.state (h.portPower q) :)
theorem block (h : SameDevice v u) : v.chain.block = u.chain.block := (congrArg ChainEngine.block h.chain :)
theorem cell (h : SameDevice v u) : v.chain.cell = u.chain.cell := (congrArg ChainEngine.cell h.chain :)
theorem cause (h : SameDevice v u) : v.chain.cause = u.chain.cause := (congrArg ChainEngine.cause h.chain :)
theorem enable (h : SameDevice v u) : v.chain.enable = u.chain.enable := (congrArg ChainEngine.enable h.chain :)
theorem cellAlerts (h : SameDevice v u) : v.chain.cellAlerts = u.chain.cellAlerts := (congrArg ChainEngine.cellAlerts h.chain :)
theorem progress (h : SameDevice v u) : v.chain.progress = u.chain.progress := (congrArg ChainEngine.progress h.chain :)
theorem commands (h : SameDevice v u) : v.chain.commands = u.chain.commands := (congrArg ChainEngine.commands h.chain :)
theorem running (h : SameDevice v u) : v.running = u.running := (congrArg (fun c => decide (c = CellState.running)) h.cell :)

end SameDevice

theorem modPort_portView (f : Port → Port) (s : State) (q : PortId) :
    portView ((modPort p f s).port q) = if q = p then portView (f (s.port p)) else portView (s.port q) := by
  rw [modPort_port]
  split <;> rfl

/-- A change of one port, made at both. -/
theorem SameDevice.modPort (h : SameDevice v u) {f g : Port → Port} (hf : portView (f (v.port p)) = portView (g (u.port p))) :
    SameDevice (modPort p f v) (modPort p g u) where
  pending := h.pending
  cable := h.cable
  chain := h.chain
  power := h.power
  trig := h.trig
  sets := h.sets
  sweeps := h.sweeps
  ports q := by
    rw [modPort_portView, modPort_portView, hf, h.ports q]

theorem portView_power {x y : Port} (h : portView x = portView y) {w z : PortPower} (hw : w = z) :
    portView { x with power := w } = portView { y with power := z } :=
  hw ▸ (congrArg (fun q : Port => ({ q with power := w } : Port)) h :)

theorem portView_link {x y : Port} (h : portView x = portView y) {w z : LinkRx} (hw : w = z) :
    portView { x with link := w } = portView { y with link := z } :=
  hw ▸ (congrArg (fun q : Port => ({ q with link := w } : Port)) h :)

theorem portView_ctl {x y : Port} (h : portView x = portView y) {w z : Channel} (hw : w = z) :
    portView { x with ctl := w } = portView { y with ctl := z } :=
  hw ▸ (congrArg (fun q : Port => ({ q with ctl := w } : Port)) h :)

theorem portView_lens {x y : Port} (h : portView x = portView y) {w z : LensState} (hw : w = z) :
    portView { x with lens := w } = portView { y with lens := z } :=
  hw ▸ (congrArg (fun q : Port => ({ q with lens := w } : Port)) h :)

theorem portView_sweep {x y : Port} (h : portView x = portView y) {w z : PortSweep} (hw : w = z) :
    portView { x with sweep := w } = portView { y with sweep := z } :=
  hw ▸ (congrArg (fun q : Port => ({ q with sweep := w } : Port)) h :)

theorem portView_alerts {x y : Port} (h : portView x = portView y) {w z : BitVec 11} (hw : w = z) :
    portView { x with alerts := w } = portView { y with alerts := z } :=
  hw ▸ (congrArg (fun q : Port => ({ q with alerts := w } : Port)) h :)

theorem SameDevice.modPower (h : SameDevice v u) {f g : PortPower → PortPower} (hf : f (u.port p).power = g (u.port p).power) :
    SameDevice (modPower p f v) (modPower p g u) :=
  h.modPort (portView_power (h.ports p) ((congrArg f (h.portPower p)).trans hf))

theorem SameDevice.modLink (h : SameDevice v u) {f g : LinkRx → LinkRx} (hf : f (u.port p).link = g (u.port p).link) :
    SameDevice (modLink p f v) (modLink p g u) :=
  h.modPort (portView_link (h.ports p) ((congrArg f (h.portLink p)).trans hf))

theorem SameDevice.modCtl (h : SameDevice v u) {f g : Channel → Channel} (hf : f (u.port p).ctl = g (u.port p).ctl) :
    SameDevice (modCtl p f v) (modCtl p g u) :=
  h.modPort (portView_ctl (h.ports p) ((congrArg f (h.portCtl p)).trans hf))

theorem SameDevice.modLens (h : SameDevice v u) {f g : LensState → LensState} (hf : f (u.port p).lens = g (u.port p).lens) :
    SameDevice (modLens p f v) (modLens p g u) :=
  h.modPort (portView_lens (h.ports p) ((congrArg f (h.portLens p)).trans hf))

theorem SameDevice.modSweep (h : SameDevice v u) {f g : PortSweep → PortSweep} (hf : f (u.port p).sweep = g (u.port p).sweep) :
    SameDevice (modSweep p f v) (modSweep p g u) :=
  h.modPort (portView_sweep (h.ports p) ((congrArg f (h.portSweep p)).trans hf))

/-- A change of the Chain Engine, made at both. -/
theorem SameDevice.withChain (h : SameDevice v u) {c d : ChainEngine} (hc : chainView c = chainView d) :
    SameDevice { v with chain := c } { u with chain := d } :=
  ⟨h.pending, h.cable, hc, h.power, h.trig, h.sets, h.sweeps, h.ports⟩

/-- A change of the cell's power state, made at both. -/
theorem SameDevice.withPower (h : SameDevice v u) {x y : PowerCell} (hx : x = y) :
    SameDevice { v with power := x } { u with power := y } :=
  ⟨h.pending, h.cable, h.chain, hx, h.trig, h.sets, h.sweeps, h.ports⟩

theorem SameDevice.withSweeps (h : SameDevice v u) {x y : SweepUnit} (hx : x = y) :
    SameDevice { v with sweeps := x } { u with sweeps := y } :=
  ⟨h.pending, h.cable, h.chain, h.power, h.trig, h.sets, hx, h.ports⟩

theorem SameDevice.modPowerCell (h : SameDevice v u) {f : PowerCell → PowerCell} {y : PowerCell} (hf : f u.power = y) :
    SameDevice (modPowerCell f v) { u with power := y } :=
  ⟨h.pending, h.cable, h.chain, (congrArg f h.power).trans hf, h.trig, h.sets, h.sweeps, h.ports⟩

/-- A change of host memory and the bus log is none of the device. -/
theorem SameDevice.withBus (h : SameDevice v u) (m : List Host.Cell) (b : List BusEvent) :
    SameDevice { v with mem := m, bus := b } u :=
  ⟨h.pending, h.cable, h.chain, h.power, h.trig, h.sets, h.sweeps, h.ports⟩

end

/-! ## What a completion leaves in the Chain Engine and on the bus -/

/-- What a group's cause adds to the bus: its message, if the cause is new and enabled. -/
theorem setCause_bus (g : Group) (s : State) : (setCause g s).bus =
    (if s.chain.cause.getLsbD (groupBit g) = false ∧ s.chain.enable.getLsbD (groupBit g) = true then [.message g] else [])
      ++ s.bus := by
  unfold setCause sendMessage modChain
  cases hc : s.chain.cause.getLsbD (groupBit g) <;> cases he : s.chain.enable.getLsbD (groupBit g) <;> simp

theorem or_twoPow_of_getLsbD {x : BitVec 3} {i : Nat} (h : x.getLsbD i = true) : x ||| BitVec.twoPow 3 i = x := by
  ext j hj
  rw [BitVec.getElem_or, BitVec.getElem_twoPow]
  by_cases e : j = i
  · subst e
    rw [BitVec.getLsbD_eq_getElem hj] at h
    simp [h]
  · simp [e]

theorem setCause_chain (g : Group) (s : State) :
    (setCause g s).chain = { s.chain with cause := s.chain.cause ||| BitVec.twoPow 3 (groupBit g) } := by
  unfold setCause
  split
  · rename_i h
    rw [or_twoPow_of_getLsbD h]
  · dsimp only
    split <;> rfl

/-- The gather group's part of a completion (R187). -/
theorem countToward_chain (g : GatherGroup) (s : State) : (countToward g s).chain =
    let x := gatherOf g s.chain
    let fills := decide (x.pending + 1 = x.count)
    setGatherOf g
      { x with
        pending := if fills then 0 else x.pending + 1
        timer := if fills then none else if x.pending = 0 then some x.timeMs else x.timer }
      { s.chain with cause := if fills then s.chain.cause ||| BitVec.twoPow 3 (groupBit (gatherGroup g)) else s.chain.cause } := by
  unfold countToward
  dsimp only
  by_cases full : (gatherOf g s.chain).pending + 1 = (gatherOf g s.chain).count
  · rw [if_pos full, setCause_chain, decide_eq_true full]
    cases g <;> rfl
  · rw [if_neg full, decide_eq_false full]
    by_cases first : (gatherOf g s.chain).pending = 0
    · rw [if_pos (by rw [first]), if_pos first]
      cases g <;> rfl
    · rw [if_neg (by omega), if_neg first]
      cases g <;> rfl

theorem countToward_bus (g : GatherGroup) (s : State) : (countToward g s).bus =
    let x := gatherOf g s.chain
    let bit := groupBit (gatherGroup g)
    (if x.pending + 1 = x.count ∧ s.chain.cause.getLsbD bit = false ∧ s.chain.enable.getLsbD bit = true
      then [.message (gatherGroup g)] else []) ++ s.bus := by
  unfold countToward
  dsimp only
  by_cases full : (gatherOf g s.chain).pending + 1 = (gatherOf g s.chain).count
  · rw [if_pos full, setCause_bus]
    simp only [full, true_and]
    cases g <;> rfl
  · simp only [full, false_and, if_false, List.nil_append]
    split <;> rfl

theorem completeRecord_chain (ch : ChainId) (a : Addr) (ok : Bool) (s : State) :
    (completeRecord ch a ok s).chain = afterCompletionOf (chainIndex ch) (chainGroup ch) a s.chain := by
  unfold completeRecord finishCount
  rw [countToward_chain]
  cases ch <;> rfl

theorem completeRecord_bus (ch : ChainId) (a : Addr) (ok : Bool) (s : State) :
    (completeRecord ch a ok s).bus = completionTail s s.chain (chainIndex ch) (chainGroup ch) a ok ++ s.bus := by
  unfold completeRecord finishCount completionTail
  rw [countToward_bus]
  cases ch <;> cases ok <;> simp [advanceProgress, finishState, writeRecordState, dmaWrite, modChain] <;> rfl

/-! ## Lengths of fields -/

@[simp] theorem leBytes_length (k n : Nat) : (leBytes k n).length = k := by
  induction k generalizing n with
  | zero => rfl
  | succ k ih => rw [leBytes, List.length_cons, ih]

@[simp] theorem u8_length (n : Nat) : (u8 n).length = 1 := leBytes_length 1 n
@[simp] theorem u16_length (n : U16) : (u16 n).length = 2 := leBytes_length 2 _
@[simp] theorem u32_length (n : U32) : (u32 n).length = 4 := leBytes_length 4 _
@[simp] theorem u64_length (n : U64) : (u64 n).length = 8 := leBytes_length 8 _
@[simp] theorem flag_length (b : Bool) : (flag b).length = 1 := u8_length _
@[simp] theorem zeros_length (n : Nat) : (zeros n).length = n := List.length_replicate
@[simp] theorem orFF_length {n : Nat} (x : Option (Fin n)) : (orFF x).length = 1 := by cases x <;> exact u8_length _
@[simp] theorem codeOrFFFF_length (x : Option Nat) : (codeOrFFFF x).length = 2 := by cases x <;> exact leBytes_length 2 _

theorem flatten_length_of_forall {n : Nat} (l : List (List Byte)) (h : ∀ x ∈ l, x.length = n) : l.flatten.length = n * l.length := by
  induction l with
  | nil => simp
  | cons x l ih =>
    rw [List.flatten_cons, List.length_append, h x (by simp), ih fun y hy => h y (by simp [hy]), List.length_cons, Nat.mul_succ,
      Nat.add_comm]

@[simp] theorem identityBytes_length (i : Option Identity) : (identityBytes i).length = 11 := by
  cases i <;> simp [identityBytes]

@[simp] theorem setMirrorBytes_length (s : State) (p : PortId) : (setMirrorBytes s p).length = 12 := by
  unfold setMirrorBytes
  split
  · simp
  · dsimp only
    split <;> simp

theorem portMirrorBytes_length (s : State) (p : PortId) (n : U32) : (portMirrorBytes s p n).length = 0xC0 := by
  have known : ((s.port p).lens.known.toList.map codeOrFFFF).flatten.length = 8 := by
    have each : ∀ x ∈ (s.port p).lens.known.toList.map codeOrFFFF, x.length = 2 := by
      intro x hx
      obtain ⟨c, -, rfl⟩ := List.mem_map.mp hx
      exact codeOrFFFF_length c
    rw [flatten_length_of_forall _ each, List.length_map, Vector.length_toList]
  unfold portMirrorBytes
  simp only [List.length_append, known, u8_length, u16_length, u32_length, u64_length, flag_length, zeros_length,
    identityBytes_length, setMirrorBytes_length, orFF_length]

theorem cellMirrorBytes_length (s : State) (n : U32) : (cellMirrorBytes s n).length = 0x40 := by
  simp [cellMirrorBytes]

/-! ## Distances and runs -/

theorem distanceFrom_add (b : Addr) (k x : Nat) (hk : k < addressSpace) (hx : x < addressSpace) :
    distanceFrom (b + BitVec.ofNat 64 k) x = (distanceFrom b x + addressSpace - k) % addressSpace := by
  have hb := b.isLt
  unfold distanceFrom addressSpace at *
  rw [BitVec.toNat_add, BitVec.toNat_ofNat]
  omega

theorem distanceFrom_lt (b : Addr) (x : Nat) : distanceFrom b x < addressSpace := Nat.mod_lt _ (by decide)

/-- What lies outside a run lies outside every part of it. -/
theorem le_distanceFrom_part {b : Addr} {k len whole x : Nat} (hk : k + len ≤ whole) (hx : x < addressSpace)
    (h : whole ≤ distanceFrom b x) : len ≤ distanceFrom (b + BitVec.ofNat 64 k) x := by
  have hd := distanceFrom_lt b x
  rw [distanceFrom_add b k x (by omega) hx]
  unfold addressSpace at *
  omega

/-- A base lies outside every run that begins past it and does not come round. -/
theorem le_distanceFrom_self {a : Addr} {k len : Nat} (hk : 0 < k) (hk' : k < addressSpace) (h : k + len ≤ addressSpace) :
    len ≤ distanceFrom (a + BitVec.ofNat 64 k) a.toNat := by
  rw [distanceFrom_add a k a.toNat hk' (by simpa [addressSpace] using a.isLt)]
  unfold distanceFrom addressSpace at *
  have ha := a.isLt
  omega

/-- A byte outside every run that the events of a list store to reads as before. -/
theorem readByte_applyBus_outside (es : List BusEvent) (m : List Host.Cell) (x : Nat) (hx : x < addressSpace)
    (h : ∀ r ∈ storedRuns es, r.2 ≤ distanceFrom r.1 x) : readByte (applyBus es m) x = readByte m x := by
  induction es with
  | nil => rfl
  | cons e es ih =>
    cases e with
    | write a bs =>
      rw [applyBus, readByte_writeBytes_outside _ a bs x hx (h (a, bs.length) (by simp [storedRuns]))]
      exact ih fun r hr => h r (by simp [storedRuns, hr])
    | message g => exact ih fun r hr => h r hr

theorem storedRuns_append (es fs : List BusEvent) : storedRuns (es ++ fs) = storedRuns es ++ storedRuns fs := by
  induction es with
  | nil => rfl
  | cons e es ih => cases e <;> simp [storedRuns, ih]

theorem mem_storedRuns {es : List BusEvent} {r : Addr × Nat} (h : r ∈ storedRuns es) :
    ∃ bs, .write r.1 bs ∈ es ∧ r.2 = bs.length := by
  induction es with
  | nil => cases h
  | cons e es ih =>
    cases e with
    | write a bs =>
      rcases List.mem_cons.mp h with rfl | h
      · exact ⟨bs, List.mem_cons_self, rfl⟩
      · obtain ⟨cs, hcs, hl⟩ := ih h
        exact ⟨cs, List.mem_cons_of_mem _ hcs, hl⟩
    | message g =>
      obtain ⟨cs, hcs, hl⟩ := ih h
      exact ⟨cs, List.mem_cons_of_mem _ hcs, hl⟩

/-! ## The writes of the mirrors -/

theorem DmaOnly.mem_of_bus {s t : State} (h : DmaOnly s t) {w : List BusEvent} (hb : t.bus = w ++ s.bus) :
    t.mem = applyBus w s.mem := by
  obtain ⟨new, hn, hm⟩ := h
  rw [hm, List.append_cancel_right (hn.symm.trans hb)]

/-- From a state on, the card has written mirrors and nothing else. -/
structure Mirrored (v t : State) : Prop where
  device : SameDevice t v
  dma : DmaOnly v t
  bus : ∃ ms, t.bus = ms ++ v.bus ∧ (∀ e ∈ ms, isMirrorWrite v e = true) ∧ (v.running = false → ms = [])

theorem blockAt_congr {v u : State} (h : v.chain.block = u.chain.block) (off : Nat) : blockAt off v = blockAt off u := by
  unfold blockAt
  rw [h]

theorem blockAt_add (off k : Nat) (s : State) : blockAt (off + k) s = blockAt off s + BitVec.ofNat 64 k := by
  unfold blockAt
  rw [BitVec.ofNat_add, BitVec.add_assoc]

theorem isMirrorWrite_congr {v u : State} (h : v.chain.block = u.chain.block) (e : BusEvent) :
    isMirrorWrite v e = isMirrorWrite u e := by
  cases e with
  | write a bs => simp only [isMirrorWrite, blockAt_congr h]
  | message g => rfl

theorem Mirrored.refl (s : State) : Mirrored s s := ⟨.refl s, .refl s, [], rfl, nofun, fun _ => rfl⟩

theorem Mirrored.trans {s t u : State} (h : Mirrored s t) (g : Mirrored t u) : Mirrored s u := by
  obtain ⟨ms, hb, hm, hr⟩ := h.bus
  obtain ⟨ns, hb', hm', hr'⟩ := g.bus
  refine ⟨g.device.trans h.device, h.dma.trans g.dma, ns ++ ms, by rw [hb', hb, List.append_assoc], fun e he => ?_, fun e => ?_⟩
  · rcases List.mem_append.mp he with he | he
    · rw [← isMirrorWrite_congr h.device.block]
      exact hm' e he
    · exact hm e he
  · rw [hr e, hr' (h.device.running.trans e)]
    rfl

theorem mem_allPorts (p : PortId) : p ∈ allPorts := by revert p; decide

theorem mirrored_writePortMirror (p : PortId) {s : State} (h : s.running = true) : Mirrored s (writePortMirror p s) := by
  refine ⟨?_, dmaOnly_writePortMirror p s, ?_⟩
  · refine ⟨?_, ?_, ?_, ?_, ?_, ?_, ?_, fun q => ?_⟩
    case refine_8 =>
      rw [writePortMirror_port]
      split
      · rename_i e; rw [e]; rfl
      · rfl
    all_goals unfold writePortMirror dmaWrite; rfl
  · obtain ⟨bs, hlen, hb⟩ : ∃ bs, bs.length = 0xC0 ∧
        (writePortMirror p s).bus = .write (blockAt (portMirrorOffset p) s) bs :: s.bus :=
      ⟨_, portMirrorBytes_length .., rfl⟩
    refine ⟨[.write (blockAt (portMirrorOffset p) s) bs], hb, fun e he => ?_, fun e => by rw [h] at e; cases e⟩
    obtain rfl := List.mem_singleton.mp he
    simp only [isMirrorWrite, Bool.or_eq_true, List.any_eq_true]
    exact .inr ⟨p, mem_allPorts p, by simp only [hlen, decide_true, Bool.and_self]⟩

theorem mirrored_writeCellMirror {s : State} (h : s.running = true) : Mirrored s (writeCellMirror s) := by
  refine ⟨?_, dmaOnly_writeCellMirror s, ?_⟩
  · unfold writeCellMirror
    dsimp only
    generalize hb : cellMirrorBytes _ _ = bs
    exact ⟨rfl, rfl, rfl, rfl, rfl, rfl, rfl, fun _ => rfl⟩
  · obtain ⟨bs, hlen, hb⟩ : ∃ bs, bs.length = 0x40 ∧ (writeCellMirror s).bus = .write (blockAt 0x200 s) bs :: s.bus :=
      ⟨_, cellMirrorBytes_length (modChain (fun c => { c with mirrorCount := s.chain.mirrorCount + 1, mirrorDue := false }) s) _,
        rfl⟩
    refine ⟨[.write (blockAt 0x200 s) bs], hb, fun e he => ?_, fun e => by rw [h] at e; cases e⟩
    obtain rfl := List.mem_singleton.mp he
    simp only [isMirrorWrite, hlen, decide_true, Bool.and_self, Bool.true_or]

/-- Nothing written, and the bookkeeping alone changed. -/
theorem Mirrored.of_sameDevice {s t : State} (h : SameDevice t s) (hb : t.bus = s.bus) (hm : t.mem = s.mem) : Mirrored s t :=
  ⟨h, .of_eq hb hm, [], hb, nofun, fun _ => rfl⟩

theorem mirrored_flushPort (p : PortId) (s : State) : Mirrored s (flushPort p s) := by
  rcases flushPort_cases p s with ⟨-, hr, h⟩ | ⟨-, -, h⟩ | ⟨-, h⟩ <;> rw [h]
  · exact mirrored_writePortMirror p hr
  · refine .of_sameDevice ⟨rfl, rfl, rfl, rfl, rfl, rfl, rfl, fun q => ?_⟩ rfl rfl
    rw [dropPortDue_port]
    split
    · rename_i e; rw [e]; rfl
    · rfl
  · exact .refl s

theorem mirrored_forPorts (ps : List PortId) (s : State) : Mirrored s (forPorts ps flushPort s) := by
  induction ps generalizing s with
  | nil => exact .refl s
  | cons p ps ih => exact (mirrored_flushPort p s).trans (ih _)

/-- The end of a command writes mirrors and nothing else (R192, R193). -/
theorem mirrored_flushMirrors (s : State) : Mirrored s (flushMirrors s) := by
  have hp := mirrored_forPorts allPorts s
  unfold flushMirrors
  generalize forPorts allPorts flushPort s = t at hp
  dsimp only
  split
  · split
    · rename_i hr; exact hp.trans (mirrored_writeCellMirror hr)
    · exact hp.trans (.of_sameDevice ⟨rfl, rfl, rfl, rfl, rfl, rfl, rfl, fun _ => rfl⟩ rfl rfl)
  · exact hp

/-- A mirror's write stores within the area of the mirrors (R199). -/
theorem storedRuns_mirrorWrite {s : State} {ms : List BusEvent} (hm : ∀ e ∈ ms, isMirrorWrite s e = true) {r : Addr × Nat}
    (hr : r ∈ storedRuns ms) {x : Nat} (hx : x < addressSpace) (h : 0x640 ≤ distanceFrom (blockAt 0x200 s) x) :
    r.2 ≤ distanceFrom r.1 x := by
  obtain ⟨bs, hmem, hlen⟩ := mem_storedRuns hr
  have hw := hm _ hmem
  simp only [isMirrorWrite, Bool.or_eq_true, List.any_eq_true, Bool.and_eq_true, decide_eq_true_eq] at hw
  rw [hlen]
  rcases hw with ⟨ha, hl⟩ | ⟨p, -, ha, hl⟩
  · rw [ha, hl]
    omega
  · have hp := p.isLt
    have split : blockAt (portMirrorOffset p) s = blockAt 0x200 s + BitVec.ofNat 64 (0x40 + 0xC0 * p.val) := by
      rw [← blockAt_add, ← Nat.add_assoc]
      rfl
    rw [ha, hl, split]
    exact le_distanceFrom_part (by omega) hx h

/-! ## On the way to the end of a command -/

/-- On the way from `s`: state `v` holds the card that `u` holds, and the bus has carried `w` since, newest first. The block address and
the cell's state are still those of `s`. -/
structure Shows (s v u : State) (w : List BusEvent) : Prop where
  device : SameDevice v u
  bus : v.bus = w ++ s.bus
  mem : v.mem = applyBus w s.mem
  block : u.chain.block = s.chain.block
  cell : u.chain.cell = s.chain.cell

/-- What a state shows once the mirrors are written. -/
theorem Shows.ends {s v u : State} {w : List BusEvent} (h : Shows s v u w) : Ends s (flushMirrors v) u w := by
  have hm := mirrored_flushMirrors v
  obtain ⟨ms, hb, hw, hr⟩ := hm.bus
  have hblock : v.chain.block = s.chain.block := h.device.block.trans h.block
  have hcell : v.running = s.running := h.device.running.trans (congrArg (fun c => decide (c = CellState.running)) h.cell :)
  have hw' : ∀ e ∈ ms, isMirrorWrite s e = true := fun e he => (isMirrorWrite_congr hblock e).symm.trans (hw e he)
  refine ⟨(sameDevice_iff _ _).mp (hm.device.trans h.device), ⟨ms, ?_, hw', fun e => hr (hcell.trans e)⟩, fun x hx hout => ?_⟩
  · rw [hb, h.bus, List.append_assoc]
  · rw [hm.dma.mem_of_bus hb, h.mem, ← applyBus_append]
    refine readByte_applyBus_outside _ _ x hx fun r hmem => ?_
    rw [storedRuns_append] at hmem
    rcases List.mem_append.mp hmem with hmem | hmem
    · cases hrun : s.running
      · rw [hr (hcell.trans hrun)] at hmem
        cases hmem
      · exact storedRuns_mirrorWrite hw' hmem hx (hout (blockAt 0x200 s, 0x640) (List.mem_append_left _ (by simp [mirrorRuns, hrun])))
    · exact hout _ (List.mem_append_right _ hmem)

theorem Shows.refl (s : State) : Shows s s s [] := ⟨.refl s, rfl, rfl, rfl, rfl⟩

end Sys2Proof.Machine
end

section
/-! PROOFS. One rule per operation of the Power Controller for what a state shows on the way to the end of a command: port changes,
completions, alerts, the examination of the budget queue and the auto sweep. -/

namespace Sys2Proof.Machine

variable {s v v' u u' : State} {w : List BusEvent} {p : PortId}

/-! ## Steps of what a state shows -/

theorem Shows.to (h : Shows s v u w) (g : SameDevice u u') : Shows s v u' w :=
  ⟨h.device.trans g, h.bus, h.mem, g.block.symm.trans h.block, g.cell.symm.trans h.cell⟩

/-- An operation that puts events on the bus. -/
theorem Shows.step (h : Shows s v u w) (hd : SameDevice v' u') (hdma : DmaOnly v v') {x : List BusEvent}
    (hb : v'.bus = x ++ v.bus) (hblock : u'.chain.block = u.chain.block) (hcell : u'.chain.cell = u.chain.cell) :
    Shows s v' u' (x ++ w) where
  device := hd
  bus := by rw [hb, h.bus, List.append_assoc]
  mem := by rw [hdma.mem_of_bus hb, h.mem, applyBus_append]
  block := hblock.trans h.block
  cell := hcell.trans h.cell

/-- An operation that leaves the bus and the Chain Engine alone. -/
theorem Shows.still (h : Shows s v u w) (hd : SameDevice v' u') (hb : v'.bus = v.bus) (hm : v'.mem = v.mem)
    (hc : u'.chain = u.chain) : Shows s v' u' w :=
  ⟨hd, hb.trans h.bus, hm.trans h.mem, hc ▸ h.block, hc ▸ h.cell⟩

theorem Shows.modPower (h : Shows s v u w) (p : PortId) {f g : PortPower → PortPower}
    (hf : f (u.port p).power = g (u.port p).power) : Shows s (modPower p f v) (modPower p g u) w :=
  h.still (h.device.modPower hf) rfl rfl rfl

theorem Shows.modLink (h : Shows s v u w) (p : PortId) {f g : LinkRx → LinkRx}
    (hf : f (u.port p).link = g (u.port p).link) : Shows s (modLink p f v) (modLink p g u) w :=
  h.still (h.device.modLink hf) rfl rfl rfl

theorem Shows.modCtl (h : Shows s v u w) (p : PortId) {f g : Channel → Channel}
    (hf : f (u.port p).ctl = g (u.port p).ctl) : Shows s (modCtl p f v) (modCtl p g u) w :=
  h.still (h.device.modCtl hf) rfl rfl rfl

theorem Shows.modLens (h : Shows s v u w) (p : PortId) {f g : LensState → LensState}
    (hf : f (u.port p).lens = g (u.port p).lens) : Shows s (modLens p f v) (modLens p g u) w :=
  h.still (h.device.modLens hf) rfl rfl rfl

theorem Shows.modSweep (h : Shows s v u w) (p : PortId) {f g : PortSweep → PortSweep}
    (hf : f (u.port p).sweep = g (u.port p).sweep) : Shows s (modSweep p f v) (modSweep p g u) w :=
  h.still (h.device.modSweep hf) rfl rfl rfl

theorem Shows.modPowerCell (h : Shows s v u w) {f : PowerCell → PowerCell} {y : PowerCell} (hf : f u.power = y) :
    Shows s (modPowerCell f v) { u with power := y } w :=
  h.still (h.device.modPowerCell hf) rfl rfl rfl

theorem Shows.withSweeps (h : Shows s v u w) {f : SweepUnit → SweepUnit} {y : SweepUnit} (hf : f u.sweeps = y) :
    Shows s (modSweeps f v) { u with sweeps := y } w :=
  h.still (h.device.withSweeps ((congrArg f h.device.sweeps).trans hf)) rfl rfl rfl

/-- One write of the card. -/
theorem Shows.dmaWrite (h : Shows s v u w) (a : Addr) (bs : List Byte) :
    Shows s (dmaWrite a bs v) u (.write a bs :: w) :=
  h.step (h.device.withBus _ _) (dmaOnly_dmaWrite a bs v) (x := [.write a bs]) rfl rfl rfl

/-! ## Completions -/

theorem recordKind_dmaWrite {a b : Addr} {bs : List Byte} (h : bs.length ≤ distanceFrom b a.toNat) (s : State) :
    recordKind a (dmaWrite b bs s) = recordKind a s := by
  unfold recordKind
  rw [dmaWrite_mem, readByte_writeBytes_outside _ b bs _ (by simpa [addressSpace] using a.isLt) h]

/-- The kind byte of a record reads as before after the writes `w`, if none of them touches it. -/
theorem Shows.recordKind (h : Shows s v u w) {a : Addr} (hout : ∀ r ∈ storedRuns w, r.2 ≤ distanceFrom r.1 a.toNat) :
    recordKind a v = recordKind a s := by
  unfold Machine.recordKind
  rw [h.mem, readByte_applyBus_outside w _ _ (by simpa [addressSpace] using a.isLt) hout]

theorem completeCommand_chain (a : Addr) (c : Code) (r : List Byte) (s : State) :
    (completeCommand a c r s).chain = afterCompletion a s.chain := by
  unfold completeCommand
  rw [completeRecord_chain]
  unfold writeResult
  rw [dmaWrite_chain, dmaWrite_chain]
  rfl

theorem completionTail_congr (h : v.chain.block = u.chain.block) (c : ChainEngine) (i : Fin 17) (g : GatherGroup) (a : Addr)
    (done : Bool) : completionTail v c i g a done = completionTail u c i g a done := by
  simp only [completionTail, blockAt_congr h]

theorem completionWrites_congr (h : v.chain.block = u.chain.block) (c : ChainEngine) (a : Addr) (code : Code) (r : List Byte) :
    completionWrites v c a code r = completionWrites u c a code r := by
  unfold completionWrites
  rw [completionTail_congr h]

/-- The result area goes out whole into a record that is no lens record's length (R200, R201). -/
theorem completeCommand_bus {a : Addr} {r : List Byte} {s : State} (c : Code) (hk : recordKind a s ≠ 3) (hr : r.length ≤ 0xA0) :
    (completeCommand a c r s).bus = completionWrites s s.chain a c r ++ s.bus := by
  have two : (leBytes 2 (codeNumber c)).take (256 - 0x14) = leBytes 2 (codeNumber c) :=
    List.take_of_length_le (by rw [leBytes_length]; decide)
  have area : (resultArea r).take (256 - 0x60) = r ++ zeros (0xA0 - r.length) :=
    List.take_of_length_le (by rw [resultArea, List.length_append, zeros_length]; omega)
  unfold completeCommand writeResult recordLength
  rw [recordKind_dmaWrite, if_neg hk, completeRecord_bus, two, area]
  · unfold completionWrites
    rw [List.append_assoc]
    rfl
  · rw [if_neg hk, two, leBytes_length]
    exact le_distanceFrom_self (by decide) (by decide) (by decide)

theorem sameDevice_completeCommand (h : SameDevice v u) (a : Addr) (c : Code) (r : List Byte) :
    SameDevice (completeCommand a c r v) { u with chain := afterCompletion a u.chain } := by
  have k := cardKept_completeCommand a c r v
  have hchain : chainView (afterCompletion a v.chain) = chainView (afterCompletion a u.chain) :=
    (congrArg (afterCompletion a) h.chain :)
  exact ⟨k.pending.trans h.pending, k.cable.trans h.cable, (congrArg chainView (completeCommand_chain a c r v)).trans hchain,
    k.power.trans h.power, k.trig.trans h.trig, k.sets.trans h.sets, k.sweeps.trans h.sweeps,
    fun q => (congrArg portView (k.port q)).trans (h.ports q)⟩

/-- The completion of a command record. -/
theorem Shows.completeCommand (h : Shows s v u w) {a : Addr} {r : List Byte} (c : Code) (hk : Machine.recordKind a v ≠ 3)
    (hr : r.length ≤ 0xA0) :
    Shows s (completeCommand a c r v) { u with chain := afterCompletion a u.chain } (completionWrites s u.chain a c r ++ w) := by
  refine h.step (sameDevice_completeCommand h.device a c r) (dmaOnly_completeCommand a c r v) ?_ rfl rfl
  rw [completeCommand_bus c hk hr, completionWrites_congr (h.device.block.trans h.block)]
  congr 1
  exact (congrArg (fun x => completionWrites s x a c r) h.device.chain :)

/-- A port without an ON command in flight has nothing to answer. -/
theorem completeOn_none {c : Code} (h : (s.port p).power.onCommand = none) : completeOn p c s = s := by
  unfold completeOn
  rw [h]

theorem completeOn_some {c : Code} {a : Addr} (h : (s.port p).power.onCommand = some a) :
    completeOn p c s = completeCommand a c [] (modPower p (fun w => { w with onCommand := none }) s) := by
  unfold completeOn
  rw [h]

theorem withAnswer_none (h : (s.port p).power.onCommand = none) : withAnswer p s = s := by
  unfold withAnswer
  rw [h]

theorem withAnswer_some {a : Addr} (h : (s.port p).power.onCommand = some a) : withAnswer p s =
    { modPower p (fun w => { w with onCommand := none }) s with chain := afterCompletion a s.chain } := by
  unfold withAnswer
  rw [h]

theorem answerWrites_none {c : Code} (h : (s.port p).power.onCommand = none) : answerWrites p c s = [] := by
  unfold answerWrites
  rw [h]

theorem answerWrites_some {c : Code} {a : Addr} (h : (s.port p).power.onCommand = some a) :
    answerWrites p c s = completionWrites s s.chain a c [] := by
  unfold answerWrites
  rw [h]

/-- The completion of a port's ON command in flight (R4). -/
theorem Shows.completeOn (h : Shows s v u w) (c : Code)
    (hk : ∀ a, (u.port p).power.onCommand = some a → Machine.recordKind a v ≠ 3) :
    Shows s (completeOn p c v) (withAnswer p u) (answerWrites p c u ++ w) := by
  have same : (v.port p).power.onCommand = (u.port p).power.onCommand := congrArg PortPower.onCommand (h.device.portPower p)
  cases hon : (u.port p).power.onCommand with
  | none =>
    rw [completeOn_none (same.trans hon), withAnswer_none hon, answerWrites_none hon]
    exact h
  | some a =>
    rw [completeOn_some (same.trans hon), withAnswer_some hon, answerWrites_some hon, completionWrites_congr h.block]
    exact (h.modPower p (f := fun w => { w with onCommand := none }) rfl).completeCommand c (hk a hon) (by simp)

/-! ## Taking a command record -/

/-- A command record is taken (R182). -/
theorem shows_takeCommand (a : Addr) (s : State) :
    Shows s (takeCommand a s) { s with chain := afterTake a s.chain } [takenWrite a] := by
  have h : Shows s (takeRecord .command a s) { s with chain := afterTake a s.chain } [] :=
    ⟨⟨rfl, rfl, rfl, rfl, rfl, rfl, rfl, fun _ => rfl⟩, rfl, rfl, rfl, rfl⟩
  exact h.dmaWrite (a + 4) (leBytes 4 2)

/-- The state word of a record lies apart from its kind byte (R200). -/
theorem takenWrite_apart (a : Addr) : ∀ r ∈ storedRuns [takenWrite a], r.2 ≤ distanceFrom r.1 a.toNat := by
  intro r hr
  obtain rfl := List.mem_singleton.mp hr
  exact le_distanceFrom_self (a := a) (k := 4) (len := 4) (by decide) (by decide) (by decide)

/-- A command that is taken and completes at once. -/
theorem Shows.commandDone {a : Addr} {r : List Byte} {c : Code} (h : Shows s v { u with chain := afterTake a u.chain } [takenWrite a])
    (hk : Machine.recordKind a s = 1) (hr : r.length ≤ 0xA0) :
    CommandDone a c r s (flushMirrors (Machine.completeCommand a c r v)) u := by
  refine (h.completeCommand c ?_ hr).ends
  rw [h.recordKind (takenWrite_apart a), hk]
  decide

/-- What a row that stands for a command record does while RUNNING: its owner takes it, and the mirrors follow. -/
theorem execRecord_running {a : Addr} {c : Command} (h : s.running = true) :
    execRecord a c s = .next (flushMirrors (ownCommand a c (takeCommand a s))) := by
  unfold execRecord runCommand
  rw [if_pos h]

theorem portNamed_ofNat (h : p.val < s.chain.portCount.toNat) : portNamed (BitVec.ofNat 8 p.val) s = some p := by
  have e : (BitVec.ofNat 8 p.val).toNat = p.val := by
    rw [BitVec.toNat_ofNat]
    have := p.isLt
    omega
  unfold portNamed
  simp only [e]
  exact dif_pos ⟨p.isLt, h⟩

/-- A command that names a port of the run is handed to its owner. -/
theorem withPort_named {a : Addr} {f : PortId → State → State} {r : List Byte} (h : p.val < s.chain.portCount.toNat) :
    withPort a (BitVec.ofNat 8 p.val) f s r = f p s := by
  unfold withPort
  rw [portNamed_ofNat h]

/-! ## Alerts -/

theorem sameDevice_setCause (h : SameDevice v u) (g : Group) : SameDevice (setCause g v)
    { u with chain := { u.chain with cause := u.chain.cause ||| BitVec.twoPow 3 (groupBit g) } } := by
  have k := cardKept_setCause g v
  have hchain : chainView { v.chain with cause := v.chain.cause ||| BitVec.twoPow 3 (groupBit g) } =
      chainView { u.chain with cause := u.chain.cause ||| BitVec.twoPow 3 (groupBit g) } :=
    (congrArg (fun c : ChainEngine => { c with cause := c.cause ||| BitVec.twoPow 3 (groupBit g) }) h.chain :)
  exact ⟨k.pending.trans h.pending, k.cable.trans h.cable, (congrArg chainView (setCause_chain g v)).trans hchain,
    k.power.trans h.power, k.trig.trans h.trig, k.sets.trans h.sets, k.sweeps.trans h.sweeps,
    fun q => (congrArg portView (k.port q)).trans (h.ports q)⟩

/-- A cause is set, and its message goes out if it is new and enabled (R187, R188). -/
theorem Shows.setCause (h : Shows s v u w) (g : Group) :
    Shows s (setCause g v) { u with chain := { u.chain with cause := u.chain.cause ||| BitVec.twoPow 3 (groupBit g) } }
      ((if u.chain.cause.getLsbD (groupBit g) = false ∧ u.chain.enable.getLsbD (groupBit g) = true then [.message g] else [])
        ++ w) := by
  refine h.step (sameDevice_setCause h.device g) (dmaOnly_setCause g v) ?_ rfl rfl
  rw [setCause_bus, h.device.cause, h.device.enable]

theorem withAlert_set {bit : Nat} (h : (s.port p).alerts.getLsbD bit = true) : withAlert p bit s = s := if_pos h

theorem withAlert_new {bit : Nat} (h : (s.port p).alerts.getLsbD bit = false) : withAlert p bit s =
    modPort p (fun q => { q with alerts := q.alerts ||| BitVec.twoPow 11 bit })
      { s with chain := { s.chain with cause := s.chain.cause ||| 4 } } := if_neg (by rw [h]; decide)

theorem alertMessage_set {bit : Nat} (h : (s.port p).alerts.getLsbD bit = true) : alertMessage p bit s = [] :=
  if_neg fun e => by rw [h] at e; cases e.1

theorem alertMessage_new {bit : Nat} (h : (s.port p).alerts.getLsbD bit = false) : alertMessage p bit s =
    if s.chain.cause.getLsbD 2 = false ∧ s.chain.enable.getLsbD 2 = true then [.message .alerts] else [] := by
  unfold alertMessage
  simp only [h, true_and]

/-- A port alert is set (R190). -/
theorem Shows.setPortAlert (h : Shows s v u w) (p : PortId) (bit : Nat) :
    Shows s (setPortAlert p bit v) (withAlert p bit u) (alertMessage p bit u ++ w) := by
  have same : (v.port p).alerts = (u.port p).alerts := h.device.portAlerts p
  unfold Machine.setPortAlert
  rw [same]
  cases hset : (u.port p).alerts.getLsbD bit
  · rw [withAlert_new hset, alertMessage_new hset, if_neg (by decide)]
    have flagged : Shows s (modPort p (fun q => { q with alerts := q.alerts ||| BitVec.twoPow 11 bit }) v)
        (modPort p (fun q => { q with alerts := q.alerts ||| BitVec.twoPow 11 bit }) u) w :=
      h.still (h.device.modPort (portView_alerts (h.device.ports p) (by rw [same]))) rfl rfl rfl
    exact flagged.setCause .alerts
  · rw [withAlert_set hset, alertMessage_set hset, if_pos rfl]
    exact h

/-! ## The budget queue and the auto sweep -/

theorem examined_nil (h : s.power.queue = []) : examined s = s := by
  unfold examined
  rw [h]

/-- May the head of the queue be granted? (R6) -/
abbrev Fits (p : PortId) (s : State) : Prop :=
  (∀ q, powerOf q s ≠ .inrush) ∧ s.power.reserved + reservation (s.port p).power.clsInUse ≤ s.power.budget

/-- The grant of the queue's head (R6, R9). -/
abbrev granted (p : PortId) (rest : List PortId) (s : State) : State :=
  { modPower p (fun w => { w with state := .inrush, inrushTimer := some 50, loadMa := 0 }) s with
    power := { s.power with
      queue := rest, grants := s.power.grants ++ [p], reserved := s.power.reserved + reservation (s.port p).power.clsInUse } }

theorem examined_cons {rest : List PortId} (h : s.power.queue = p :: rest) :
    examined s = if Fits p s then granted p rest s else s := by
  unfold examined
  rw [h]

theorem Fits.congr (h : SameDevice v u) : Fits p v ↔ Fits p u := by
  unfold Fits
  rw [h.power, h.portPower p]
  simp only [h.powerState]

theorem examineBudget_nil (h : s.power.queue = []) : examineBudget s = s := by
  unfold examineBudget
  rw [h]

theorem examineBudget_cons {rest : List PortId} (h : s.power.queue = p :: rest) :
    examineBudget s = if grantable p s then grant p rest s else s := by
  unfold examineBudget
  rw [h]

/-- The budget queue is examined (R6, R7). -/
theorem Shows.examineBudget (h : Shows s v u w) : Shows s (examineBudget v) (examined u) w := by
  have same : v.power.queue = u.power.queue := congrArg PowerCell.queue h.device.power
  cases hq : u.power.queue with
  | nil =>
    rw [examineBudget_nil (same.trans hq), examined_nil hq]
    exact h
  | cons p rest =>
    rw [examineBudget_cons (same.trans hq), examined_cons hq]
    by_cases fits : Fits p u
    · rw [if_pos ((grantable_iff p v).mpr ((Fits.congr h.device).mpr fits)), if_pos fits]
      unfold grant
      have cell : Shows s (Machine.modPowerCell (fun c => { c with
          queue := rest, grants := c.grants ++ [p]
          reserved := c.reserved + reservation (v.port p).power.clsInUse }) v)
          { u with power := { u.power with
            queue := rest, grants := u.power.grants ++ [p]
            reserved := u.power.reserved + reservation (u.port p).power.clsInUse } } w :=
        h.modPowerCell (by rw [h.device.portPower p])
      exact cell.modPower p rfl
    · rw [if_neg (fun g => fits ((Fits.congr h.device).mp ((grantable_iff p v).mp g))), if_neg fits]
      exact h

theorem underTest_eq (p : PortId) (s : State) : underTest p s = decide ((s.port p).sweep.state ≠ .none) := rfl

/-- When is an auto sweep taken? (R144) -/
abbrev Sweepable (p : PortId) (s : State) : Prop :=
  (s.port p).power.autoSweep = true ∧ s.running = true ∧ (s.port p).sweep.state = .none

theorem Sweepable.congr (h : SameDevice v u) : Sweepable p v ↔ Sweepable p u := by
  unfold Sweepable
  rw [h.portPower p, h.running, h.portSweep p]

/-- The entry of an auto sweep (R144). -/
abbrev autoEntry (p : PortId) (c : Code) : SweepEntry := { port := p, origin := .auto, cause := c, averages := 16, recAt := none }

theorem requestAutoSweep_eq (c : Code) (s : State) :
    requestAutoSweep p c s = if Sweepable p s then joinSweeps (autoEntry p c) s else s := by
  have e : ((s.port p).power.autoSweep && s.running && !underTest p s) = decide (Sweepable p s) := by
    simp [Sweepable, underTest_eq, Bool.and_assoc]
  unfold requestAutoSweep
  rw [e]
  simp only [decide_eq_true_eq]
  rfl

theorem autoSwept_refused {c : Code} (h : ¬ Sweepable p s) : autoSwept p c s = s := if_neg h

theorem autoSwept_free {c : Code} (h : Sweepable p s) (hf : s.sweeps.front = none) : autoSwept p c s =
    { modSweep p (fun w => { w with state := .measuring }) s with
      sweeps := { queue := [], front := some { entry := autoEntry p c, settings := (s.port p).sweep.settings
                                               started := s.trig.clock, powerAtStart := powerOf p s, sums := [] } } } := by
  unfold autoSwept
  rw [if_pos h, hf]

theorem autoSwept_waits {c : Code} {m : Measuring} (h : Sweepable p s) (hf : s.sweeps.front = some m) : autoSwept p c s =
    { modSweep p (fun w => { w with state := .queued }) s with
      sweeps := { s.sweeps with queue := s.sweeps.queue ++ [autoEntry p c] } } := by
  unfold autoSwept
  rw [if_pos h, hf]

/-- Two changes of a port's sweep state: the later one stands. -/
theorem sameDevice_modSweep_twice (x y : SweepState) (s : State) :
    SameDevice (modSweep p (fun w => { w with state := y }) (modSweep p (fun w => { w with state := x }) s))
      (modSweep p (fun w => { w with state := y }) s) := by
  refine ⟨rfl, rfl, rfl, rfl, rfl, rfl, rfl, fun q => ?_⟩
  unfold modSweep
  rw [modPort_portView, modPort_portView, modPort_port, if_pos rfl, modPort_portView]
  split <;> rfl

theorem SameDevice.measuringOf (h : SameDevice v u) (e : SweepEntry) : measuringOf e v = measuringOf e u := by
  unfold Machine.measuringOf State.now
  rw [h.portSweep, h.portPower, h.trig]

/-- With the front end free, the oldest sweep of the queue is measured (R141, R146). -/
theorem Shows.examineSweeps_free (h : Shows s v u w) {e : SweepEntry} {rest : List SweepEntry} (hf : u.sweeps.front = none)
    (hq : u.sweeps.queue = e :: rest) :
    Shows s (examineSweeps v) { Machine.modSweep e.port (fun w => { w with state := .measuring }) u with
      sweeps := { front := some (measuringOf e u), queue := rest } } w := by
  have hf' : v.sweeps.front = none := (congrArg SweepUnit.front h.device.sweeps).trans hf
  have hq' : v.sweeps.queue = e :: rest := (congrArg SweepUnit.queue h.device.sweeps).trans hq
  unfold examineSweeps
  rw [hf', hq']
  exact (h.withSweeps (f := fun _ => { front := some (Machine.measuringOf e v), queue := rest })
    (by rw [h.device.measuringOf e])).modSweep e.port rfl

/-- With the front end taken or the queue empty, an examination of the sweeps does nothing (R141). -/
theorem Shows.examineSweeps_kept (h : Shows s v u w) (hk : u.sweeps.front ≠ none ∨ u.sweeps.queue = []) :
    Shows s (examineSweeps v) u w := by
  unfold examineSweeps
  rw [h.device.sweeps]
  split
  · rename_i hf hq
    rcases hk with hk | hk
    · exact absurd hf hk
    · rw [hk] at hq
      cases hq
  · exact h

/-- An auto sweep is asked for (R12, R144). -/
theorem Shows.requestAutoSweep (h : Shows s v u w) (c : Code) (hfree : u.sweeps.front = none → u.sweeps.queue = []) :
    Shows s (requestAutoSweep p c v) (autoSwept p c u) w := by
  rw [requestAutoSweep_eq]
  by_cases asked : Sweepable p u
  · rw [if_pos ((Sweepable.congr h.device).mpr asked)]
    unfold joinSweeps
    have joined : Shows s (setSweepState p .queued (modSweeps (fun w => { w with queue := w.queue ++ [autoEntry p c] }) v))
        (Machine.modSweep p (fun w => { w with state := .queued })
          { u with sweeps := { u.sweeps with queue := u.sweeps.queue ++ [autoEntry p c] } }) w :=
      (h.withSweeps rfl).modSweep p rfl
    cases hf : u.sweeps.front with
    | none =>
      rw [autoSwept_free asked hf]
      refine (joined.examineSweeps_free (e := autoEntry p c) (rest := []) hf ?_).to ?_
      · show u.sweeps.queue ++ [autoEntry p c] = _
        rw [hfree hf]
        rfl
      · refine (sameDevice_modSweep_twice .queued .measuring u).withSweeps ?_
        unfold Machine.measuringOf
        rw [modSweep_port_self, modSweep_port_power]
        rfl
    | some m =>
      rw [autoSwept_waits asked hf]
      refine joined.examineSweeps_kept (.inl ?_)
      show u.sweeps.front ≠ none
      rw [hf]
      exact nofun
  · rw [if_neg (fun g => asked ((Sweepable.congr h.device).mp g)), autoSwept_refused asked]
    exact h

end Sys2Proof.Machine
end

section
/-! PROOFS. Power removal at a port with nothing else in hand, and the effects of the Power Controller's larger operations as the
statements name them. -/

namespace Sys2Proof.Machine

variable {s v v' u u' : State} {w : List BusEvent} {p : PortId}

/-! ## Removing power from an idle port -/

/-- A change of a port that shows nothing. -/
theorem sameDevice_modPort {f : Port → Port} (h : portView (f (s.port p)) = portView (s.port p)) : SameDevice (modPort p f s) s := by
  refine ⟨rfl, rfl, rfl, rfl, rfl, rfl, rfl, fun q => ?_⟩
  rw [modPort_portView]
  split
  · rename_i e; rw [e, h]
  · rfl

/-- Changes of one port, one after the other, are one change. -/
theorem sameDevice_modPort_twice (f g : Port → Port) (hg : ∀ x y, portView x = portView y → portView (g x) = portView (g y)) :
    SameDevice (modPort p g (modPort p f s)) (modPort p (fun q => g (f q)) s) := by
  refine ⟨rfl, rfl, rfl, rfl, rfl, rfl, rfl, fun q => ?_⟩
  rw [modPort_portView, modPort_portView, modPort_portView]
  split
  · refine hg _ _ ?_
    rw [modPort_portView, if_pos rfl]
  · rfl

theorem IdlePort.congr (h : SameDevice v u) : IdlePort p v ↔ IdlePort p u := by
  unfold IdlePort
  rw [h.portFrame p, h.portCtl p, h.portLens p]

theorem settleTargets_idle (r : UnitResult) (h : (s.port p).lens.phase = none) : settleTargets p r s = s := by
  unfold settleTargets
  rw [h]

theorem applyHeld_idle (h : (s.port p).lens.held = []) : applyHeld p s = modLens p (fun l => { l with held := [] }) s := by
  unfold applyHeld
  rw [h]
  rfl

theorem failHeadAccess_idle (c : Code) (htxn : (s.port p).ctl.txn = none) (hheads : (s.port p).ctl.heads = []) :
    failHeadAccess p c s = s := by
  unfold failHeadAccess
  dsimp only
  rw [htxn, hheads]
  rfl

/-- Nothing is closed at a port with nothing in hand. -/
theorem shows_closeAll_idle (h : Shows s v u w) (hi : IdlePort p u) (c : Code) : Shows s (closeAll p c v) u w := by
  obtain ⟨hentries, hrecv, -, -, hphase, hheld⟩ := (IdlePort.congr h.device).mpr hi
  have none : entriesOf p v = [] := by rw [entriesOf, hentries]; rfl
  have held : ((stopDiscarding p (modLens p (fun l => { l with phase := Option.none }) v)).port p).lens.held = [] := by
    unfold stopDiscarding
    rw [modFrame_port_lens, modLens_port_self]
    exact hheld
  unfold closeAll afterCloses
  dsimp only
  rw [settleTargets_idle _ hphase, none, show closeEntries c [] v = v from rfl, applyHeld_idle held]
  have phase : SameDevice (modLens p (fun l => { l with phase := Option.none }) v) v := sameDevice_modPort (by rw [← hphase])
  have recv : SameDevice (stopDiscarding p (modLens p (fun l => { l with phase := Option.none }) v))
      (modLens p (fun l => { l with phase := Option.none }) v) := by
    unfold stopDiscarding modFrame
    refine sameDevice_modPort ?_
    have e : ((modLens p (fun l => { l with phase := Option.none }) v).port p).frame.recv = .idle := by
      rw [modLens_port_frame]; exact hrecv
    generalize (modLens p (fun l => { l with phase := Option.none }) v).port p = q at e
    obtain ⟨_, _, _, _, _, r, _, _, _, _, _⟩ := q
    cases r
    dsimp only at e
    rw [e]
  have apply := sameDevice_modPort (f := fun q => { q with lens := { q.lens with held := [] } })
    (s := stopDiscarding p (modLens p (fun l => { l with phase := Option.none }) v)) (p := p) (by rw [← held])
  exact h.still (((apply.trans recv).trans phase).trans h.device) rfl rfl rfl

/-- The port's link, channel and lens codes after a power removal with nothing in hand (R15, R27, R57, R85). -/
abbrev unpluggedPort (q : Port) : Port := { q with
  link := { q.link with state := .down, confirm := 0, misses := 0, boundary := .none, burst := none }
  ctl := { q.ctl with
    state := .suspended, txn := none, replyTimer := none, holdTimer := none, noteTimer := none, exposes := []
    lensMsgs := [], heads := [], identity := none, noCompare := false, ready := false, retryTimer := none }
  lens := { q.lens with known := .replicate 4 none } }

theorem unpowered_eq (p : PortId) (s : State) : unpowered p s = modPort p unpluggedPort { s with power := released p s } := rfl

/-- Power removal at a port with nothing in hand (R15). -/
theorem shows_powerRemoved_idle (h : Shows s v u w) (hi : IdlePort p u) :
    Shows s (powerRemoved p v) (modPort p unpluggedPort u) w := by
  have down : Shows s (linkDown p v) (modLink p (fun l => { huntAgain l with state := .down }) u) w := h.modLink p rfl
  have idle : IdlePort p (modLink p (fun l => { huntAgain l with state := .down }) u) := by
    simp only [IdlePort, modLink_port_frame, modLink_port_ctl, modLink_port_lens]
    exact hi
  have closed := shows_closeAll_idle down idle .powerLost
  obtain ⟨-, -, htxn, hheads, -, -⟩ := (IdlePort.congr closed.device).mpr idle
  unfold powerRemoved suspendChannel forgetCodes
  rw [failHeadAccess_idle _ htxn hheads]
  refine ((closed.modCtl p rfl).modLens p rfl).to ?_
  refine ⟨rfl, rfl, rfl, rfl, rfl, rfl, rfl, fun q => ?_⟩
  unfold modLens modCtl modLink
  simp only [modPort_port]
  split <;> rfl

/-! ## Changes of a port's power, one after the other -/

/-- The first change of a port's power. -/
theorem Shows.setPower (h : Shows s v u w) (p : PortId) {f : PortPower → PortPower} {x : PortPower} (hf : f (u.port p).power = x) :
    Shows s (Machine.modPower p f v) (Machine.modPower p (fun _ => x) u) w := h.modPower p hf

/-- A further change of a port's power. -/
theorem Shows.resetPower {x y : PortPower} (h : Shows s v (Machine.modPower p (fun _ => x) u) w) {f : PortPower → PortPower}
    (hf : f x = y) : Shows s (Machine.modPower p f v) (Machine.modPower p (fun _ => y) u) w := by
  refine (h.modPower p (g := fun _ => y) (by rw [modPower_port_self, hf])).to ?_
  exact sameDevice_modPort_twice _ _ fun a b e => portView_power e rfl

/-- The spec's name of an effect may carry another Chain Engine than the state it was first said of. -/
theorem examined_withChain (c : ChainEngine) (u : State) : examined { u with chain := c } = { examined u with chain := c } := by
  cases hq : u.power.queue with
  | nil => rw [examined_nil hq, examined_nil (s := { u with chain := c }) hq]
  | cons q rest =>
    rw [examined_cons hq, examined_cons (s := { u with chain := c }) hq]
    by_cases fits : Fits q u
    · rw [if_pos fits, if_pos (show Fits q { u with chain := c } from fits)]
      rfl
    · rw [if_neg fits, if_neg (show ¬ Fits q { u with chain := c } from fits)]

end Sys2Proof.Machine
end

section
/-! PROOFS. PORT_POWER ON and OFF, SET_BUDGET (R3, R14, R16, R17). -/

namespace Sys2Proof.Machine

variable {s v u : State} {w : List BusEvent} {p : PortId} {a : Addr}

/-! ## PORT_POWER ON -/

@[simp] theorem takeCommand_port (a : Addr) (s : State) (q : PortId) : (takeCommand a s).port q = s.port q := rfl

@[simp] theorem takeCommand_power (a : Addr) (s : State) : (takeCommand a s).power = s.power := rfl

theorem exec_portPowerOn (hr : s.running = true) (hp : p.val < s.chain.portCount.toNat) :
    exec (.portPowerOn a (BitVec.ofNat 8 p.val)) s = .next (flushMirrors (takePowerOn a p (takeCommand a s))) := by
  refine (execRecord_running (c := .portPower (BitVec.ofNat 8 p.val) 1) hr).trans ?_
  unfold ownCommand
  dsimp only
  rw [withPort_named (s := takeCommand a s) hp]
  rfl

section
variable (hlow : s.power.supplyLow = false) (hon : (s.port p).power.onCommand = none)
include hlow hon

/-- An accepted ON command in OFF: pending under test, and an attempt otherwise (R3). -/
theorem takePowerOn_off (h : (s.port p).power.state = .off) : takePowerOn a p s =
    if underTest p s then modPower p (fun w => { w with pendingOn := true }) (acceptOn p a s) else enterDetect p (acceptOn p a s) := by
  unfold takePowerOn
  simp [hlow, hon, h]

/-- An accepted ON command joins the attempt under way (R3). -/
theorem takePowerOn_joins (h : (s.port p).power.state = .detect ∨ (s.port p).power.state = .queued ∨ (s.port p).power.state = .inrush) :
    takePowerOn a p s = acceptOn p a s := by
  unfold takePowerOn
  rcases h with h | h | h <;> simp [hlow, hon, h]

/-- An accepted ON command in TRIPPED is pending (R3). -/
theorem takePowerOn_tripped (h : (s.port p).power.state = .tripped) :
    takePowerOn a p s = modPower p (fun w => { w with pendingOn := true }) (acceptOn p a s) := by
  unfold takePowerOn
  simp [hlow, hon, h]

end

/-- Settles O20. -/
theorem powerOn : Obligations.PowerOn := by
  refine ⟨fun a p s ⟨_, hr, _⟩ hp hlow hon hne hne' => ?_, fun a p s ⟨_, hr, hk⟩ hp => ?_⟩
  · intro w y new
    refine ⟨_, exec_portPowerOn hr hp, Shows.ends ?_⟩
    have taken : Shows s (acceptOn p a (takeCommand a s)) (modPower p (fun _ => y) { s with chain := afterTake a s.chain })
      [takenWrite a] := (shows_takeCommand a s).setPower p rfl
    cases hst : (s.port p).power.state with
    | on => exact absurd hst hne
    | foldback => exact absurd hst hne'
    | off =>
      rw [takePowerOn_off (s := takeCommand a s) hlow hon hst]
      by_cases tested : (s.port p).sweep.state = .none
      · have e : new = { y with state := .detect, clsInUse := w.cls, detectTimer := some 8 } := by simp only [new, w, hst, tested, if_true]
        rw [e, if_neg (by simp [underTest_eq, tested])]
        exact taken.resetPower rfl
      · have e : new = { y with pendingOn := true } := by simp only [new, w, hst, tested, if_false]
        rw [e, if_pos (by simp [underTest_eq, tested])]
        exact taken.resetPower rfl
    | tripped =>
      have e : new = { y with pendingOn := true } := by simp only [new, w, hst]
      rw [e, takePowerOn_tripped (s := takeCommand a s) hlow hon hst]
      exact taken.resetPower rfl
    | detect | queued | inrush =>
      have e : new = y := by simp only [new, w, hst]
      rw [e, takePowerOn_joins (s := takeCommand a s) hlow hon (by simp [hst])]
      exact taken
  · intro w
    have done : ∀ c, takePowerOn a p (takeCommand a s) = completeCommand a c [] (takeCommand a s) →
        ∃ t, exec (.portPowerOn a (BitVec.ofNat 8 p.val)) s = .next t ∧ CommandDone a c [] s t s := fun c hc =>
      ⟨_, exec_portPowerOn hr hp, hc ▸ (shows_takeCommand a s).commandDone hk (by simp)⟩
    refine ⟨fun hlow => done _ ?_, fun hlow hst => done _ ?_, fun hlow hne hne' hon => done _ ?_⟩
    · exact if_pos hlow
    · unfold takePowerOn
      rcases hst with hst | hst <;> simp [hlow, show (s.port p).power.state = _ from hst]
    · unfold takePowerOn
      simp only [takeCommand_port, takeCommand_power, hlow]
      cases hst : (s.port p).power.state
      case on => exact absurd hst hne
      case foldback => exact absurd hst hne'
      all_goals exact if_pos hon

end Sys2Proof.Machine
end

section
/-! PROOFS. The events of a port's power: currents, cooldown, detection, inrush and trips (R4 to R15, R21). -/

namespace Sys2Proof.Machine

variable {s v u : State} {w : List BusEvent} {p : PortId} {x : PortPower}

/-! ## Currents and the cooldown -/

theorem shows_enterDetect (h : Shows s v (modPower p (fun _ => x) u) w) : Shows s (enterDetect p v)
    (modPower p (fun _ => { x with state := .detect, clsInUse := x.cls, detectTimer := some 8 }) u) w := h.resetPower rfl

/-- The power of a port after the decision at the end of its cooldown (R13). -/
def decidedPower (low : Bool) (x : PortPower) : PortPower :=
  let probe : PortPower := { x with expired := false, state := .detect, clsInUse := x.cls, detectTimer := some 8 }
  if low then { x with expired := false, state := .off, cause := .supplyLow, retries := 0 }
  else if x.pendingOn then { probe with pendingOn := false }
  else if 0 < x.retries then { probe with retries := x.retries - 1 }
  else { x with expired := false, state := .off }

/-- The decision at the end of a cooldown (R13). -/
theorem shows_decideCooldown (h : Shows s v (modPower p (fun _ => x) u) w) :
    Shows s (decideCooldown p v) (modPower p (fun _ => decidedPower u.power.supplyLow x) u) w := by
  have hx : (v.port p).power = x := (h.device.portPower p).trans (modPower_port_self ..)
  have hlow : v.power.supplyLow = u.power.supplyLow := congrArg PowerCell.supplyLow h.device.power
  have unmarked : Shows s (modPower p (fun w => { w with expired := false }) v)
    (modPower p (fun _ => { x with expired := false }) u) w := h.resetPower rfl
  unfold decideCooldown decidedPower
  dsimp only
  rw [hx, hlow]
  split
  · exact unmarked.resetPower rfl
  · split
    · exact shows_enterDetect (unmarked.resetPower rfl)
    · split
      · exact shows_enterDetect (unmarked.resetPower rfl)
      · exact unmarked.resetPower rfl

/-- Settles O40. -/
theorem foldbackAndCooldown : Obligations.FoldbackAndCooldown := by
  refine ⟨fun p ma s _ hshort => ?_, fun p ms s _ hst hcool => ?_⟩
  · intro w above new hpow
    have read : Shows s (modPower p (fun w => { w with loadMa := ma }) s) (modPower p (fun _ => { w with loadMa := ma }) s) [] :=
      (Shows.refl s).setPower p rfl
    have sampled : Shows s (currentSampled p ma s) (modPower p (fun _ => new) s) [] := by
      unfold currentSampled
      dsimp only
      rw [if_pos hpow, if_neg (Nat.not_le.mpr hshort)]
      by_cases enters : w.state = .on ∧ above
      · have e : new = { w with loadMa := ma, state := .foldback, foldbackTimer := some 20 } := if_pos enters
        rw [if_pos enters, e]
        exact read.resetPower rfl
      · rw [if_neg enters]
        by_cases leaves : w.state = .foldback ∧ ¬ above
        · have e : new = { w with loadMa := ma, state := .on, foldbackTimer := none } := (if_neg enters).trans (if_pos leaves)
          rw [if_pos ⟨leaves.1, Nat.not_lt.mp leaves.2⟩, e]
          exact read.resetPower rfl
        · have e : new = { w with loadMa := ma } := (if_neg enters).trans (if_neg leaves)
          rw [if_neg fun h => leaves ⟨h.1, Nat.not_lt.mpr h.2⟩, e]
          exact read
    exact ⟨⟨_, rfl, sampled.ends⟩, _, rfl, sampled.ends⟩
  · intro w probe new
    refine ⟨_, rfl, Shows.ends ?_⟩
    have ended : Shows s (modPower p (fun w => { w with cooldown := none }) s) (modPower p (fun _ => w) s) [] :=
      (Shows.refl s).setPower p rfl
    unfold cooldownExpired
    dsimp only
    rw [if_pos ⟨hst, by rw [hcool]; rfl⟩, underTest_eq]
    by_cases tested : (s.port p).sweep.state = .none
    · have e : new = decidedPower s.power.supplyLow w := if_neg (not_not.mpr tested)
      rw [if_neg (by simp [tested]), e]
      exact shows_decideCooldown ended
    · have e : new = { w with expired := true } := if_pos tested
      rw [if_pos (by simp [tested]), e]
      exact ended.resetPower rfl

/-! ## Answers to an ON command in flight -/

theorem answerWrites_congr (c : Code) (hon : (u.port p).power.onCommand = (s.port p).power.onCommand) (hc : u.chain = s.chain) :
    answerWrites p c u = answerWrites p c s := by
  cases h : (s.port p).power.onCommand with
  | none => rw [answerWrites_none h, answerWrites_none (hon.trans h)]
  | some a =>
    rw [answerWrites_some h, answerWrites_some (hon.trans h), hc, completionWrites_congr (congrArg ChainEngine.block hc)]

/-- A port's ON command completes before anything else has gone out (R4). -/
theorem Shows.answer (h : Shows s v u []) (c : Code) (ready : AnswerReady p s)
    (hon : (u.port p).power.onCommand = (s.port p).power.onCommand) (hc : u.chain = s.chain) :
    Shows s (Machine.completeOn p c v) (withAnswer p u) (answerWrites p c s) := by
  have answered := h.completeOn c (p := p) fun a ha => by
    rw [h.recordKind nofun, ready a (hon ▸ ha)]
    decide
  rwa [List.append_nil, answerWrites_congr c hon hc] at answered

/-- What an answer shows at the ports. -/
theorem withAnswer_portView (p q : PortId) (s : State) :
    portView ((withAnswer p s).port q) = portView ((modPower p (fun w => { w with onCommand := none }) s).port q) := by
  cases h : (s.port p).power.onCommand with
  | none =>
    rw [withAnswer_none h]
    refine ((sameDevice_modPort ?_).ports q).symm
    rw [← h]
  | some a =>
    rw [withAnswer_some h]
    rfl

theorem withAnswer_portPower (p : PortId) (s : State) :
    ((withAnswer p s).port p).power = { (s.port p).power with onCommand := none } :=
  (congrArg Port.power (withAnswer_portView p p s) :).trans (modPower_port_self ..)

theorem withAnswer_portPower_other {q : PortId} (h : q ≠ p) : ((withAnswer p s).port q).power = (s.port q).power :=
  (congrArg Port.power (withAnswer_portView p q s) :).trans (by rw [modPower_port_other s p q _ h]; rfl)

@[simp] theorem withAnswer_power : (withAnswer p s).power = s.power := by
  unfold withAnswer
  split <;> rfl

@[simp] theorem withAnswer_sweeps : (withAnswer p s).sweeps = s.sweeps := by
  unfold withAnswer
  split <;> rfl

@[simp] theorem withAnswer_alerts (q : PortId) : ((withAnswer p s).port q).alerts = (s.port q).alerts :=
  (congrArg Port.alerts (withAnswer_portView p q s) :).trans (modPower_port_alerts ..)

theorem withAnswer_clsInUse (q : PortId) : ((withAnswer p s).port q).power.clsInUse = (s.port q).power.clsInUse := by
  rcases eq_or_ne q p with rfl | h
  · rw [withAnswer_portPower]
  · rw [withAnswer_portPower_other h]

theorem afterCompletion_cause (a : Addr) (c : ChainEngine) : (afterCompletion a c).cause =
    if c.commands.pending + 1 = c.commands.count then c.cause ||| BitVec.twoPow 3 1 else c.cause := by
  by_cases full : c.commands.pending + 1 = c.commands.count <;>
    simp [afterCompletion, afterCompletionOf, setGatherOf, gatherOf, gatherGroup, groupBit, full]

/-- A completion of a command leaves the cause of ALERTS alone (R185). -/
theorem afterCompletion_cause_alerts (a : Addr) (c : ChainEngine) : (afterCompletion a c).cause.getLsbD 2 = c.cause.getLsbD 2 := by
  rw [afterCompletion_cause]
  split <;> simp

/-- An answer touches neither the cause of ALERTS nor its enable. -/
theorem alertMessage_withAnswer (bit : Nat) : alertMessage p bit (withAnswer p s) = alertMessage p bit s := by
  have cause : (withAnswer p s).chain.cause.getLsbD 2 = s.chain.cause.getLsbD 2 := by
    unfold withAnswer
    split
    · rfl
    · exact afterCompletion_cause_alerts _ _
  have enable : (withAnswer p s).chain.enable = s.chain.enable := by
    unfold withAnswer
    split <;> rfl
  unfold alertMessage
  rw [withAnswer_alerts, cause, enable]

/-! ## The end of the inrush -/

/-- Settles O38. -/
theorem inrushComplete : Obligations.InrushComplete := by
  intro p s _ hst ready _ w u granted
  refine ⟨_, rfl, Shows.ends ?_⟩
  have on := (Shows.refl s).setPower p (f := fun w => { stopTimers w with state := .on, cause := .ok }) rfl
  have up : Shows s (linkUp p (completeOn p .ok (modPower p (fun w => { stopTimers w with state := .on, cause := .ok }) s))) u
      (answerWrites p .ok s) :=
    (on.answer .ok ready (by rw [modPower_port_self]; rfl) rfl).modLink p rfl
  have hgranted : examined u = granted := by
    have upower : u.power = s.power := by simp only [u, modLink_power, withAnswer_power, modPower_power]
    have ustate : ∀ x, powerOf x u = if x = p then .on else powerOf x s := by
      intro x
      simp only [u, powerOf_eq, modLink_port_power]
      rcases eq_or_ne x p with rfl | hx
      · rw [withAnswer_portPower, modPower_port_self, if_pos rfl]
      · rw [withAnswer_portPower_other hx, modPower_port_other _ _ _ _ hx, if_neg hx]
    have ucls : ∀ x, (u.port x).power.clsInUse = (s.port x).power.clsInUse := by
      intro x
      simp only [u, modLink_port_power, withAnswer_clsInUse]
      rcases eq_or_ne x p with rfl | hx
      · rw [modPower_port_self]
      · rw [modPower_port_other _ _ _ _ hx]
    have free : (∀ x, powerOf x u ≠ .inrush) ↔ ∀ x, x ≠ p → powerOf x s ≠ .inrush := by
      refine forall_congr' fun x => ?_
      rw [ustate]
      by_cases hx : x = p <;> simp [hx]
    cases hq : s.power.queue with
    | nil =>
      simp only [granted, hq]
      exact examined_nil (by rw [upower, hq])
    | cons q rest =>
      have fits : Fits q u ↔ (∀ x, x ≠ p → powerOf x s ≠ .inrush) ∧
          s.power.reserved + reservation (s.port q).power.clsInUse ≤ s.power.budget := by
        rw [Fits, free, upower, ucls]
      simp only [granted, hq]
      rw [examined_cons (by rw [upower, hq])]
      by_cases f : Fits q u
      · rw [if_pos f, if_pos (fits.mp f)]
        unfold Machine.granted
        rw [upower, ucls]
      · rw [if_neg f, if_neg (mt fits.mpr f)]
  unfold inrushDone
  rw [if_pos hst, ← hgranted]
  exact up.examineBudget

/-! ## The end of a detection -/

/-- A port's power set, its ON command answered with a cause (R4). -/
theorem shows_answered (c : Code) (ready : AnswerReady p s) {f : PortPower → PortPower} {x : PortPower} (hf : f (s.port p).power = x)
    (hon : x.onCommand = (s.port p).power.onCommand) :
    Shows s (completeOn p c (modPower p f s)) (withAnswer p (modPower p (fun _ => x) s)) (answerWrites p c s) :=
  ((Shows.refl s).setPower p hf).answer c ready (by rw [modPower_port_self]; exact hon) rfl

theorem alertMessage_answered (bit : Nat) (x : PortPower) :
    alertMessage p bit (withAnswer p (modPower p (fun _ => x) s)) = alertMessage p bit s := by
  rw [alertMessage_withAnswer]
  unfold alertMessage
  rw [modPower_port_alerts]
  rfl

@[simp] theorem withAlert_sweeps (bit : Nat) : (withAlert p bit s).sweeps = s.sweeps := by
  unfold withAlert
  split <;> rfl

/-- Settles O37. -/
theorem detectComplete : Obligations.DetectComplete := by
  intro p ohms s _ hst ready hfree w still off i
  have done : exec i s = .next (flushMirrors (detectDone p ohms s)) := rfl
  have free : ∀ x, (withAnswer p (modPower p (fun _ => x) s)).sweeps.front = none →
      (withAnswer p (modPower p (fun _ => x) s)).sweeps.queue = [] := fun x => by
    rw [withAnswer_sweeps, modPower_sweeps]
    exact hfree
  refine ⟨fun h => ⟨_, done, Shows.ends ?_⟩, fun h h' => ⟨_, done, Shows.ends ?_⟩, fun h => ⟨_, done, Shows.ends ?_⟩,
    fun h => ⟨_, done, Shows.ends ?_⟩⟩
  · have sig : judgeSignature ohms = .short := if_pos h
    unfold detectDone
    rw [if_pos hst, sig]
    dsimp only
    rw [trip_unpowered p _ (by rw [hst]; rfl), ← alertMessage_answered]
    exact ((shows_answered .shortDetect ready rfl rfl).setPortAlert p alertTrip).requestAutoSweep _
      (by rw [withAlert_sweeps]; exact free _)
  · have sig : judgeSignature ohms = .head := by
      unfold judgeSignature
      rw [if_neg (by omega), if_pos ⟨h, h'⟩]
    unfold detectDone
    rw [if_pos hst, sig]
    exact (((Shows.refl s).setPower p rfl).modPowerCell rfl).examineBudget
  · have sig : judgeSignature ohms = .open := by
      unfold judgeSignature
      rw [if_neg (by omega), if_neg (by omega), if_pos h]
    unfold detectDone
    rw [if_pos hst, sig]
    exact (shows_answered .noHead ready rfl rfl).requestAutoSweep _ (free _)
  · have sig : judgeSignature ohms = .invalid := by
      unfold judgeSignature
      rw [if_neg (by omega), if_neg (by omega), if_neg (by omega)]
    unfold detectDone
    rw [if_pos hst, sig]
    exact shows_answered .badSignature ready rfl rfl

end Sys2Proof.Machine
end

section
/-! PROOFS. Trips from power (R9 to R12, R15, R144), with nothing else of the port in hand and with anything. -/

namespace Sys2Proof.Machine

variable {s t v u : State} {w : List BusEvent} {p : PortId} {x : PortPower}

/-! ## A trip of a port with nothing else in hand -/

theorem IdlePort.of_parts (hf : (u.port p).frame = (s.port p).frame) (hc : (u.port p).ctl = (s.port p).ctl)
    (hl : (u.port p).lens = (s.port p).lens) (h : IdlePort p s) : IdlePort p u := by
  unfold IdlePort
  rw [hf, hc, hl]
  exact h

theorem idlePort_withAnswer (h : IdlePort p s) : IdlePort p (withAnswer p s) :=
  h.of_parts ((congrArg Port.frame (withAnswer_portView p p s) :).trans (modPower_port_frame ..))
    ((congrArg Port.ctl (withAnswer_portView p p s) :).trans (modPower_port_ctl ..))
    ((congrArg Port.lens (withAnswer_portView p p s) :).trans (modPower_port_lens ..))

theorem idlePort_withAlert (bit : Nat) (h : IdlePort p s) : IdlePort p (withAlert p bit s) := by
  cases hset : (s.port p).alerts.getLsbD bit
  · rw [withAlert_new hset]
    refine h.of_parts ?_ ?_ ?_ <;> rw [modPort_port, if_pos rfl] <;> rfl
  · rwa [withAlert_set hset]

theorem idlePort_modPower (f : PortPower → PortPower) (h : IdlePort p s) : IdlePort p (modPower p f s) :=
  h.of_parts (modPower_port_frame ..) (modPower_port_ctl ..) (modPower_port_lens ..)

theorem withAnswer_withPower (y : PowerCell) (s : State) :
    withAnswer p { s with power := y } = { withAnswer p s with power := y } := by
  cases h : (s.port p).power.onCommand with
  | none => rw [withAnswer_none h, withAnswer_none (s := { s with power := y }) h]
  | some a =>
    rw [withAnswer_some h, withAnswer_some (s := { s with power := y }) h]
    rfl

/-- A port with one alert flag more. -/
abbrev flaggedPort (bit : Nat) (q : Port) : Port := { q with alerts := q.alerts ||| BitVec.twoPow 11 bit }

theorem sameDevice_modPort_comm {q : PortId} (h : q ≠ p) (f g : Port → Port) (s : State) :
    SameDevice (modPort q f (modPort p g s)) (modPort p g (modPort q f s)) := by
  refine ⟨rfl, rfl, rfl, rfl, rfl, rfl, rfl, fun r => ?_⟩
  rw [modPort_portView, modPort_portView, modPort_portView, modPort_portView, modPort_port_other s p q g h,
    modPort_port_other s q p f h.symm]
  split
  · rename_i e; rw [if_neg (e ▸ h)]
  · rfl

/-- An alert and a change of a port that does not touch its alerts leave the same card in either order. -/
theorem sameDevice_modPort_withAlert (q : PortId) (f : Port → Port) (bit : Nat) (s : State)
    (hview : ∀ x y, portView x = portView y → portView (f x) = portView (f y))
    (hcomm : ∀ x, f (flaggedPort bit x) = flaggedPort bit (f x)) (halerts : ∀ x, (f x).alerts = x.alerts) :
    SameDevice (modPort q f (withAlert p bit s)) (withAlert p bit (modPort q f s)) := by
  have same : ((modPort q f s).port p).alerts = (s.port p).alerts := by
    rw [modPort_port]
    split
    · rename_i e; rw [e]; exact halerts _
    · rfl
  cases hset : (s.port p).alerts.getLsbD bit
  · rw [withAlert_new hset, withAlert_new (same ▸ hset)]
    let caused : State := { s with chain := { s.chain with cause := s.chain.cause ||| 4 } }
    rcases eq_or_ne q p with rfl | hq
    · have first : SameDevice (modPort q f (modPort q (flaggedPort bit) caused)) (modPort q (fun x => f (flaggedPort bit x)) caused) :=
        sameDevice_modPort_twice _ f hview
      have last : SameDevice (modPort q (flaggedPort bit) (modPort q f caused)) (modPort q (fun x => flaggedPort bit (f x)) caused) :=
        sameDevice_modPort_twice f (flaggedPort bit) fun x y e => (congrArg (flaggedPort bit) e :)
      simp only [hcomm] at first
      exact first.trans last.symm
    · exact sameDevice_modPort_comm hq f (flaggedPort bit) caused
  · rw [withAlert_set hset, withAlert_set (same ▸ hset)]
    exact .refl _

/-- A powered port whose power reads `x` trips with a cause, with nothing else of it in hand (R12, R15, R144). -/
theorem shows_trip (c : Code) (h : Shows s v (modPower p (fun _ => x) s) []) (hx : isPowered x.state = true)
    (hon : x.onCommand = (s.port p).power.onCommand) (idle : IdlePort p s) (ready : AnswerReady p s)
    (hfree : s.sweeps.front = none → s.sweeps.queue = []) :
    Shows s (trip p c v)
      (examined (autoSwept p c (withAlert p 0 (unpowered p (withAnswer p (modPower p (fun _ => trippedPower c x) s))))))
      (alertMessage p 0 s ++ answerWrites p c s) := by
  have hv : (v.port p).power = x := (h.device.portPower p).trans (modPower_port_self ..)
  have powered : isPowered (powerOf p v) = true := by rw [powerOf_eq, hv]; exact hx
  let cell : PowerCell := { s.power with
    grants := s.power.grants.erase p, reserved := s.power.reserved - reservation x.clsInUse }
  have release : Shows s (releaseGrant p v) (modPower p (fun _ => x) { s with power := cell }) [] :=
    h.modPowerCell (y := cell) (by rw [hv]; rfl)
  have tripped : Shows s (modPower p (trippedPower c) (releaseGrant p v))
    (modPower p (fun _ => trippedPower c x) { s with power := cell }) [] := release.resetPower rfl
  have answered := tripped.answer c ready (by rw [modPower_port_self]; exact hon) rfl
  have alerted := answered.setPortAlert p alertTrip
  have message : alertMessage p alertTrip (withAnswer p (modPower p (fun _ => trippedPower c x) { s with power := cell })) =
      alertMessage p 0 s := (alertMessage_answered (s := { s with power := cell }) 0 _).trans rfl
  rw [message] at alerted
  have idle' : IdlePort p (withAlert p 0 (withAnswer p (modPower p (fun _ => trippedPower c x) { s with power := cell }))) :=
    idlePort_withAlert 0 (idlePort_withAnswer (idlePort_modPower _ idle))
  have removed := shows_powerRemoved_idle alerted idle'
  have both : SameDevice
      (modPort p unpluggedPort (withAlert p 0 (withAnswer p (modPower p (fun _ => trippedPower c x) { s with power := cell }))))
      (withAlert p 0 (unpowered p (withAnswer p (modPower p (fun _ => trippedPower c x) s)))) := by
    have z : withAnswer p (modPower p (fun _ => trippedPower c x) { s with power := cell }) =
        { withAnswer p (modPower p (fun _ => trippedPower c x) s) with power := cell } :=
      withAnswer_withPower cell (modPower p (fun _ => trippedPower c x) s)
    have e : released p (withAnswer p (modPower p (fun _ => trippedPower c x) s)) = cell := by
      unfold released
      rw [withAnswer_power, withAnswer_clsInUse, modPower_port_self]
      rfl
    rw [unpowered_eq, e, ← z]
    exact sameDevice_modPort_withAlert p unpluggedPort 0 _ (fun x y e => (congrArg unpluggedPort e :)) (fun _ => rfl) fun _ => rfl
  have asked := (removed.to both).requestAutoSweep c (p := p) (by
    rw [withAlert_sweeps, unpowered_eq, modPort_sweeps, withAnswer_sweeps, modPower_sweeps]
    exact hfree)
  rw [trip_powered p c powered]
  exact asked.examineBudget

/-! ## A trip, whatever the port has in hand -/

/-- A port without its sweep and the bookkeeping of its mirror. -/
abbrev unswept (q : Port) : Port := { portView q with sweep := {} }

theorem unswept_setSweepState (p q : PortId) (y : SweepState) (s : State) :
    unswept ((setSweepState p y s).port q) = unswept (s.port q) := by
  unfold setSweepState modSweep unswept
  rw [modPort_portView]
  split
  · rename_i e; rw [e]; rfl
  · rfl

theorem unswept_examineSweeps (q : PortId) (s : State) : unswept ((examineSweeps s).port q) = unswept (s.port q) := by
  unfold examineSweeps
  split
  · exact unswept_setSweepState _ q _ _
  · rfl

/-- An auto sweep changes no port but in its sweep (R144). -/
theorem unswept_requestAutoSweep (p q : PortId) (c : Code) (s : State) :
    unswept ((requestAutoSweep p c s).port q) = unswept (s.port q) := by
  unfold requestAutoSweep joinSweeps
  split
  · exact (unswept_examineSweeps q _).trans (unswept_setSweepState p q _ _)
  · rfl

theorem requestAutoSweep_power (p : PortId) (c : Code) (s : State) : (requestAutoSweep p c s).power = s.power := by
  unfold requestAutoSweep joinSweeps examineSweeps
  split
  · split <;> rfl
  · rfl

theorem setPortAlert_getLsbD {bit : Nat} (hb : bit < 11) (s : State) :
    ((setPortAlert p bit s).port p).alerts.getLsbD bit = true := by
  rw [setPortAlert_port]
  cases h : (s.port p).alerts.getLsbD bit
  · rw [if_pos ⟨rfl, rfl⟩, modPort_port, if_pos rfl]
    simp [hb]
  · rw [if_neg (fun e => by cases e.2)]
    exact h

/-- A port but for its alerts. -/
theorem setPortAlert_same (bit : Nat) (s : State) : portView { (setPortAlert p bit s).port p with alerts := 0 } =
    portView { s.port p with alerts := 0 } := by
  rw [setPortAlert_port]
  split
  · rw [modPort_port, if_pos rfl]; rfl
  · rfl

/-- What a trip from power takes of a port, and what it keeps (R4, R12, R15). -/
structure TripTakes (p : PortId) (s t : State) : Prop where
  power : (t.port p).power.state = .tripped ∧ (t.port p).power.onCommand = none ∧
    (t.port p).power.retries = (s.port p).power.retries ∧ (t.port p).power.pendingOn = (s.port p).power.pendingOn ∧
    (t.port p).power.cooldown = some (1000 * (s.port p).power.cooldownS)
  grants : p ∉ t.power.grants
  entries : (t.port p).frame.entries = []
  link : (t.port p).link.state = .down ∧ (t.port p).link.drops = (s.port p).link.drops
  ctl : (t.port p).ctl.state = .suspended ∧ (t.port p).ctl.txn = none ∧ (t.port p).ctl.ready = false ∧
    (t.port p).ctl.identity = none
  known : ∀ u : UnitId, (t.port p).lens.known[u] = none
  flex : (t.port p).flex = (s.port p).flex
  alert : (t.port p).alerts.getLsbD 0 = true

/-- Two ports that differ in their sweep alone have the same power, link, channel and so on. -/
theorem unswept_parts {x y : Port} (h : unswept x = unswept y) :
    x.power = y.power ∧ x.link = y.link ∧ x.ctl = y.ctl ∧ x.lens = y.lens ∧ x.frame = y.frame ∧ x.flex = y.flex ∧
      x.alerts = y.alerts :=
  ⟨(congrArg Port.power h :), (congrArg Port.link h :), (congrArg Port.ctl h :), (congrArg Port.lens h :),
    (congrArg Port.frame h :), (congrArg Port.flex h :), (congrArg Port.alerts h :)⟩

/-- Nothing of a tripped port but its sweep is touched after its trip. -/
theorem unswept_flushed_trip (c : Code) (hs : Ledger s) (h : isPowered (powerOf p s) = true) :
    unswept ((flushMirrors (trip p c s)).port p) = unswept ((tripFromPower p c s).port p) := by
  have waits : p ∉ (requestAutoSweep p c (tripFromPower p c s)).power.queue := by
    rw [requestAutoSweep_power, tripFromPower_power]
    intro hq
    rw [(hs.queueQueued p).mp hq] at h
    cases h
  have flushed := (mirrored_flushMirrors (trip p c s)).device.ports p
  have e : (trip p c s).port p = (requestAutoSweep p c (tripFromPower p c s)).port p := by
    rw [trip_powered p c h, examineBudget_port p waits]
  rw [e] at flushed
  exact (congrArg (fun q : Port => ({ q with sweep := {} } : Port)) flushed :).trans (unswept_requestAutoSweep p p c _)

/-- A port but for its alerts, across a trip (R15). -/
theorem tripFromPower_parts (c : Code) (s : State) : ∃ t, Unplugged p t (tripFromPower p c s) ∧
    (t.port p).link = (s.port p).link ∧ (t.port p).flex = (s.port p).flex ∧ (t.port p).alerts.getLsbD 0 = true := by
  have only : PowerOnly p s (completeOn p c (modPower p (trippedPower c) (releaseGrant p s))) :=
    ((powerOnly_modPowerCell p _ s).trans (powerOnly_modPower p _ _)).trans (powerOnly_completeOn p c _)
  have same := setPortAlert_same (p := p) alertTrip (completeOn p c (modPower p (trippedPower c) (releaseGrant p s)))
  exact ⟨_, unplugged_powerRemoved p _, (congrArg Port.link same :).trans only.link, (congrArg Port.flex same :).trans only.flex,
    setPortAlert_getLsbD (by decide) _⟩

theorem ledger_trip (c : Code) (hs : Ledger s) (h : isPowered (powerOf p s) = true) : Ledger (trip p c s) := by
  rw [trip_powered p c h]
  exact ledger_examineBudget ((frees_requestAutoSweep p c _).ledger ((frees_tripFromPower p c h).ledger hs))

/-- Whatever a powered port has in hand, a trip takes all of it (R4, R12, R15). -/
theorem tripTakes (c : Code) (hs : Ledger s) (h : isPowered (powerOf p s) = true) : TripTakes p s (flushMirrors (trip p c s)) := by
  obtain ⟨hpower, hlink, hctl, hlens, hframe, hflex, halerts⟩ := unswept_parts (unswept_flushed_trip c hs h)
  obtain ⟨t, off, link, flex, alert⟩ := tripFromPower_parts (p := p) c s
  have hw := hpower.trans (tripFromPower_portPower p c s)
  have device := (mirrored_flushMirrors (trip p c s)).device
  refine ⟨?_, ?_, ?_, ?_, ?_, ?_, ?_, ?_⟩
  · rw [hw]
    exact ⟨rfl, rfl, rfl, rfl, rfl⟩
  · rw [device.power, (ledger_trip c hs h).grantsPowered, ← device.powerState, powerOf_eq, hw]
    exact Bool.false_ne_true
  · rw [hframe]; exact off.dormant.noEntry
  · rw [hlink, off.link, link]; exact ⟨rfl, rfl⟩
  · rw [hctl]; exact ⟨off.dormant.suspended, off.txn, off.dormant.notReady, off.identity⟩
  · rw [hlens]; exact off.known
  · rw [hflex, off.flex, flex]
  · rw [halerts, off.alerts, alert]

/-- A current at the short threshold (R11). -/
theorem currentSampled_short {ma : U16} (hpow : isPowered (powerOf p s) = true)
    (hshort : shortLimit (s.port p).power.clsInUse ≤ ma.toNat) :
    currentSampled p ma s = trip p .short (modPower p (fun w => { w with loadMa := ma }) s) :=
  (if_pos hpow).trans (if_pos hshort)

/-- A current read just before a trip is none of what the trip takes. -/
theorem TripTakes.of_read {ma : U16} (h : TripTakes p (modPower p (fun w => { w with loadMa := ma }) s) t) : TripTakes p s t := by
  obtain ⟨power, grants, entries, link, ctl, known, flex, alert⟩ := h
  rw [modPower_port_self] at power
  rw [modPower_port_link] at link
  rw [modPower_port_flex] at flex
  exact ⟨power, grants, entries, link, ctl, known, flex, alert⟩

/-- Settles O39. -/
theorem trips : Obligations.Trips := by
  refine ⟨fun p s _ idle ready hfree => ?_, fun p ma c s hs hc => ?_⟩
  · intro w tripped puts
    have now : Shows s s (modPower p (fun _ => w) s) [] := (Shows.refl s).to (sameDevice_modPort rfl).symm
    refine ⟨fun hst => ⟨_, rfl, Shows.ends ?_⟩, fun hst => ⟨_, rfl, Shows.ends ?_⟩, fun ma hst hshort => ⟨_, rfl, Shows.ends ?_⟩⟩
    · unfold inrushExpired
      rw [if_pos (show powerOf p s = .inrush from hst)]
      exact shows_trip .inrushFail now (by rw [hst]; rfl) rfl idle ready hfree
    · unfold foldbackExpired
      rw [if_pos (show powerOf p s = .foldback from hst)]
      exact shows_trip .overload now (by rw [hst]; rfl) rfl idle ready hfree
    · have hpow : isPowered w.state = true := by rcases hst with h | h | h <;> rw [h] <;> rfl
      have read : Shows s (modPower p (fun w => { w with loadMa := ma }) s) (modPower p (fun _ => { w with loadMa := ma }) s) [] :=
        (Shows.refl s).setPower p rfl
      rw [currentSampled_short hpow hshort]
      exact shows_trip .short read hpow rfl idle ready hfree
  · obtain ⟨t, ht, taken⟩ : ∃ t, exec c s = .next t ∧ TripTakes p s t := by
      rcases hc with ⟨rfl, hst⟩ | ⟨rfl, hst⟩ | ⟨rfl, hpow, hshort⟩
      · refine ⟨_, rfl, ?_⟩
        unfold inrushExpired
        rw [if_pos hst]
        exact tripTakes _ hs.ledger (by rw [hst]; rfl)
      · refine ⟨_, rfl, ?_⟩
        unfold foldbackExpired
        rw [if_pos hst]
        exact tripTakes _ hs.ledger (by rw [hst]; rfl)
      · refine ⟨_, rfl, .of_read (ma := ma) ?_⟩
        rw [currentSampled_short hpow hshort]
        refine tripTakes _ ((frees_modPower_same p _ s rfl rfl).ledger hs.ledger) ?_
        rw [powerOf_eq, modPower_port_self]
        exact hpow
    obtain ⟨hstate, hon, hretries, hpending, hcool⟩ := taken.power
    obtain ⟨hdown, hdrops⟩ := taken.link
    obtain ⟨hsus, htxn, hready, hid⟩ := taken.ctl
    exact ⟨t, ht, hstate, hon, hretries, hpending, hcool, taken.grants, taken.entries, hdown, hdrops, hsus, htxn, hready, hid,
      taken.known, taken.flex, taken.alert⟩

end Sys2Proof.Machine
end

section
/-! PROOFS. PORT_POWER OFF in every power state (R4, R14, R15). -/

namespace Sys2Proof.Machine

variable {s t v u : State} {w : List BusEvent} {p : PortId} {x : PortPower} {a b : Addr}

/-! ## The host turns a port off -/

theorem exec_portPowerOff (hr : s.running = true) (hp : p.val < s.chain.portCount.toNat) :
    exec (.portPowerOff a (BitVec.ofNat 8 p.val)) s = .next (flushMirrors (takePowerOff a p (takeCommand a s))) := by
  refine (execRecord_running (c := .portPower (BitVec.ofNat 8 p.val) 0) hr).trans ?_
  unfold ownCommand
  dsimp only
  rw [withPort_named (s := takeCommand a s) hp]
  rfl

/-- The answer to an ON command in flight comes before everything else that turning a port off does (R4, log 32). -/
theorem hostOff_answered (p : PortId) (s : State) : hostOff p s = hostOff p (completeOn p .cancelled s) := by
  have on : ((completeOn p .cancelled s).port p).power.onCommand = none := by rw [completeOn_portPower]
  have state : powerOf p (completeOn p .cancelled s) = powerOf p s := by rw [powerOf_eq, completeOn_portPower]; rfl
  unfold hostOff
  rw [state, completeOn_none on]

/-- A powered port is turned off, and the budget queue examined (R14). -/
theorem hostOff_powered (h : isPowered (powerOf p s) = true) :
    hostOff p s = examineBudget (turnOff p .hostOff (completeOn p .cancelled s)) := by
  unfold hostOff
  rcases (isPowered_iff _).mp h with e | e | e <;> rw [e]

section
variable (h : Shows s v (modPower p (fun _ => x) u) w) (hon : x.onCommand = none)
include h hon

theorem hostOff_eq : powerOf p v = x.state ∧ completeOn p .cancelled v = v := by
  have hv : (v.port p).power = x := (h.device.portPower p).trans (modPower_port_self ..)
  exact ⟨by rw [powerOf_eq, hv], completeOn_none (by rw [hv]; exact hon)⟩

/-- OFF and TRIPPED lose retries and pending-on alone (R14). -/
theorem shows_hostOff_inactive (hst : x.state = .off ∨ x.state = .tripped) :
    Shows s (hostOff p v) (modPower p (fun _ => { x with retries := 0, pendingOn := false }) u) w := by
  obtain ⟨hs, he⟩ := hostOff_eq h hon
  have e : hostOff p v = modPower p (fun w => { w with retries := 0, pendingOn := false }) v := by
    unfold hostOff
    rw [hs, he]
    rcases hst with hst | hst <;> rw [hst]
  rw [e]
  exact h.resetPower rfl

/-- DETECT is abandoned (R14). -/
theorem shows_hostOff_detect (hst : x.state = .detect) :
    Shows s (hostOff p v) (modPower p (fun _ => offPower .hostOff x) u) w := by
  obtain ⟨hs, he⟩ := hostOff_eq h hon
  unfold hostOff turnOff
  dsimp only
  rw [he, hs, hst]
  exact h.resetPower rfl

/-- A QUEUED port leaves the budget queue, which is examined (R7, R14). -/
theorem shows_hostOff_queued (hst : x.state = .queued) :
    Shows s (hostOff p v) (examined { modPower p (fun _ => offPower .hostOff x) u with
      power := { u.power with queue := u.power.queue.erase p } }) w := by
  obtain ⟨hs, he⟩ := hostOff_eq h hon
  unfold hostOff turnOff
  dsimp only
  rw [he, hs, hst]
  have left : Shows s (leaveQueue p v) (modPower p (fun _ => x) { u with power := { u.power with queue := u.power.queue.erase p } }) w :=
    h.modPowerCell (y := { u.power with queue := u.power.queue.erase p }) rfl
  exact (left.resetPower (y := offPower .hostOff x) rfl).examineBudget

/-- A powered port with nothing else in hand is unpowered, and the budget queue is examined (R8, R14, R15). -/
theorem shows_hostOff_powered (hst : isPowered x.state = true) (idle : IdlePort p u)
    (hcls : x.clsInUse = (u.port p).power.clsInUse) :
    Shows s (hostOff p v) (examined (modPower p (fun _ => offPower .hostOff x) (unpowered p u))) w := by
  obtain ⟨hs, he⟩ := hostOff_eq h hon
  have hv : (v.port p).power = x := (h.device.portPower p).trans (modPower_port_self ..)
  rw [hostOff_powered (by rw [hs]; exact hst), he, turnOff_powered p .hostOff (by rw [hs]; exact hst)]
  have release : Shows s (releaseGrant p v) (modPower p (fun _ => x) { u with power := released p u }) w :=
    h.modPowerCell (y := released p u) (by rw [hv, hcls]; rfl)
  have off : Shows s (enterOff p .hostOff (releaseGrant p v))
    (modPower p (fun _ => offPower .hostOff x) { u with power := released p u }) w := release.resetPower rfl
  refine (Shows.to (shows_powerRemoved_idle off (idlePort_modPower _ idle)) ?_).examineBudget
  have first : SameDevice (modPort p unpluggedPort (modPower p (fun _ => offPower .hostOff x) { u with power := released p u }))
      (modPort p (fun q => unpluggedPort { q with power := offPower .hostOff x }) { u with power := released p u }) :=
    sameDevice_modPort_twice _ _ fun x y e => (congrArg unpluggedPort e :)
  have last : SameDevice (modPower p (fun _ => offPower .hostOff x) (unpowered p u))
      (modPort p (fun q => unpluggedPort { q with power := offPower .hostOff x }) { u with power := released p u }) :=
    sameDevice_modPort_twice unpluggedPort _ fun _ _ e => portView_power e rfl
  exact first.trans last.symm

end

theorem examined_chain (s : State) : (examined s).chain = s.chain := by
  unfold examined
  split
  · rfl
  · dsimp only
    split <;> rfl

theorem Shows.examinedWith {c : ChainEngine} (h : Shows s v (examined { u with chain := c }) w) :
    Shows s v { examined u with chain := c } w := by
  rwa [examined_withChain] at h

/-! ## Bytes near a completion -/

/-- A byte reads as before a write, or as one of the bytes written. -/
theorem readByte_writeBytes_mem (m : List Host.Cell) (a : Addr) (bs : List Byte) (hbs : bs.length ≤ addressSpace) {y : Nat}
    (hy : y < addressSpace) : readByte (writeBytes m a bs) y = readByte m y ∨ readByte (writeBytes m a bs) y ∈ bs := by
  by_cases hout : bs.length ≤ distanceFrom a y
  · exact .inl (readByte_writeBytes_outside m a bs y hy hout)
  · have hi : distanceFrom a y < bs.length := Nat.not_le.mp hout
    have hat : (a.toNat + distanceFrom a y) % addressSpace = y := by
      have ha : a.toNat < addressSpace := by simpa [addressSpace] using a.isLt
      unfold distanceFrom
      unfold addressSpace at *
      omega
    refine .inr ?_
    have hread := readByte_writeBytes_inside m a bs (distanceFrom a y) hi hbs
    rw [hat] at hread
    rw [hread]
    exact List.getElem_mem hi

/-- A command record stays one, or what TAKEN leaves of it is no lens record (R200). -/
theorem recordKind_takeCommand (hk : recordKind b s = 1) : recordKind b (takeCommand a s) ≠ 3 := by
  have hb : b.toNat < addressSpace := by simpa [addressSpace] using b.isLt
  have hmem : (takeCommand a s).mem = writeBytes s.mem (a + 4) (leBytes 4 2) := rfl
  unfold recordKind at hk ⊢
  rw [hmem]
  rcases readByte_writeBytes_mem s.mem (a + 4) (leBytes 4 2) (by rw [leBytes_length]; decide) hb with h | h
  · rw [h, hk]
    decide
  · have small : ∀ y ∈ leBytes 4 2, y.toNat ≠ 3 := by decide
    exact small _ h

/-- The writes of a completion lie in its record and in the entry of its chain's progress. -/
theorem completionWrites_apart {c : ChainEngine} {code : Code} {r : List Byte} {y : Nat} (hy : y < addressSpace)
    (hrec : 0x100 ≤ distanceFrom b y) (hprog : 0x10 ≤ distanceFrom (blockAt 0xC0 s) y) (hr : r.length ≤ 0xA0) :
    ∀ z ∈ storedRuns (completionWrites s c b code r), z.2 ≤ distanceFrom z.1 y := by
  have message : ∀ (q : Prop) [Decidable q] (g : Group), storedRuns (if q then [.message g] else []) = [] := by
    intro q _ g
    split <;> rfl
  unfold completionWrites completionTail
  dsimp only
  rw [storedRuns_append, storedRuns_append, message, List.nil_append]
  have prog : ∀ k len, k + len ≤ 0x10 → len ≤ distanceFrom (blockAt (0xC0 + k) s) y := fun k len hk => by
    rw [blockAt_add]
    exact le_distanceFrom_part hk hy hprog
  have own : ∀ k len, k + len ≤ 0x100 → len ≤ distanceFrom (b + BitVec.ofNat 64 k) y := fun k len hk =>
    le_distanceFrom_part hk hy hrec
  have area : (r ++ zeros (0xA0 - r.length)).length = 0xA0 := by rw [List.length_append, zeros_length]; omega
  intro z hz
  simp only [storedRuns, List.cons_append, List.nil_append, List.mem_cons, List.not_mem_nil, or_false, u32_length, u64_length,
    leBytes_length, area] at hz
  rcases hz with rfl | rfl | rfl | rfl | rfl
  · exact prog 0 4 (by decide)
  · exact prog 8 8 (by decide)
  · exact own 4 4 (by decide)
  · exact own 0x60 0xA0 (by decide)
  · exact own 0x14 2 (by decide)

/-- Two ports that differ in their mirror's bookkeeping alone have the same power, link, channel and so on. -/
theorem portView_parts {x y : Port} (h : portView x = portView y) :
    x.power = y.power ∧ x.link = y.link ∧ x.ctl = y.ctl ∧ x.lens = y.lens ∧ x.frame = y.frame ∧ x.flex = y.flex ∧
      x.alerts = y.alerts :=
  ⟨(congrArg Port.power h :), (congrArg Port.link h :), (congrArg Port.ctl h :), (congrArg Port.lens h :),
    (congrArg Port.frame h :), (congrArg Port.flex h :), (congrArg Port.alerts h :)⟩

theorem frees_takeCommand (a : Addr) (s : State) : Frees s (takeCommand a s) :=
  frees_of_keeps fun _ _ => (keeps_takeRecord .command a s).trans (keeps_dmaWrite _ _ _)

/-- What a powered port holds after it has been turned off, the budget queue examined, and a command completed (R14, R15). -/
theorem flushed_turnOff (a : Addr) (c : Code) (r : List Byte) (hs : Ledger s) (h : isPowered (powerOf p s) = true) :
    let t := flushMirrors (completeCommand a .ok r (examineBudget (turnOff p c s)))
    portView (t.port p) = portView ((turnOff p c s).port p) ∧ p ∉ t.power.grants ∧ t.chain.progress[(0 : Fin 17)].last = a := by
  intro t
  have device : SameDevice t (completeCommand a .ok r (examineBudget (turnOff p c s))) := (mirrored_flushMirrors _).device
  have kept := cardKept_completeCommand a .ok r (examineBudget (turnOff p c s))
  have waits : p ∉ (turnOff p c s).power.queue := by
    rw [turnOff_power p c h]
    intro hq
    rw [(hs.queueQueued p).mp hq] at h
    cases h
  have hport : portView (t.port p) = portView ((turnOff p c s).port p) :=
    (device.ports p).trans (by rw [kept.port, examineBudget_port p waits])
  have ledger : Ledger (examineBudget (turnOff p c s)) := ledger_examineBudget ((frees_turnOff p c s).ledger hs)
  refine ⟨hport, ?_, ?_⟩
  · rw [device.power, kept.power, ledger.grantsPowered, powerOf_eq, examineBudget_port p waits, turnOff_portPower p c h]
    exact Bool.false_ne_true
  · rw [device.progress, completeCommand_chain]
    exact congrArg Progress.last (Vector.getElem_set_self ..)

/-- Settles O21. -/
theorem powerOff : Obligations.PowerOff := by
  refine ⟨fun a p s ⟨_, hr, hk⟩ hp idle hon => ?_, fun a b p s ⟨_, hr, hk⟩ hkb apart hp hon hst => ?_,
    fun a p s ⟨_, hr, hk⟩ hp hs hst => ?_⟩
  · intro w off u
    refine ⟨_, exec_portPowerOff hr hp, Shows.commandDone ?_ hk (by simp)⟩
    have base : Shows s (takeCommand a s) (modPower p (fun _ => w) { s with chain := afterTake a s.chain }) [takenWrite a] :=
      (shows_takeCommand a s).to (sameDevice_modPort rfl).symm
    cases hst : (s.port p).power.state with
    | off | tripped =>
      have e : u = modPower p (fun w => { w with retries := 0, pendingOn := false }) s := by simp only [u, w, hst]
      rw [e]
      exact shows_hostOff_inactive base hon (by simp [w, hst])
    | detect =>
      have e : u = modPower p (fun _ => off) s := by simp only [u, w, hst]
      rw [e]
      exact shows_hostOff_detect base hon hst
    | queued =>
      have e : u = examined { modPower p (fun _ => off) s with power := { s.power with queue := s.power.queue.erase p } } := by
        simp only [u, w, hst]
      rw [e, examined_chain]
      exact (shows_hostOff_queued base hon hst).examinedWith
    | inrush | on | foldback =>
      have e : u = examined (modPower p (fun _ => off) (unpowered p s)) := by simp only [u, w, hst]
      rw [e, examined_chain]
      exact (shows_hostOff_powered base hon (by simp only [w, hst, isPowered]) idle rfl).examinedWith
  · intro w kept off u c1
    refine ⟨_, exec_portPowerOff hr hp, Shows.ends ?_⟩
    have taken := shows_takeCommand a s
    have answered : Shows s (completeOn p .cancelled (takeCommand a s))
        (modPower p (fun _ => { w with onCommand := none }) { s with chain := afterCompletion b c1 })
        (completionWrites s c1 b .cancelled [] ++ [takenWrite a]) := by
      rw [completeOn_some (s := takeCommand a s) hon]
      exact (taken.setPower p rfl).completeCommand .cancelled (recordKind_takeCommand hkb) (by simp)
    have kind : ∀ v' u', Shows s v' u' (completionWrites s c1 b .cancelled [] ++ [takenWrite a]) → recordKind a v' ≠ 3 := by
      intro v' u' h
      rw [h.recordKind, hk]
      · decide
      · intro z hz
        rw [storedRuns_append] at hz
        rcases List.mem_append.mp hz with hz | hz
        · exact completionWrites_apart (by simpa [addressSpace] using a.isLt) apart.1 apart.2 (by simp) z hz
        · exact takenWrite_apart a z hz
    have off_last : ∀ u' : State, Shows s (hostOff p (takeCommand a s)) { u' with chain := afterCompletion b c1 }
        (completionWrites s c1 b .cancelled [] ++ [takenWrite a]) →
        Shows s (takePowerOff a p (takeCommand a s)) { u' with chain := afterCompletion a (afterCompletion b c1) }
          (completionWrites s (afterCompletion b c1) a .ok [] ++ completionWrites s c1 b .cancelled [] ++ [takenWrite a]) := by
      intro u' h
      rw [List.append_assoc]
      exact h.completeCommand .ok (kind _ _ h) (by simp)
    refine off_last u ?_
    rw [hostOff_answered]
    have hpow : isPowered w.state = false := hst
    cases hw : w.state with
    | off | tripped =>
      have e : u = modPower p (fun _ => kept) s := by simp only [u, hw]
      rw [e]
      exact shows_hostOff_inactive answered rfl (by simp [hw])
    | detect =>
      have e : u = modPower p (fun _ => off) s := by simp only [u, hw]
      rw [e]
      exact shows_hostOff_detect answered rfl hw
    | queued =>
      have e : u = examined { modPower p (fun _ => off) s with power := { s.power with queue := s.power.queue.erase p } } := by
        simp only [u, hw]
      rw [e]
      exact (shows_hostOff_queued answered rfl hw).examinedWith
    | inrush | on | foldback => rw [hw] at hpow; cases hpow
  · have answered : PowerOnly p (takeCommand a s) (completeOn p .cancelled (takeCommand a s)) := powerOnly_completeOn p _ _
    have hw := completeOn_portPower p .cancelled (takeCommand a s)
    have ledger : Ledger (completeOn p .cancelled (takeCommand a s)) :=
      (frees_completeOn p _ _).ledger ((frees_takeCommand a s).ledger hs.ledger)
    have e : takePowerOff a p (takeCommand a s) = completeCommand a .ok []
        (examineBudget (turnOff p .hostOff (completeOn p .cancelled (takeCommand a s)))) :=
      congrArg (completeCommand a .ok []) (hostOff_powered hst)
    generalize completeOn p .cancelled (takeCommand a s) = s1 at answered hw ledger e
    have powered : isPowered (powerOf p s1) = true := by rw [powerOf_eq, hw]; exact hst
    have flushed := flushed_turnOff a .hostOff [] ledger powered
    have off := unplugged_turnOff p .hostOff powered
    refine ⟨_, (exec_portPowerOff hr hp).trans (by rw [e]), ?_⟩
    generalize flushMirrors (completeCommand a .ok [] (examineBudget (turnOff p .hostOff s1))) = t at flushed
    obtain ⟨hport, grants, progress⟩ := flushed
    obtain ⟨hpower, hlink, hctl, hlens, hframe, hflex, halerts⟩ := portView_parts hport
    rw [turnOff_portPower p .hostOff powered, hw] at hpower
    rw [off.link, answered.link, takeCommand_port] at hlink
    rw [off.flex, answered.flex, takeCommand_port] at hflex
    rw [off.alerts, answered.alerts, takeCommand_port] at halerts
    rw [powerOf_eq, hpower, hlink, hctl, hlens, hframe]
    exact ⟨rfl, rfl, rfl, rfl, rfl, grants, off.dormant.noEntry, rfl, rfl, off.dormant.suspended, off.txn, off.dormant.notReady,
      off.identity, off.known, hflex, halerts, progress⟩

end Sys2Proof.Machine
end

section
/-! PROOFS. SET_BUDGET: the budget applied, the newest ports shed, the waiting head granted (R16, R17). -/

namespace Sys2Proof.Machine

variable {s t v u : State} {w : List BusEvent} {p : PortId} {a : Addr}

theorem exec_setBudget (budget : U32) (hr : s.running = true) :
    exec (.setBudget a budget) s = .next (flushMirrors (takeSetBudget a budget (takeCommand a s))) :=
  execRecord_running (c := .setBudget budget) hr

/-! ## Shedding -/

/-- With the reserved sum within the budget nothing is shed. -/
theorem shedLoop_within (n : Nat) (shed : List PortId) (h : s.power.reserved ≤ s.power.budget) : shedLoop n s shed = (s, shed) := by
  cases n with
  | zero => rfl
  | succ n => exact if_pos h

theorem shedLoop_sheds (n : Nat) (shed : List PortId) (h : s.power.budget < s.power.reserved)
    (hlast : s.power.grants.getLast? = some p) : shedLoop (n + 1) s shed = shedLoop n (shedPort p s) (p :: shed) := by
  rw [shedLoop, if_neg (Nat.not_le.mpr h), hlast]

/-- A port that has been shed (R15, R17). -/
structure Shed (q : Port) : Prop where
  power : q.power.state = .off ∧ q.power.cause = .shed ∧ q.power.retries = 0 ∧ q.power.pendingOn = false
  alert : q.alerts.getLsbD 1 = true
  link : q.link.state = .down
  entries : q.frame.entries = []
  notReady : q.ctl.ready = false

/-- A powered port that is shed (R17). -/
theorem shed_shedPort (h : isPowered (powerOf p s) = true) : Shed ((shedPort p s).port p) := by
  have off := unplugged_turnOff p .shed h
  have only := powerOnly_completeOn p .shed (turnOff p .shed s)
  have same := portView_parts (setPortAlert_same (p := p) alertShed (completeOn p .shed (turnOff p .shed s)))
  obtain ⟨hpower, hlink, hctl, -, hframe, -, -⟩ := same
  unfold shedPort
  refine ⟨?_, setPortAlert_getLsbD (by decide) _, ?_, ?_, ?_⟩
  · rw [setPortAlert_portPower, completeOn_portPower, turnOff_portPower p .shed h]
    exact ⟨rfl, rfl, rfl, rfl⟩
  · exact (congrArg LinkRx.state (hlink.trans (only.link.trans off.link)) :)
  · exact (congrArg FrameRx.entries (hframe.trans only.frame) :).trans off.dormant.noEntry
  · exact (congrArg Channel.ready (hctl.trans only.ctl) :).trans off.dormant.notReady

theorem shedPort_port_other {q : PortId} (h : isPowered (powerOf p s) = true) (hq : q ≠ p) :
    (shedPort p s).port q = s.port q := by
  unfold shedPort
  rw [setPortAlert_port_other p _ hq, (powerOnly_completeOn p .shed _).others q hq, (unplugged_turnOff p .shed h).others q hq]

theorem shedPort_clsInUse (h : isPowered (powerOf p s) = true) (q : PortId) :
    ((shedPort p s).port q).power.clsInUse = (s.port q).power.clsInUse := by
  rcases eq_or_ne q p with rfl | hq
  · unfold shedPort
    rw [setPortAlert_portPower, completeOn_portPower, turnOff_portPower _ .shed h]
  · rw [shedPort_port_other h hq]

theorem dmaOnly_shedPort (h : isPowered (powerOf p s) = true) : DmaOnly s (shedPort p s) :=
  ((unplugged_turnOff p .shed h).dma.trans (powerOnly_completeOn p .shed _).dma).trans (dmaOnly_setPortAlert p _ _)

/-- Shedding a port with nothing else in hand writes nothing into host memory. -/
theorem shedPort_mem (h : isPowered (powerOf p s) = true) (idle : IdlePort p s) (hon : (s.port p).power.onCommand = none) :
    (shedPort p s).mem = s.mem := by
  have off : Shows s (enterOff p .shed (releaseGrant p s)) (enterOff p .shed (releaseGrant p s)) [] :=
    ⟨.refl _, rfl, rfl, rfl, rfl⟩
  have mem : (turnOff p .shed s).mem = s.mem := by
    rw [turnOff_powered p .shed h]
    exact (shows_powerRemoved_idle off (idlePort_modPower _ idle)).mem
  have on : ((turnOff p .shed s).port p).power.onCommand = none := by
    rw [turnOff_portPower p .shed h]
    exact hon
  unfold shedPort setPortAlert
  rw [completeOn_none on]
  split
  · exact mem
  · rw [setCause_mem]
    exact mem

/-- Where shedding from the newest end of the grant-order list stops: after so many ports kept. -/
structure ShedTo (s t : State) (shed : List PortId) (k : Nat) : Prop where
  le : k ≤ s.power.grants.length
  shed : shed = s.power.grants.drop k
  power : t.power = { s.power with
    grants := s.power.grants.take k, reserved := ((s.power.grants.take k).map (heldBy s)).sum }
  fits : ((s.power.grants.take k).map (heldBy s)).sum ≤ s.power.budget
  noFurther : k < s.power.grants.length → s.power.budget < ((s.power.grants.take (k + 1)).map (heldBy s)).sum
  gone : ∀ p ∈ s.power.grants.drop k, Shed (t.port p)
  others : ∀ p, p ∉ s.power.grants.drop k → t.port p = s.port p
  dma : DmaOnly s t
  still : (∀ p ∈ s.power.grants.drop k, IdlePort p s ∧ (s.port p).power.onCommand = none) → t.mem = s.mem

theorem shedTo_none (hs : Ledger s) (h : s.power.reserved ≤ s.power.budget) : ShedTo s s [] s.power.grants.length where
  le := le_refl _
  shed := by rw [List.drop_length]
  power := by rw [List.take_length, ← hs.reservedSum]
  fits := by rw [List.take_length, ← hs.reservedSum]; exact h
  noFurther h := absurd h (lt_irrefl _)
  gone := by rw [List.drop_length]; exact nofun
  others _ _ := rfl
  dma := .refl s
  still _ := rfl

/-- One port more shed from the newest end (R17). -/
theorem ShedTo.step {l shed : List PortId} {k : Nat} (hs : Ledger s) (exceeds : s.power.budget < s.power.reserved)
    (hl : s.power.grants = l ++ [p]) (h : ShedTo (shedPort p s) t shed k) : ShedTo s t (shed ++ [p]) k := by
  have powered : isPowered (powerOf p s) = true := (hs.grantsPowered p).mp (by rw [hl]; simp)
  have fresh : p ∉ l := by
    have once := hs.grantsOnce
    rw [hl, List.nodup_append] at once
    exact fun hp => once.2.2 p hp p (by simp) rfl
  have hpower := shedPort_power p powered
  have hgrants : (shedPort p s).power.grants = l := by
    rw [hpower]
    show s.power.grants.erase p = l
    rw [hl, List.erase_append_right _ fresh, List.erase_cons_head, List.append_nil]
  have held : heldBy (shedPort p s) = heldBy s := funext fun q => congrArg reservation (shedPort_clsInUse powered q)
  have budget : (shedPort p s).power.budget = s.power.budget := by rw [hpower]
  obtain ⟨le, rfl, power, fits, noFurther, gone, others, dma, still⟩ := h
  rw [hgrants] at le noFurther gone others power fits still
  rw [held, budget] at fits noFurther
  have drop : s.power.grants.drop k = l.drop k ++ [p] := by rw [hl, List.drop_append_of_le_length le]
  have take : s.power.grants.take k = l.take k := by rw [hl, List.take_append_of_le_length le]
  have other : ∀ q ∈ l.drop k, q ≠ p := fun q hq e => fresh (e ▸ List.mem_of_mem_drop hq)
  constructor
  case le => rw [hl, List.length_append]; exact le_trans le (Nat.le_add_right ..)
  case shed => rw [drop, hgrants]
  case power => rw [power, take, held, hpower]
  case fits => rw [take]; exact fits
  case noFurther =>
    intro hk
    by_cases inner : k < l.length
    · rw [hl, List.take_append_of_le_length inner]
      exact noFurther inner
    · rw [List.take_of_length_le (by rw [hl, List.length_append, List.length_singleton]; omega), ← hs.reservedSum]
      exact exceeds
  case gone =>
    intro q hq
    rw [drop, List.mem_append, List.mem_singleton] at hq
    rcases hq with hq | rfl
    · exact gone q hq
    · rw [others q fun e => other q e rfl]
      exact shed_shedPort powered
  case others =>
    intro q hq
    rw [drop, List.mem_append, List.mem_singleton, not_or] at hq
    rw [others q hq.1, shedPort_port_other powered hq.2]
  case dma => exact (dmaOnly_shedPort powered).trans dma
  case still =>
    intro idle
    rw [drop] at idle
    have own := idle p (by simp)
    refine (still fun q hq => ?_).trans (shedPort_mem powered own.1 own.2)
    have hq' := idle q (List.mem_append_left _ hq)
    have e := shedPort_port_other powered (other q hq)
    exact ⟨hq'.1.of_parts (by rw [e]) (by rw [e]) (by rw [e]), by rw [e]; exact hq'.2⟩

/-- The shedding of ports, from the newest on, until the rest fits and no further (R17). -/
theorem shedTo_shedLoop (n : Nat) (s : State) (shed : List PortId) (hs : Ledger s) (hn : s.power.grants.length ≤ n) :
    ∃ t gone k, shedLoop n s shed = (t, gone ++ shed) ∧ ShedTo s t gone k := by
  induction n generalizing s shed with
  | zero =>
    have empty : s.power.grants = [] := List.length_eq_zero_iff.mp (Nat.le_zero.mp hn)
    exact ⟨s, [], _, rfl, shedTo_none hs (by rw [hs.reservedSum, empty]; exact Nat.zero_le _)⟩
  | succ n ih =>
    by_cases within : s.power.reserved ≤ s.power.budget
    · exact ⟨s, [], _, shedLoop_within _ _ within, shedTo_none hs within⟩
    · have exceeds := Nat.not_le.mp within
      rcases List.eq_nil_or_concat s.power.grants with empty | ⟨l, p, hl⟩
      · rw [hs.reservedSum, empty] at exceeds
        exact absurd exceeds (Nat.not_lt_zero _)
      · rw [List.concat_eq_append] at hl
        have powered : isPowered (powerOf p s) = true := (hs.grantsPowered p).mp (by rw [hl]; simp)
        obtain ⟨t, gone, k, he, ht⟩ := ih (shedPort p s) (p :: shed) ((frees_shedPort p s).ledger hs) (by
          rw [shedPort_power p powered]
          have := List.length_erase_of_mem (a := p) (l := s.power.grants) (by rw [hl]; simp)
          dsimp only
          omega)
        refine ⟨t, gone ++ [p], k, ?_, ht.step hs exceeds hl⟩
        rw [shedLoop_sheds n shed exceeds (by rw [hl]; exact List.getLast?_concat), he, List.append_assoc]
        rfl

/-! ## SET_BUDGET -/

theorem portsMask_foldl (ps : List PortId) (m : Byte) (q : PortId) :
    (ps.foldl (fun m p => m ||| BitVec.twoPow 8 p.val) m).getLsbD q.val = (m.getLsbD q.val || decide (q ∈ ps)) := by
  induction ps generalizing m with
  | nil => simp
  | cons p ps ih =>
    have bit : (BitVec.twoPow 8 p.val).getLsbD q.val = decide (q = p) := by
      rw [BitVec.getLsbD_twoPow]
      simp [Fin.ext_iff, eq_comm]
    rw [List.foldl_cons, ih, BitVec.getLsbD_or, bit, Bool.or_assoc]
    simp

/-- The mask of some ports has the bit of each of them and no other. -/
theorem portsMask_getLsbD (ps : List PortId) (q : PortId) : (portsMask ps).getLsbD q.val = decide (q ∈ ps) := by
  unfold portsMask
  rw [portsMask_foldl]
  simp

/-- The state in which SET_BUDGET begins to shed: the record taken, the budget applied (R16). -/
abbrev budgeted (a : Addr) (n : Nat) (s : State) : State := modPowerCell (fun c => { c with budget := n }) (takeCommand a s)

theorem takeSetBudget_eq {budget : U32} {gone : List PortId}
    (h : shedLoop (budgeted a (min budget.toNat 1920) s).power.grants.length (budgeted a (min budget.toNat 1920) s) [] = (t, gone)) :
    takeSetBudget a budget (takeCommand a s) = examineBudget
      (completeCommand a .ok (leBytes 4 (min budget.toNat 1920) ++ u8 (portsMask gone).toNat) t) := by
  unfold takeSetBudget maxBudget
  dsimp only
  rw [h]

theorem examineBudget_bus (s : State) : (examineBudget s).bus = s.bus := by
  rcases examineBudget_cases s with e | ⟨q, rest, -, -, e⟩ <;> rw [e]
  rfl

theorem examineBudget_budget (s : State) : (examineBudget s).power.budget = s.power.budget := by
  rcases examineBudget_cases s with e | ⟨q, rest, -, -, e⟩ <;> rw [e]
  rfl

/-- SET_BUDGET with nothing to shed (R16). -/
theorem setBudget_within (budget : U32) (hr : s.running = true) (hk : recordKind a s = 1)
    (h : s.power.reserved ≤ min budget.toNat 1920) : ∃ t, exec (.setBudget a budget) s = .next t ∧
      CommandDone a .ok (leBytes 4 (min budget.toNat 1920) ++ u8 0) s t
        (examined { s with power := { s.power with budget := min budget.toNat 1920 } }) := by
  have base : Shows s (budgeted a (min budget.toNat 1920) s) { s with
      power := { s.power with budget := min budget.toNat 1920 }, chain := afterTake a s.chain } [takenWrite a] :=
    (shows_takeCommand a s).modPowerCell rfl
  have kind : recordKind a (budgeted a (min budget.toNat 1920) s) ≠ 3 := by
    rw [base.recordKind (takenWrite_apart a), hk]
    decide
  refine ⟨_, exec_setBudget budget hr, ?_⟩
  have done : Shows s (completeCommand a .ok (leBytes 4 (min budget.toNat 1920) ++ u8 0) (budgeted a (min budget.toNat 1920) s))
      { ({ s with power := { s.power with budget := min budget.toNat 1920 } } : State) with
        chain := afterCompletion a (afterTake a s.chain) }
      (completionWrites s s.chain a .ok (leBytes 4 (min budget.toNat 1920) ++ u8 0) ++ [takenWrite a]) :=
    base.completeCommand .ok kind (by simp)
  rw [takeSetBudget_eq (gone := []) (shedLoop_within _ _ h)]
  unfold CommandDone
  rw [examined_chain]
  exact done.examineBudget.examinedWith.ends

/-- The device once the ports have been shed and the record has completed, before the budget queue is examined (R16, R17). -/
structure AfterShed (n k : Nat) (s t : State) : Prop where
  ledger : Ledger t
  power : t.power = { s.power with
    budget := n, grants := s.power.grants.take k, reserved := ((s.power.grants.take k).map (heldBy s)).sum }
  gone : ∀ p ∈ s.power.grants.drop k, Shed (t.port p)
  others : ∀ p, p ∉ s.power.grants.drop k → t.port p = s.port p

/-- After the shedding no port is in INRUSH just if none of those kept was. -/
theorem AfterShed.fits_iff {n k : Nat} (h : AfterShed n k s t) (hs : PowerLaw s) {q : PortId} (hq : powerOf q s = .queued) :
    Fits q t ↔ (∀ p ∈ s.power.grants.take k, powerOf p s ≠ .inrush) ∧
      ((s.power.grants.take k).map (heldBy s)).sum + heldBy s q ≤ n := by
  have kept : ∀ p ∈ s.power.grants.take k, t.port p = s.port p := fun p hp =>
    h.others p (List.disjoint_take_drop hs.grantsOnce (le_refl k) hp)
  have waiting : t.port q = s.port q := h.others q fun hd => by
    have := (hs.grantsPowered q).mp (List.mem_of_mem_drop hd)
    rw [hq] at this
    cases this
  unfold Fits
  rw [h.power, waiting]
  refine and_congr_left' ⟨fun free p hp e => free p ?_, fun free p e => ?_⟩
  · rw [powerOf_eq, kept p hp]; exact e
  · have hp : p ∈ s.power.grants.take k := by
      have := (h.ledger.grantsPowered p).mpr (by rw [e]; rfl)
      rwa [h.power] at this
    refine free p hp ?_
    rwa [powerOf_eq, kept p hp] at e

/-- What an examination of the budget queue leaves of the power cell and at the queue's head (R6, R7). -/
theorem examineBudget_outcome {n k : Nat} (h : AfterShed n k s t) (hs : PowerLaw s) :
    match s.power.queue with
    | [] => (examineBudget t).power = t.power
    | q :: rest =>
      if (∀ p ∈ s.power.grants.take k, powerOf p s ≠ .inrush) ∧
          ((s.power.grants.take k).map (heldBy s)).sum + heldBy s q ≤ n then
        (examineBudget t).power = { t.power with
          queue := rest, grants := t.power.grants ++ [q], reserved := t.power.reserved + heldBy s q } ∧
          powerOf q (examineBudget t) = .inrush
      else (examineBudget t).power = t.power ∧ powerOf q (examineBudget t) = .queued := by
  have queue : t.power.queue = s.power.queue := by rw [h.power]
  cases hq : s.power.queue with
  | nil => exact congrArg State.power (examineBudget_nil (queue.trans hq))
  | cons q rest =>
    have queued : powerOf q s = .queued := (hs.queueQueued q).mp (by rw [hq]; exact List.mem_cons_self)
    have waiting : t.port q = s.port q := h.others q fun hd => by
      have := (hs.grantsPowered q).mp (List.mem_of_mem_drop hd)
      rw [queued] at this
      cases this
    dsimp only
    rw [examineBudget_cons (queue.trans hq)]
    by_cases fits : Fits q t
    · rw [if_pos ((h.fits_iff hs queued).mp fits), if_pos ((grantable_iff q t).mpr fits)]
      refine ⟨?_, ?_⟩
      · unfold grant heldBy
        rw [waiting]
        rfl
      · unfold grant
        rw [powerOf_modPower]
    · rw [if_neg (fun e => fits ((h.fits_iff hs queued).mpr e)), if_neg (fun e => fits ((grantable_iff q t).mp e))]
      exact ⟨rfl, by rw [powerOf_eq, waiting]; exact queued⟩

/-- Settles O22. -/
theorem setBudget : Obligations.SetBudget := by
  refine ⟨fun a budget s ⟨_, hr, hk⟩ h => setBudget_within budget hr hk h, fun a budget s ⟨_, hr, hk⟩ hs => ?_⟩
  intro n exceeds
  have ledger : Ledger (budgeted a n s) := ledger_modPowerCell _ rfl rfl rfl ((frees_takeCommand a s).ledger hs.ledger)
  obtain ⟨t2, gone, k, he, ht⟩ := shedTo_shedLoop (budgeted a n s).power.grants.length (budgeted a n s) [] ledger (le_refl _)
  rw [List.append_nil] at he
  have ledger2 : Ledger t2 := by
    have := (frees_shedLoop (budgeted a n s).power.grants.length (budgeted a n s) []).ledger ledger
    rwa [he] at this
  let r : List Byte := leBytes 4 n ++ u8 (portsMask gone).toNat
  have kept : CardKept t2 (completeCommand a .ok r t2) := cardKept_completeCommand a .ok r t2
  have after : AfterShed n k s (completeCommand a .ok r t2) :=
    ⟨(frees_completeCommand a .ok r t2).ledger ledger2, kept.power.trans ht.power, fun p hp => by rw [kept.port]; exact ht.gone p hp,
      fun p hp => (kept.port p).trans (ht.others p hp)⟩
  have device : SameDevice (flushMirrors (examineBudget (completeCommand a .ok r t2))) (examineBudget (completeCommand a .ok r t2)) :=
    (mirrored_flushMirrors _).device
  have granted : ∀ p ∈ s.power.grants, portView ((flushMirrors (examineBudget (completeCommand a .ok r t2))).port p) =
      portView ((completeCommand a .ok r t2).port p) := fun p hp => by
    have waits : p ∉ (completeCommand a .ok r t2).power.queue := by
      rw [after.power]
      intro hq
      have := (hs.grantsPowered p).mp hp
      rw [(hs.queueQueued p).mp hq] at this
      cases this
    exact (device.ports p).trans (by rw [examineBudget_port p waits])
  have outcome := examineBudget_outcome after hs
  have fewer : k < s.power.grants.length := by
    refine lt_of_le_of_ne ht.le fun e => ?_
    have fits : ((s.power.grants.take k).map (heldBy s)).sum ≤ n := ht.fits
    rw [e, List.take_length, ← hs.reservedSum] at fits
    exact absurd fits (Nat.not_le.mpr exceeds)
  refine ⟨_, k, (exec_setBudget budget hr).trans (by rw [takeSetBudget_eq he]), fewer, ht.fits, ht.noFurther fewer, ?_, ?_, ?_, ?_, ?_⟩
  · rw [device.power, examineBudget_budget, after.power]
  · rw [device.power]
    cases hq : s.power.queue with
    | nil =>
      rw [hq] at outcome
      dsimp only at outcome ⊢
      rw [outcome, after.power]
      exact ⟨hq, rfl, rfl⟩
    | cons q rest =>
      rw [hq] at outcome
      dsimp only at outcome ⊢
      rw [device.powerState]
      split at outcome
      · rename_i c
        rw [if_pos c, outcome.1, after.power]
        exact ⟨rfl, rfl, rfl, outcome.2⟩
      · rename_i c
        rw [if_neg c, outcome.1, after.power]
        exact ⟨hq, rfl, rfl, outcome.2⟩
  · intro p hp
    obtain ⟨hpower, hlink, hctl, -, hframe, -, halerts⟩ := portView_parts (granted p (List.mem_of_mem_drop hp))
    have shed := after.gone p hp
    obtain ⟨hoff, hcause, hretries, hpending⟩ := shed.power
    rw [powerOf_eq, hpower, hlink, hctl, hframe, halerts]
    exact ⟨hoff, hcause, hretries, hpending, shed.alert, shed.link, shed.entries, shed.notReady⟩
  · intro p hp
    obtain ⟨hpower, hlink, -⟩ := portView_parts (granted p (List.mem_of_mem_take hp))
    rw [hpower, hlink, after.others p (List.disjoint_take_drop hs.grantsOnce (le_refl k) hp)]
    exact ⟨rfl, rfl⟩
  · intro idle
    obtain ⟨ms, hms, -⟩ := (mirrored_flushMirrors (examineBudget (completeCommand a .ok r t2))).bus
    obtain ⟨sheds, hsheds, -⟩ := ht.dma
    have kind : recordKind a t2 ≠ 3 := by
      have mem : t2.mem = (takeCommand a s).mem := ht.still idle
      have e : recordKind a t2 = recordKind a (takeCommand a s) := by unfold recordKind; rw [mem]
      rw [e, (shows_takeCommand a s).recordKind (takenWrite_apart a), hk]
      decide
    have taken : (budgeted a n s).bus = [takenWrite a] ++ s.bus := rfl
    have bus : (flushMirrors (examineBudget (completeCommand a .ok r t2))).bus =
        (ms ++ completionWrites t2 t2.chain a .ok r ++ sheds ++ [takenWrite a]) ++ s.bus := by
      rw [hms, examineBudget_bus, completeCommand_bus .ok kind (by simp [r]), hsheds, taken]
      simp only [List.append_assoc]
    have mask : u8 (portsMask gone).toNat = [portsMask gone] := by simp [u8, leBytes]
    refine ⟨_, portsMask gone, bus, fun p => ?_, ?_⟩
    · rw [portsMask_getLsbD, ht.shed]
      rfl
    · have area : r ++ zeros (0xA0 - r.length) = leBytes 4 n ++ [portsMask gone] ++ zeros 0x9B := by
        simp only [r, mask, List.length_append, leBytes_length, List.length_singleton]
      rw [← area]
      unfold completionWrites
      simp

end Sys2Proof.Machine
end

section
/-! PROOFS. The supply falls and comes back (R18, R19). -/

namespace Sys2Proof.Machine

variable {s t u : State} {p : PortId} {a : Addr}

/-! ## One port when the supply falls -/

theorem writeResult_bus (a : Addr) (off : Nat) (bs : List Byte) (s : State) : (writeResult a off bs s).bus =
    .write (a + BitVec.ofNat 64 off) (bs.take (recordLength (recordKind a s) - off)) :: s.bus := rfl

theorem writeResult_chain (a : Addr) (off : Nat) (bs : List Byte) (s : State) : (writeResult a off bs s).chain = s.chain := rfl

/-- What a completion writes, whatever the record's length: the result area may be clipped (R185, R200, R201). -/
theorem completeCommand_bus_clipped (a : Addr) (c : Code) (r : List Byte) (s : State) : ∃ area, (completeCommand a c r s).bus =
    completionTail s s.chain 0 .commands a (decide (c = .ok)) ++
      [.write (a + 0x60) area, .write (a + 0x14) (leBytes 2 (codeNumber c))] ++ s.bus := by
  have two : ∀ k, (leBytes 2 (codeNumber c)).take (recordLength k - 0x14) = leBytes 2 (codeNumber c) := fun k =>
    List.take_of_length_le (by rw [leBytes_length]; unfold recordLength; split <;> decide)
  refine ⟨(resultArea r).take (recordLength (recordKind a (writeResult a 0x14 (leBytes 2 (codeNumber c)) s)) - 0x60), ?_⟩
  unfold completeCommand
  generalize hv : writeResult a 0x14 (leBytes 2 (codeNumber c)) s = v
  have vbus : v.bus = .write (a + 0x14) (leBytes 2 (codeNumber c)) :: s.bus := by rw [← hv, writeResult_bus, two]; rfl
  have vchain : v.chain = s.chain := by rw [← hv, writeResult_chain]
  rw [completeRecord_bus, writeResult_bus, writeResult_chain, vbus, vchain, List.append_assoc]
  rw [completionTail_congr (u := s) (by rw [writeResult_chain, vchain])]
  rfl

/-- A completion that fails writes the code and the state word FAILED (R185, R201). -/
theorem completeCommand_failed {c : Code} (hc : c ≠ .ok) (r : List Byte) (s : State) : ∃ new,
    (completeCommand a c r s).bus = new ++ s.bus ∧ BusEvent.write (a + 0x14) (leBytes 2 (codeNumber c)) ∈ new ∧
      BusEvent.write (a + 4) (leBytes 4 7) ∈ new := by
  obtain ⟨area, hb⟩ := completeCommand_bus_clipped a c r s
  refine ⟨_, hb, by simp, ?_⟩
  rw [decide_eq_false hc]
  unfold completionTail
  simp

/-- What the fall of the supply makes of a port (R15, R18). -/
structure Fallen (q r : Port) : Prop where
  answered : r.power.onCommand = none
  notPending : r.power.pendingOn = false
  ended : q.power.state ≠ .off → q.power.state ≠ .tripped →
    r.power.state = .off ∧ r.power.cause = .supplyLow ∧ r.power.retries = 0
  lost : isPowered q.power.state = true → r.alerts.getLsbD 2 = true ∧ r.link.state = .down ∧ r.frame.entries = []
  kept : q.power.state = .off ∨ q.power.state = .tripped → r.power.state = q.power.state ∧ r.power.cause = q.power.cause ∧
    r.power.retries = q.power.retries ∧ r.power.cooldown = q.power.cooldown ∧ r.alerts = q.alerts

/-- The fall of the supply at some ports: each of them has fallen and its ON command in flight failed; the others, the clock, the
sweeps, the budget and the flag are as they were. -/
structure Fell (ps : List PortId) (s t : State) : Prop where
  trig : t.trig = s.trig
  sweeps : t.sweeps = s.sweeps
  budget : t.power.budget = s.power.budget
  low : t.power.supplyLow = s.power.supplyLow
  voltage : t.power.supplyMv = s.power.supplyMv
  fallen : ∀ p ∈ ps, Fallen (s.port p) (t.port p)
  others : ∀ p, p ∉ ps → t.port p = s.port p
  answers : ∃ new, t.bus = new ++ s.bus ∧ ∀ p ∈ ps, ∀ a, (s.port p).power.onCommand = some a →
    BusEvent.write (a + 0x14) (leBytes 2 11) ∈ new ∧ BusEvent.write (a + 4) (leBytes 4 7) ∈ new

theorem Fell.refl (s : State) : Fell [] s s := ⟨rfl, rfl, rfl, rfl, rfl, nofun, fun _ _ => rfl, [], rfl, nofun⟩

theorem Fell.cons {ps : List PortId} (hp : p ∉ ps) (h : Fell [p] s t) (g : Fell ps t u) : Fell (p :: ps) s u := by
  obtain ⟨new, hb, hn⟩ := h.answers
  obtain ⟨new', hb', hn'⟩ := g.answers
  have other : ∀ q ∈ ps, t.port q = s.port q := fun q hq => h.others q fun e => hp (List.mem_singleton.mp e ▸ hq)
  refine ⟨g.trig.trans h.trig, g.sweeps.trans h.sweeps, g.budget.trans h.budget, g.low.trans h.low, g.voltage.trans h.voltage,
    fun q hq => ?_, fun q hq => ?_, new' ++ new, by rw [hb', hb, List.append_assoc], fun q hq a ha => ?_⟩
  · rcases List.mem_cons.mp hq with rfl | hq
    · rw [g.others _ hp]
      exact h.fallen _ (by simp)
    · rw [← other q hq]
      exact g.fallen q hq
  · rw [List.mem_cons, not_or] at hq
    rw [g.others q hq.2, h.others q (by simpa using hq.1)]
  · rcases List.mem_cons.mp hq with rfl | hq
    · obtain ⟨h1, h2⟩ := hn _ (by simp) a ha
      exact ⟨List.mem_append_right _ h1, List.mem_append_right _ h2⟩
    · obtain ⟨h1, h2⟩ := hn' q hq a (by rw [other q hq]; exact ha)
      exact ⟨List.mem_append_left _ h1, List.mem_append_left _ h2⟩

/-- A port that is not powered is turned off: nothing changes but its power and the budget queue (R14, R18). -/
theorem powerOnly_turnOff (c : Code) (h : isPowered (powerOf p s) = false) : PowerOnly p s (turnOff p c s) := by
  unfold turnOff
  split
  · exact powerOnly_modPower p _ s
  · exact (powerOnly_modPowerCell p _ s).trans (powerOnly_modPower p _ _)
  · rename_i e; rw [e] at h; cases h
  · rename_i e; rw [e] at h; cases h
  · rename_i e; rw [e] at h; cases h
  · exact .refl p s
  · exact .refl p s

theorem turnOff_portPower_active (c : Code) (h : powerOf p s ≠ .off) (h' : powerOf p s ≠ .tripped) :
    ((turnOff p c s).port p).power = offPower c (s.port p).power := by
  by_cases powered : isPowered (powerOf p s) = true
  · exact turnOff_portPower p c powered
  · unfold turnOff
    split
    · exact modPower_port_self ..
    · exact modPower_port_self ..
    · rename_i e; rw [e] at powered; exact absurd rfl powered
    · rename_i e; rw [e] at powered; exact absurd rfl powered
    · rename_i e; rw [e] at powered; exact absurd rfl powered
    · rename_i e; exact absurd e h
    · rename_i e; exact absurd e h'

theorem turnOff_inactive (c : Code) (h : powerOf p s = .off ∨ powerOf p s = .tripped) : turnOff p c s = s := by
  unfold turnOff
  rcases h with h | h <;> rw [h]

/-- The state of a port after the supply's fall has turned it off and, if it was powered, set its alert (R18). -/
def supplyOff (p : PortId) (s : State) : State :=
  let s1 := turnOff p .supplyLow s
  if isPowered (powerOf p s) then setPortAlert p alertSupplyLow s1 else s1

theorem supplyLowPort_eq (p : PortId) (s : State) :
    supplyLowPort p s = completeOn p .supplyLow (modPower p (fun w => { w with pendingOn := false }) (supplyOff p s)) := rfl

theorem supplyOff_portPower (p : PortId) (s : State) :
    ((supplyOff p s).port p).power = ((turnOff p .supplyLow s).port p).power := by
  unfold supplyOff
  dsimp only
  split
  · exact setPortAlert_portPower ..
  · rfl

/-- Turning off leaves a port's ON command in flight. -/
theorem turnOff_onCommand (c : Code) (s : State) : ((turnOff p c s).port p).power.onCommand = (s.port p).power.onCommand := by
  by_cases inactive : powerOf p s = .off ∨ powerOf p s = .tripped
  · rw [turnOff_inactive c inactive]
  · rw [not_or] at inactive
    rw [turnOff_portPower_active c inactive.1 inactive.2]

theorem setPortAlert_rest (p : PortId) (bit : Nat) (s : State) :
    (setPortAlert p bit s).trig = s.trig ∧ (setPortAlert p bit s).sweeps = s.sweeps := by
  unfold setPortAlert
  split
  · exact ⟨rfl, rfl⟩
  · exact ⟨(cardKept_setCause _ _).trig, (cardKept_setCause _ _).sweeps⟩

theorem turnOff_rest (p : PortId) (c : Code) (s : State) : DmaOnly s (turnOff p c s) ∧ (turnOff p c s).trig = s.trig ∧
    (turnOff p c s).sweeps = s.sweeps ∧ ∀ q, q ≠ p → (turnOff p c s).port q = s.port q := by
  cases powered : isPowered (powerOf p s)
  · have only := powerOnly_turnOff c powered
    exact ⟨only.dma, only.trig, only.sweeps, only.others⟩
  · have off := unplugged_turnOff p c powered
    exact ⟨off.dma, off.trig, off.sweeps, off.others⟩

/-- What the fall of the supply at one port leaves of the rest of the card (R18). -/
theorem supplyOff_rest (p : PortId) (s : State) : DmaOnly s (supplyOff p s) ∧ (supplyOff p s).trig = s.trig ∧
    (supplyOff p s).sweeps = s.sweeps ∧ ∀ q, q ≠ p → (supplyOff p s).port q = s.port q := by
  obtain ⟨dma, trig, sweeps, others⟩ := turnOff_rest p .supplyLow s
  obtain ⟨trig', sweeps'⟩ := setPortAlert_rest p alertSupplyLow (turnOff p .supplyLow s)
  unfold supplyOff
  dsimp only
  split
  · exact ⟨dma.trans (dmaOnly_setPortAlert p _ _), trig'.trans trig, sweeps'.trans sweeps, fun q hq =>
      (setPortAlert_port_other p _ hq _).trans (others q hq)⟩
  · exact ⟨dma, trig, sweeps, others⟩

/-- Turning off changes nothing of the cell's power but queue, grants and reserved sum. -/
theorem turnOff_cell (p : PortId) (c : Code) (s : State) : (turnOff p c s).power.budget = s.power.budget ∧
    (turnOff p c s).power.supplyLow = s.power.supplyLow ∧ (turnOff p c s).power.supplyMv = s.power.supplyMv := by
  by_cases powered : isPowered (powerOf p s) = true
  · rw [turnOff_power p c powered]
    exact ⟨rfl, rfl, rfl⟩
  · unfold turnOff
    split
    case h_3 e | h_4 e | h_5 e => rw [e] at powered; exact absurd rfl powered
    all_goals exact ⟨rfl, rfl, rfl⟩

theorem supplyOff_power (p : PortId) (s : State) : (supplyOff p s).power = (turnOff p .supplyLow s).power := by
  unfold supplyOff
  dsimp only
  split
  · exact setPortAlert_power ..
  · rfl

/-- The rest of a port after the fall of the supply: taken where it was powered, kept in OFF and TRIPPED (R15, R18). -/
theorem supplyOff_port (p : PortId) (s : State) :
    (isPowered (powerOf p s) = true → ((supplyOff p s).port p).alerts.getLsbD 2 = true ∧
      ((supplyOff p s).port p).link.state = .down ∧ ((supplyOff p s).port p).frame.entries = []) ∧
    (powerOf p s = .off ∨ powerOf p s = .tripped → (supplyOff p s).port p = s.port p) := by
  unfold supplyOff
  dsimp only
  refine ⟨fun powered => ?_, fun inactive => ?_⟩
  · have off := unplugged_turnOff p .supplyLow powered
    obtain ⟨-, hlink, -, -, hframe, -, -⟩ := portView_parts (setPortAlert_same (p := p) alertSupplyLow (turnOff p .supplyLow s))
    rw [if_pos powered]
    exact ⟨setPortAlert_getLsbD (by decide) _, (congrArg LinkRx.state (hlink.trans off.link) :),
      (congrArg FrameRx.entries hframe :).trans off.dormant.noEntry⟩
  · rw [if_neg (by rcases inactive with e | e <;> rw [e] <;> decide), turnOff_inactive .supplyLow inactive]

/-- The fall of the supply at one port (R15, R18). -/
theorem fell_supplyLowPort (p : PortId) (s : State) : Fell [p] s (supplyLowPort p s) := by
  obtain ⟨dma, trig, sweeps, others⟩ := supplyOff_rest p s
  obtain ⟨budget, low, voltage⟩ := turnOff_cell p .supplyLow s
  obtain ⟨powered, inactive⟩ := supplyOff_port p s
  have hw := supplyOff_portPower p s
  have on := turnOff_onCommand (p := p) .supplyLow s
  have cell := supplyOff_power p s
  rw [← hw] at on
  let s2 := modPower p (fun w => { w with pendingOn := false }) (supplyOff p s)
  have only : PowerOnly p (supplyOff p s) (supplyLowPort p s) := (powerOnly_modPower p _ _).trans (powerOnly_completeOn p .supplyLow s2)
  have hpower : ((supplyLowPort p s).port p).power = { ((supplyOff p s).port p).power with pendingOn := false, onCommand := none } := by
    rw [supplyLowPort_eq, completeOn_portPower, modPower_port_self]
  have hcell : (supplyLowPort p s).power = (turnOff p .supplyLow s).power := by
    rw [supplyLowPort_eq, completeOn_power, modPower_power, cell]
  refine ⟨only.trig.trans trig, only.sweeps.trans sweeps, by rw [hcell, budget], by rw [hcell, low], by rw [hcell, voltage],
    fun q hq => ?_, fun q hq => ?_, ?_⟩
  · rw [List.mem_singleton.mp hq]
    refine ⟨by rw [hpower], by rw [hpower], fun h h' => ?_, fun h => ?_, fun h => ?_⟩
    · rw [hpower, hw, turnOff_portPower_active .supplyLow h h']
      exact ⟨rfl, rfl, rfl⟩
    · rw [only.alerts, only.link, only.frame]
      exact powered h
    · rw [hpower, only.alerts, inactive h]
      exact ⟨rfl, rfl, rfl, rfl, rfl⟩
  · have hq' : q ≠ p := fun e => hq (e ▸ List.mem_singleton_self q)
    rw [only.others q hq', others q hq']
  · obtain ⟨new, hnew, -⟩ := dma
    cases hon : (s.port p).power.onCommand with
    | none =>
      have none : ((s2.port p).power).onCommand = Option.none := by rw [modPower_port_self]; exact on.trans hon
      refine ⟨new, ?_, fun q hq a ha => ?_⟩
      · rw [supplyLowPort_eq, completeOn_none none]
        exact hnew
      · rw [List.mem_singleton.mp hq, hon] at ha
        cases ha
    | some a =>
      have some : ((s2.port p).power).onCommand = Option.some a := by rw [modPower_port_self]; exact on.trans hon
      obtain ⟨done, hdone, code, state⟩ := completeCommand_failed (a := a) (c := .supplyLow) (by decide) []
        (modPower p (fun w => { w with onCommand := Option.none }) s2)
      refine ⟨done ++ new, ?_, fun q hq b hb => ?_⟩
      · rw [supplyLowPort_eq, completeOn_some some, hdone, List.append_assoc, ← hnew]
        rfl
      · rw [List.mem_singleton.mp hq, hon] at hb
        cases hb
        exact ⟨List.mem_append_left _ code, List.mem_append_left _ state⟩

/-- The fall of the supply at every port of a list (R18). -/
theorem fell_forPorts (ps : List PortId) (hps : ps.Nodup) (s : State) : Fell ps s (forPorts ps supplyLowPort s) := by
  induction ps generalizing s with
  | nil => exact .refl s
  | cons p ps ih =>
    rw [List.nodup_cons] at hps
    exact (fell_supplyLowPort p s).cons hps.1 (ih hps.2 _)

/-! ## The supply -/

theorem setCellAlert_getLsbD {bit : Nat} (hb : bit < 2) (s : State) :
    (setCellAlert bit s).chain.cellAlerts.getLsbD bit = true := by
  unfold setCellAlert
  split
  · assumption
  · rw [(cardKept_setCause _ _).cellAlerts]
    simp [hb]

theorem setCellAlert_rest (bit : Nat) (s : State) : (setCellAlert bit s).power = s.power ∧ (setCellAlert bit s).trig = s.trig ∧
    (setCellAlert bit s).sweeps = s.sweeps ∧ ∀ q, (setCellAlert bit s).port q = s.port q := by
  unfold setCellAlert
  split
  · exact ⟨rfl, rfl, rfl, fun _ => rfl⟩
  · have k := cardKept_setCause .alerts
      (modChain (fun c => { c with cellAlerts := c.cellAlerts ||| BitVec.twoPow 2 bit, mirrorDue := true }) s)
    exact ⟨k.power, k.trig, k.sweeps, k.port⟩

/-- A card none of whose ports waits or is powered has nothing granted and nothing reserved. -/
theorem Ledger.idle_power (h : Ledger s) (hoff : ∀ p, powerOf p s = .off ∨ powerOf p s = .tripped) : s.power =
    { budget := s.power.budget, queue := [], grants := [], reserved := 0, supplyLow := s.power.supplyLow
      supplyMv := s.power.supplyMv } := by
  have grants : s.power.grants = [] := List.eq_nil_iff_forall_not_mem.mpr fun p hp => by
    have := (h.grantsPowered p).mp hp
    rcases hoff p with e | e <;> rw [e] at this <;> cases this
  have queue : s.power.queue = [] := List.eq_nil_iff_forall_not_mem.mpr fun p hp => by
    have := (h.queueQueued p).mp hp
    rcases hoff p with e | e <;> rw [e] at this <;> cases this
  have reserved : s.power.reserved = 0 := by rw [h.reservedSum, grants]; rfl
  have parts : ∀ c : PowerCell, c.grants = [] → c.queue = [] → c.reserved = 0 → c =
      { budget := c.budget, queue := [], grants := [], reserved := 0, supplyLow := c.supplyLow, supplyMv := c.supplyMv } := by
    rintro ⟨⟩ rfl rfl rfl
    rfl
  exact parts _ grants queue reserved

/-- The card once the flag is set, before its ports fall (R18). -/
abbrev flagged (mv : U32) (s : State) : State :=
  modPowerCell (fun c => { c with supplyLow := true }) (modPowerCell (fun c => { c with supplyMv := mv }) s)

theorem supplySampled_falls {mv : U32} (hmv : mv.toNat < 20000) (hlow : s.power.supplyLow = false) : supplySampled mv s =
    setCellAlert cellAlertSupplyLow (forPorts allPorts supplyLowPort (flagged mv s)) :=
  if_pos ⟨hmv, by rw [hlow]; exact Bool.false_ne_true⟩

theorem Fallen.inactive {q r : Port} (h : Fallen q r) : r.power.state = .off ∨ r.power.state = .tripped := by
  by_cases off : q.power.state = .off
  · exact .inl ((h.kept (.inl off)).1.trans off)
  · by_cases tripped : q.power.state = .tripped
    · exact .inr ((h.kept (.inr tripped)).1.trans tripped)
    · exact .inl (h.ended off tripped).1

/-- The supply rises to 21.0 V (R19). -/
theorem shows_supplyRestored {mv : U32} (hmv : 21000 ≤ mv.toNat) (s : State) : Shows s (supplySampled mv s)
    { s with power := { s.power with supplyLow := false, supplyMv := mv } } [] := by
  have read : Shows s (modPowerCell (fun c => { c with supplyMv := mv }) s) { s with power := { s.power with supplyMv := mv } } [] :=
    (Shows.refl s).modPowerCell rfl
  unfold supplySampled supplyLowMv supplyOkMv
  dsimp only
  rw [if_neg (fun h => by omega)]
  cases hlow : s.power.supplyLow
  · rw [if_neg (fun h => Bool.false_ne_true h.2), ← hlow]
    exact read
  · rw [if_pos ⟨hmv, rfl⟩]
    exact read.modPowerCell rfl

/-- Settles O41. -/
theorem supply : Obligations.Supply := by
  refine ⟨fun mv s hs hmv hlow => ?_, fun mv s _ hmv => ⟨_, rfl, (shows_supplyRestored hmv s).ends⟩⟩
  have fell := fell_forPorts allPorts (by decide) (flagged mv s)
  have ledger : Ledger (forPorts allPorts supplyLowPort (flagged mv s)) :=
    (Frees.foldl _ (fun s p => frees_supplyLowPort p s) _).ledger
      (ledger_modPowerCell _ rfl rfl rfl (ledger_modPowerCell _ rfl rfl rfl hs.ledger))
  have sampled := supplySampled_falls hmv hlow
  generalize forPorts allPorts supplyLowPort (flagged mv s) = t2 at fell ledger sampled
  obtain ⟨cpower, ctrig, csweeps, cport⟩ := setCellAlert_rest cellAlertSupplyLow t2
  have device : SameDevice (flushMirrors (setCellAlert cellAlertSupplyLow t2)) (setCellAlert cellAlertSupplyLow t2) :=
    (mirrored_flushMirrors _).device
  have fallen : ∀ p, Fallen (s.port p) (t2.port p) := fun p => fell.fallen p (mem_allPorts p)
  obtain ⟨ms, hms, -⟩ := (mirrored_flushMirrors (setCellAlert cellAlertSupplyLow t2)).bus
  obtain ⟨al, hal, -⟩ := dmaOnly_setCellAlert cellAlertSupplyLow t2
  obtain ⟨new, hnew, answers⟩ := fell.answers
  have executed : exec (.supplyLow mv) s = .next (flushMirrors (setCellAlert cellAlertSupplyLow t2)) :=
    congrArg (fun u => Host.Outcome.next (flushMirrors u)) sampled
  generalize flushMirrors (setCellAlert cellAlertSupplyLow t2) = t at device hms executed
  refine ⟨t, executed, ?_, ?_, ⟨ms ++ al ++ new, ?_, fun p a ha => ?_⟩, ?_, ?_, fun p => ?_⟩
  · rw [device.power, cpower, ledger.idle_power fun p => (fallen p).inactive, fell.budget, fell.low, fell.voltage]
    rfl
  · rw [device.cellAlerts]
    exact setCellAlert_getLsbD (by decide) t2
  · rw [hms, hal, hnew]
    simp only [List.append_assoc]
    rfl
  · obtain ⟨code, state⟩ := answers p (mem_allPorts p) a ha
    exact ⟨List.mem_append_right _ code, List.mem_append_right _ state⟩
  · rw [device.trig, ctrig, fell.trig]
    rfl
  · rw [device.sweeps, csweeps, fell.sweeps]
    rfl
  · obtain ⟨hpower, hlink, -, -, hframe, -, halerts⟩ := portView_parts (device.ports p)
    have f := fallen p
    have hstate : powerOf p t = (t2.port p).power.state := by rw [powerOf_eq, hpower, cport]
    rw [hstate, hpower, hlink, hframe, halerts, cport]
    intro active
    refine ⟨f.answered, f.notPending, fun h => f.ended h.1 h.2, f.lost, fun h => f.kept ?_⟩
    by_contra both
    rw [not_or] at both
    exact h both

end Sys2Proof.Machine
end

section
/-! PROOFS. A sweep completes, its port is free, and the next is measured (R20, R142, R146, R158 to R160). -/

namespace Sys2Proof.Machine

variable {s v u b : State} {w : List BusEvent} {p : PortId} {x : PortPower}

/-! ## The result block -/

@[simp] theorem i16_length (n : Int) : (i16 n).length = 2 := u16_length _
@[simp] theorem i32_length (n : Int) : (i32 n).length = 4 := u32_length _

theorem echoBytes_length (e : Echo) : (echoBytes e).length = 16 := by simp [echoBytes]

theorem sweepBody_length (m : Measuring) (done : U64) (r : SweepResult) : (sweepBody m done r).length = 0x7C := by
  have places : ((r.echoes.take 4).map echoBytes).flatten.length = 16 * (r.echoes.take 4).length := by
    have each : ∀ x ∈ (r.echoes.take 4).map echoBytes, x.length = 16 := by
      intro x hx
      obtain ⟨e, -, rfl⟩ := List.mem_map.mp hx
      exact echoBytes_length e
    rw [flatten_length_of_forall _ each, List.length_map]
  have few : (r.echoes.take 4).length ≤ 4 := List.length_take_le ..
  unfold sweepBody
  simp only [List.length_append, u8_length, leBytes_length, u64_length, i16_length, zeros_length, places]
  omega

/-! ## The port is free -/

/-- The power of a port after the sweep on it has ended (R13, R20, R160). -/
def endedPower (low : Bool) (x : PortPower) : PortPower :=
  if x.state = .off then
    (if x.pendingOn then { x with pendingOn := false, state := .detect, clsInUse := x.cls, detectTimer := some 8 } else x)
  else if x.expired then decidedPower low x else x

/-- The end of a sweep at its port's power (R20, R160). -/
theorem shows_sweepEnded (h : Shows s v (modPower p (fun _ => x) u) w) (hst : x.state = .off ∨ x.state = .tripped) :
    Shows s (sweepEnded p v) (modPower p (fun _ => endedPower u.power.supplyLow x) u) w := by
  have hx : (v.port p).power = x := (h.device.portPower p).trans (modPower_port_self ..)
  unfold sweepEnded endedPower
  dsimp only
  rw [hx]
  rcases hst with hst | hst
  · rw [if_pos hst]
    cases pending : x.pendingOn
    · rw [if_neg (fun e => Bool.false_ne_true e.2), if_neg (fun e => by rw [hst] at e; cases e.1), if_neg Bool.false_ne_true]
      exact h
    · rw [if_pos ⟨hst, rfl⟩, if_pos rfl]
      exact shows_enterDetect (h.resetPower rfl)
  · have inactive : x.state ≠ .off := by rw [hst]; decide
    rw [if_neg inactive, if_neg fun e => inactive e.1]
    cases expired : x.expired
    · rw [if_neg fun e => Bool.false_ne_true e.2, if_neg Bool.false_ne_true]
      exact h
    · rw [if_pos ⟨hst, rfl⟩, if_pos rfl]
      exact shows_decideCooldown h

/-- The port of a completed sweep, free and one sweep richer (R142, R158, R160). -/
abbrev freedPort (low : Bool) (q : Port) : Port :=
  { q with sweep := { q.sweep with state := .none, count := q.sweep.count + 1 }, power := endedPower low q.power }

/-- The card once the next sweep of the queue, if there is one, is measured (R141, R146). -/
def nextSweep (u : State) : State :=
  match u.sweeps.queue with
  | [] => { u with sweeps := { front := none, queue := [] } }
  | e :: rest => { modSweep e.port (fun w => { w with state := .measuring }) u with
      sweeps := { front := some (measuringOf e u), queue := rest } }

theorem nextSweep_nil (h : u.sweeps.queue = []) : nextSweep u = { u with sweeps := { front := none, queue := [] } } := by
  unfold nextSweep
  rw [h]

theorem nextSweep_cons {e : SweepEntry} {rest : List SweepEntry} (h : u.sweeps.queue = e :: rest) :
    nextSweep u = { modSweep e.port (fun w => { w with state := .measuring }) u with
      sweeps := { front := some (measuringOf e u), queue := rest } } := by
  unfold nextSweep
  rw [h]

/-- The front end is free, and the queue is examined (R141, R146). -/
theorem shows_nextSweep (h : Shows s v u w) :
    Shows s (examineSweeps (modSweeps (fun w => { w with front := none }) v)) (nextSweep u) w := by
  have free : Shows s (modSweeps (fun w => { w with front := none }) v) { u with sweeps := { u.sweeps with front := none } } w :=
    h.withSweeps rfl
  cases hq : u.sweeps.queue with
  | nil =>
    rw [nextSweep_nil hq]
    refine (free.examineSweeps_kept (.inr hq)).to ((SameDevice.refl u).withSweeps ?_)
    show ({ front := none, queue := u.sweeps.queue } : SweepUnit) = _
    rw [hq]
  | cons e rest =>
    rw [nextSweep_cons hq]
    exact free.examineSweeps_free rfl hq

/-- A sweep has been delivered: its port is free and takes its decision, and the next sweep is measured (R20, R146, R160). -/
theorem shows_sweepFreed (h : Shows s v b w) (hst : powerOf p b = .off ∨ powerOf p b = .tripped) :
    Shows s (examineSweeps (modSweeps (fun w => { w with front := none }) (sweepEnded p
      (modSweep p (fun w => { w with state := .none, count := w.count + 1 }) v))))
      (nextSweep (modPort p (freedPort b.power.supplyLow) b)) w := by
  have counted : Shows s (modSweep p (fun w => { w with state := .none, count := w.count + 1 }) v)
      (modPower p (fun _ => (b.port p).power) (modSweep p (fun w => { w with state := .none, count := w.count + 1 }) b)) w :=
    (h.modSweep p rfl).to (sameDevice_modPort (by rw [← modSweep_port_power])).symm
  refine shows_nextSweep ((shows_sweepEnded counted hst).to ?_)
  refine (sameDevice_modPort_twice _ _ fun _ _ e => portView_power e rfl).trans ?_
  exact (SameDevice.refl b).modPort rfl

/-! ## The delivery -/

/-- The two writes of the break record: the block's body, then its sweep count (R158). -/
theorem shows_breakRecord (m : Measuring) (count : U32) (body : List Byte) (s : State) :
    Shows s (dmaWrite (blockAt (breakRecordOffset m.entry.port) s) (u32 count)
      (dmaWrite (blockAt (breakRecordOffset m.entry.port + 4) s) body s)) s
      [.write (blockAt (0x840 + 0x80 * m.entry.port.val) s) (u32 count),
        .write (blockAt (0x840 + 0x80 * m.entry.port.val + 4) s) body] :=
  ((Shows.refl s).dmaWrite _ body).dmaWrite _ (u32 count)

/-- The break record lies apart from a record that does not overlap it. -/
theorem breakRecord_apart {off : Nat} {count : U32} {body : List Byte} {y : Nat} (hy : y < addressSpace)
    (hbody : body.length = 0x7C) (h : 0x80 ≤ distanceFrom (blockAt off s) y) :
    ∀ z ∈ storedRuns [.write (blockAt off s) (u32 count), .write (blockAt (off + 4) s) body], z.2 ≤ distanceFrom z.1 y := by
  intro z hz
  simp only [storedRuns, List.mem_cons, List.not_mem_nil, or_false, u32_length, hbody, blockAt_add] at hz
  rcases hz with rfl | rfl
  · exact le_trans (show 4 ≤ 0x80 by decide) h
  · exact le_distanceFrom_part (show 4 + 0x7C ≤ 0x80 by decide) hy h

/-! ## The order of the alert and of what follows it -/

theorem SameDevice.nextSweep (h : SameDevice v u) : SameDevice (nextSweep v) (nextSweep u) := by
  have queue : v.sweeps.queue = u.sweeps.queue := congrArg SweepUnit.queue h.sweeps
  cases hq : u.sweeps.queue with
  | nil =>
    rw [nextSweep_nil hq, nextSweep_nil (queue.trans hq)]
    exact h.withSweeps rfl
  | cons e rest =>
    rw [nextSweep_cons hq, nextSweep_cons (queue.trans hq)]
    exact (h.modSweep rfl).withSweeps (by rw [h.measuringOf e])

theorem SameDevice.withAlert (h : SameDevice v u) (p : PortId) (bit : Nat) : SameDevice (withAlert p bit v) (withAlert p bit u) := by
  have same : (v.port p).alerts = (u.port p).alerts := h.portAlerts p
  cases hset : (u.port p).alerts.getLsbD bit
  · rw [withAlert_new hset, withAlert_new (same ▸ hset)]
    refine (h.withChain ?_).modPort (portView_alerts (h.ports p) (congrArg (· ||| BitVec.twoPow 11 bit) same :))
    exact (congrArg (fun c : ChainEngine => { c with cause := c.cause ||| 4 }) h.chain :)
  · rw [withAlert_set hset, withAlert_set (same ▸ hset)]
    exact h

theorem withAlert_withSweeps (bit : Nat) (y : SweepUnit) (s : State) :
    Machine.withAlert p bit { s with sweeps := y } = { Machine.withAlert p bit s with sweeps := y } := by
  cases hset : (s.port p).alerts.getLsbD bit
  · rw [withAlert_new hset, withAlert_new (s := { s with sweeps := y }) hset]
    rfl
  · rw [withAlert_set hset, withAlert_set (s := { s with sweeps := y }) hset]

theorem withAlert_power (bit : Nat) (s : State) : (Machine.withAlert p bit s).power = s.power := by
  unfold Machine.withAlert
  split <;> rfl

theorem withAlert_parts (p q : PortId) (bit : Nat) (s : State) : (Machine.withAlert p bit s).trig = s.trig ∧
    ((Machine.withAlert p bit s).port q).power = (s.port q).power ∧ ((Machine.withAlert p bit s).port q).sweep = (s.port q).sweep := by
  cases hset : (s.port p).alerts.getLsbD bit
  · rw [withAlert_new hset, modPort_port]
    split
    · rename_i e; rw [e]; exact ⟨rfl, rfl, rfl⟩
    · exact ⟨rfl, rfl, rfl⟩
  · rw [withAlert_set hset]
    exact ⟨rfl, rfl, rfl⟩

/-- What a measurement records of the card at its start has nothing of alerts (R146). -/
theorem measuringOf_withAlert (bit : Nat) (e : SweepEntry) (s : State) :
    measuringOf e (Machine.withAlert p bit s) = measuringOf e s := by
  obtain ⟨trig, power, sweep⟩ := withAlert_parts p e.port bit s
  unfold measuringOf State.now
  rw [trig, power, sweep]

/-- The next sweep is measured alike before and after an alert. -/
theorem sameDevice_nextSweep_withAlert (bit : Nat) (s : State) :
    SameDevice (Machine.nextSweep (Machine.withAlert p bit s)) (Machine.withAlert p bit (Machine.nextSweep s)) := by
  have queue : (Machine.withAlert p bit s).sweeps.queue = s.sweeps.queue := by rw [withAlert_sweeps]
  cases hq : s.sweeps.queue with
  | nil =>
    rw [nextSweep_nil hq, nextSweep_nil (queue.trans hq), withAlert_withSweeps bit { front := none, queue := [] } s]
    exact .refl _
  | cons e rest =>
    rw [nextSweep_cons hq, nextSweep_cons (queue.trans hq), measuringOf_withAlert,
      withAlert_withSweeps bit _ (modSweep e.port (fun w => { w with state := .measuring }) s)]
    have order := sameDevice_modPort_withAlert (p := p) e.port (fun q => { q with sweep := { q.sweep with state := .measuring } })
      bit s (fun x y h => portView_sweep h (congrArg (fun q : Port => ({ q.sweep with state := .measuring } : PortSweep)) h :))
      (fun _ => rfl) fun _ => rfl
    exact order.withSweeps rfl

theorem nextSweep_withChain (c : ChainEngine) (s : State) :
    Machine.nextSweep { s with chain := c } = { Machine.nextSweep s with chain := c } := by
  cases hq : s.sweeps.queue with
  | nil => rw [nextSweep_nil hq, nextSweep_nil (u := { s with chain := c }) hq]
  | cons e rest =>
    rw [nextSweep_cons hq, nextSweep_cons (u := { s with chain := c }) hq]
    rfl

/-- The break record of a measurement's port with a block's body, its sweep count last (R158). -/
abbrev breakRecorded (m : Measuring) (body : List Byte) (s : State) : State :=
  dmaWrite (blockAt (breakRecordOffset m.entry.port) s) (u32 ((s.port m.entry.port).sweep.count + 1))
    (dmaWrite (blockAt (breakRecordOffset m.entry.port + 4) s) body s)

theorem deliverSweep_host {m : Measuring} {a : Addr} (hrec : m.entry.recAt = some a) (horigin : m.entry.origin = .host)
    (r : SweepResult) (s : State) : deliverSweep m r s = completeCommand a .ok
      (u32 ((s.port m.entry.port).sweep.count + 1) ++ sweepBody m s.now r) (breakRecorded m (sweepBody m s.now r) s) := by
  unfold deliverSweep
  rw [hrec, horigin]

theorem deliverSweep_auto {m : Measuring} (hrec : m.entry.recAt = none) (horigin : m.entry.origin = .auto) (r : SweepResult)
    (s : State) : deliverSweep m r s =
      setPortAlert m.entry.port alertSweepDone (breakRecorded m (sweepBody m s.now r) s) := by
  unfold deliverSweep
  rw [hrec, horigin]

theorem sweepDone_measuring {m : Measuring} (h : s.sweeps.front = some m) (samples : List (List (BitVec 14))) :
    sweepDone samples s = examineSweeps (modSweeps (fun w => { w with front := none }) (sweepEnded m.entry.port
      (modSweep m.entry.port (fun w => { w with state := .none, count := w.count + 1 }) (deliverSweep m
        (analyseSweep m.settings (averagedSamples m.entry.averages (sumSamples m.sums samples))) s)))) := by
  unfold sweepDone
  rw [h]

/-- Settles O58. -/
theorem sweepComplete : Obligations.SweepComplete := by
  intro m samples s _ hfront hst p body count w probe power free u puts
  have hbody : body.length = 0x7C := sweepBody_length ..
  have record : Shows s (dmaWrite (blockAt (breakRecordOffset p) s) (u32 count)
      (dmaWrite (blockAt (breakRecordOffset p + 4) s) body s)) s puts := shows_breakRecord m count body s
  have hpower : power = endedPower s.power.supplyLow (s.port p).power := by
    have state : w.state = .off ∨ w.state = .tripped := hst
    simp only [power, probe, endedPower, decidedPower]
    rcases state with state | state
    · rw [if_pos state, if_pos (show (s.port p).power.state = .off from state)]
    · have active : w.state ≠ .off := by rw [state]; decide
      rw [if_neg active, if_neg (show (s.port p).power.state ≠ .off from active)]
      cases expired : (s.port p).power.expired
      · rfl
      · rfl
  have next : SameDevice (nextSweep (modPort p (freedPort s.power.supplyLow) s)) u := by
    have hfree : modPort p (freedPort s.power.supplyLow) s = free := by
      simp only [free, hpower]
      rfl
    rw [hfree]
    cases hq : s.sweeps.queue with
    | nil =>
      have e : u = { free with sweeps := { front := none, queue := [] } } := by simp only [u, hq]
      rw [e, nextSweep_nil (u := free) hq]
      exact .refl _
    | cons x rest =>
      have settings : (free.port x.port).sweep.settings = (s.port x.port).sweep.settings := by
        simp only [free]
        rw [modPort_port]
        split
        · rename_i h; rw [h]
        · rfl
      simp only [u, hq]
      rw [nextSweep_cons (u := free) hq]
      refine (SameDevice.refl _).withSweeps ?_
      unfold measuringOf
      rw [settings]
      rfl
  refine ⟨hbody, fun a hrec horigin hk hapart => ⟨_, rfl, Shows.ends ?_⟩, fun hrec horigin => ⟨_, rfl, Shows.ends ?_⟩⟩
  · rw [sweepDone_measuring hfront, deliverSweep_host hrec horigin]
    have kind : recordKind a (breakRecorded m body s) ≠ 3 := by
      rw [record.recordKind (breakRecord_apart (by simpa [addressSpace] using a.isLt) hbody hapart), hk]
      decide
    have completed : Shows s (completeCommand a .ok (u32 count ++ body) (breakRecorded m body s))
        { s with chain := afterCompletion a s.chain } (completionWrites s s.chain a .ok (u32 count ++ body) ++ puts) :=
      record.completeCommand .ok kind (by rw [List.length_append, hbody, u32_length]; decide)
    refine (shows_sweepFreed completed hst).to ?_
    have chain := nextSweep_withChain (afterCompletion a s.chain) (modPort p (freedPort s.power.supplyLow) s)
    exact chain ▸ next.withChain rfl
  · rw [sweepDone_measuring hfront, deliverSweep_auto hrec horigin]
    have alerted : Shows s (setPortAlert p alertSweepDone (breakRecorded m body s)) (withAlert p 10 s) (alertMessage p 10 s ++ puts) :=
      record.setPortAlert p alertSweepDone
    have hst' : powerOf p (withAlert p 10 s) = .off ∨ powerOf p (withAlert p 10 s) = .tripped := by
      rw [powerOf_eq, (withAlert_parts p p 10 s).2.1]
      exact hst
    refine (shows_sweepFreed alerted hst').to ?_
    rw [withAlert_power]
    have order := sameDevice_modPort_withAlert (p := p) p (freedPort s.power.supplyLow) 10 s
      (fun x y e => (congrArg (freedPort s.power.supplyLow) e :)) (fun _ => rfl) fun _ => rfl
    exact (order.nextSweep.trans (sameDevice_nextSweep_withAlert 10 _)).trans (next.withAlert p 10)

end Sys2Proof.Machine
end

section
/-! PROOFS. CONFIGURE_PORT: the checks and clamps of its groups, and its result (R1, R88, R107, R145, R194, R201). -/

namespace Sys2Proof.Machine

variable {s v u : State} {w : List BusEvent} {p : PortId} {a : Addr} {x : ConfigArgs}

theorem exec_configurePort (x : ConfigArgs) (hr : s.running = true) (hp : p.val < s.chain.portCount.toNat) :
    exec (.configurePort a (BitVec.ofNat 8 p.val) x) s = .next (flushMirrors (takeConfigurePort a p x (takeCommand a s))) := by
  refine (execRecord_running (c := .configurePort (BitVec.ofNat 8 p.val) x) hr).trans ?_
  unfold ownCommand
  dsimp only
  rw [withPort_named (s := takeCommand a s) hp]

/-! ## Values named in a byte -/

theorem byte_of_toNat {b : Byte} {n : Nat} (h : b.toNat = n) : b = BitVec.ofNat 8 n := by
  rw [← h, BitVec.ofNat_toNat, BitVec.setWidth_eq]

theorem powerClassNamed_number {b : Byte} {k : PowerClass} (h : b.toNat = powerClassNumber k) : powerClassNamed b = some k := by
  rw [byte_of_toNat h]
  cases k <;> rfl

theorem powerClassNamed_none {b : Byte} (h : 4 ≤ b.toNat) : powerClassNamed b = none := by
  unfold powerClassNamed
  split_ifs <;> simp_all

theorem underrunNamed_number {b : Byte} {c : Underrun} (h : b.toNat = underrunNumber c) : underrunNamed b = some c := by
  rw [byte_of_toNat h]
  cases c <;> rfl

theorem underrunNamed_none {b : Byte} (h : 3 ≤ b.toNat) : underrunNamed b = none := by
  unfold underrunNamed
  split_ifs <;> simp_all

theorem erasureNamed_number {b : Byte} {c : Erasure} (h : b.toNat = erasureNumber c) : erasureNamed b = some c := by
  rw [byte_of_toNat h]
  cases c <;> rfl

theorem erasureNamed_none {b : Byte} (h : 3 ≤ b.toNat) : erasureNamed b = none := by
  unfold erasureNamed
  split_ifs <;> simp_all

theorem lateActionNamed_flag {b : Byte} (h : b.toNat ≤ 1) :
    lateActionNamed b = some (if b = 1 then .drop else .expose) := by
  have e : b = 0 ∨ b = 1 := by
    rcases Nat.le_one_iff_eq_zero_or_eq_one.mp h with h | h
    · exact .inl (byte_of_toNat h)
    · exact .inr (byte_of_toNat h)
  rcases e with rfl | rfl <;> rfl

theorem lateActionNamed_none {b : Byte} (h : 2 ≤ b.toNat) : lateActionNamed b = none := by
  unfold lateActionNamed
  split_ifs <;> simp_all

/-! ## Fallback pairs -/

theorem unitOf_succ (k : UnitId) : unitOf (k.val + 1) = some k := by
  have hk := k.isLt
  unfold unitOf
  rw [dif_pos ⟨by omega, by omega⟩]
  rfl

theorem unitOf_some {n : Nat} {k : UnitId} (h : unitOf n = some k) : n = k.val + 1 := by
  unfold unitOf at h
  split at h
  · cases h
    dsimp only
    omega
  · cases h

/-- Pairs of different units are sound (R88). -/
theorem soundPairs_of_units {pairs : List (UnitId × Int)} (h : (pairs.map (·.1)).Nodup) :
    soundPairs (pairs.map fun q => (q.1.val + 1, q.2)) = some pairs := by
  have all : (pairs.map fun q => (q.1.val + 1, q.2)).filterMap (fun q => (unitOf q.1).map fun k => (k, q.2)) = pairs := by
    rw [List.filterMap_map]
    refine (List.filterMap_congr fun q _ => ?_).trans List.filterMap_some
    simp [unitOf_succ]
  unfold soundPairs
  dsimp only
  rw [all, if_pos ⟨(List.length_map _).symm, h⟩]

/-- Sound pairs name units 1 to 4, each once (R88, R89). -/
theorem soundPairs_sound {ps : List (Nat × Int)} {us : List (UnitId × Int)} (h : soundPairs ps = some us) :
    (∀ q ∈ ps, 1 ≤ q.1 ∧ q.1 ≤ 4) ∧ (ps.map (·.1)).Nodup := by
  unfold soundPairs at h
  dsimp only at h
  split at h
  · rename_i hs
    obtain ⟨hlen, honce⟩ := hs
    have units : ps.map (·.1) = ((ps.filterMap fun q => (unitOf q.1).map fun k => (k, q.2)).map (·.1)).map fun k => k.val + 1 := by
      have named := List.filterMap_length_eq_length.mp hlen
      rw [List.map_map, List.map_filterMap, ← List.filterMap_eq_map]
      refine List.filterMap_congr fun q hq => ?_
      obtain ⟨k, hk⟩ := Option.isSome_iff_exists.mp (Option.isSome_map.symm.trans (named q hq))
      rw [hk, Function.comp_apply, unitOf_some hk]
      rfl
    refine ⟨fun q hq => ?_, ?_⟩
    · have := List.mem_map_of_mem (f := (·.1)) hq
      rw [units] at this
      obtain ⟨k, -, hk⟩ := List.mem_map.mp this
      have := k.isLt
      omega
    · rw [units]
      exact honce.map fun i j e => Fin.ext (Nat.succ.inj e)
  · cases h

theorem toInt_ofInt_setpoint {z : Int} (hz : -32768 ≤ z ∧ z ≤ 32767) : (BitVec.ofInt 16 z).toInt = z :=
  BitVec.toInt_ofInt_eq_self (by decide) (by norm_num; exact hz.1) (by norm_num; omega)

/-- Fallback pairs laid out with a unit number and a setpoint read back as they are (R88, R201). -/
theorem soundPairs_laidOut {pairs : List (UnitId × Int)} {bs : List (Byte × U16)} (honce : (pairs.map (·.1)).Nodup)
    (hz : ∀ q ∈ pairs, -32768 ≤ q.2 ∧ q.2 ≤ 32767)
    (hbs : bs = pairs.map fun q => (BitVec.ofNat 8 (q.1.val + 1), BitVec.ofInt 16 q.2)) :
    soundPairs (bs.map fun q => (q.1.toNat, q.2.toInt)) = some pairs := by
  have read : (bs.map fun q => (q.1.toNat, q.2.toInt)) = pairs.map fun q => (q.1.val + 1, q.2) := by
    rw [hbs, List.map_map]
    refine List.map_congr_left fun q hq => ?_
    have hk := q.1.isLt
    have unit : (BitVec.ofNat 8 (q.1.val + 1)).toNat = q.1.val + 1 := by rw [BitVec.toNat_ofNat]; omega
    exact Prod.ext unit (toInt_ofInt_setpoint (hz q hq))
  rw [read, soundPairs_of_units honce]

/-! ## The groups -/

/-- Does the POWER group hold a value out of its range? (R1, R201) -/
abbrev PowerRefused (x : ConfigArgs) : Prop := 4 ≤ x.cls.toNat ∨ 2 ≤ x.autoSweep.toNat

/-- The fallback pairs as the command writes them, as far as its count (R201). -/
abbrev writtenPairs (x : ConfigArgs) : List (Nat × Int) :=
  (x.fallback.toList.take x.fallbackCount.toNat).map fun q => (q.1.toNat, q.2.toInt)

/-- Does the LENS group hold a value out of its range, or a pair that is not sound? (R88, R201) -/
abbrev LensRefused (x : ConfigArgs) : Prop :=
  2 ≤ x.lensMode.toNat ∨ 3 ≤ x.policy.toNat ∨ 2 ≤ x.lateAction.toNat ∨ 5 ≤ x.fallbackCount.toNat ∨
    (∃ i : Fin 4, i.val < x.fallbackCount.toNat ∧ (x.fallback[i].1 = 0 ∨ 5 ≤ x.fallback[i].1.toNat)) ∨
    ∃ i j : Fin 4, i < j ∧ j.val < x.fallbackCount.toNat ∧ x.fallback[i].1 = x.fallback[j].1

theorem configurePower_sound {k : PowerClass} {y : PortPower} (hk : x.cls.toNat = powerClassNumber k) (ha : x.autoSweep.toNat ≤ 1) :
    configurePower x y = some { y with
      cls := k, retryCount := min x.retryCount.toNat 7, cooldownS := clampTo 1 60 x.cooldown.toNat
      autoSweep := decide (x.autoSweep = 1) } := by
  unfold configurePower
  rw [powerClassNamed_number hk]
  exact if_neg (by omega)

theorem configurePower_refused {y : PortPower} (h : PowerRefused x) : configurePower x y = none := by
  unfold configurePower
  rcases h with h | h
  · rw [powerClassNamed_none h]
  · split
    · rfl
    · exact if_pos h

theorem configureLens_sound {k : Underrun} {pairs : List (UnitId × Int)} {y : LensState} (hm : x.lensMode.toNat ≤ 1)
    (hk : x.policy.toNat = underrunNumber k) (hl : x.lateAction.toNat ≤ 1) (hc : x.fallbackCount.toNat ≤ 4)
    (hp : soundPairs (writtenPairs x) = some pairs) :
    configureLens x y = some { y with
      chain := decide (x.lensMode = 1), policy := k, fallback := pairs
      deadlineMs := clampTo 1 2000 x.deadline.toNat, lateAction := if x.lateAction = 1 then .drop else .expose } := by
  unfold configureLens
  rw [if_neg (by omega), underrunNamed_number hk, lateActionNamed_flag hl, hp]

/-- The unit of a fallback pair within the count is among those that are checked. -/
theorem writtenPairs_getElem (x : ConfigArgs) {i : Fin 4} (hi : i.val < x.fallbackCount.toNat) :
    ∃ h : i.val < (writtenPairs x).length, (writtenPairs x)[i.val].1 = x.fallback[i].1.toNat := by
  have := i.isLt
  refine ⟨by simp; omega, ?_⟩
  simp

/-- A pair of no unit, or two of one unit, are not sound (R88). -/
theorem soundPairs_refused (h : (∃ i : Fin 4, i.val < x.fallbackCount.toNat ∧ (x.fallback[i].1 = 0 ∨ 5 ≤ x.fallback[i].1.toNat)) ∨
      ∃ i j : Fin 4, i < j ∧ j.val < x.fallbackCount.toNat ∧ x.fallback[i].1 = x.fallback[j].1) :
    soundPairs (writtenPairs x) = none := by
  refine Option.eq_none_iff_forall_ne_some.mpr fun us hus => ?_
  obtain ⟨units, once⟩ := soundPairs_sound hus
  rcases h with ⟨i, hi, bad⟩ | ⟨i, j, hij, hj, same⟩
  · obtain ⟨hlt, hget⟩ := writtenPairs_getElem x hi
    obtain ⟨low, high⟩ := units _ (List.getElem_mem hlt)
    rw [hget] at low high
    rcases bad with bad | bad
    · rw [bad] at low
      exact absurd low (by decide)
    · omega
  · obtain ⟨hlt, hget⟩ := writtenPairs_getElem x (Nat.lt_trans hij hj)
    obtain ⟨hlt', hget'⟩ := writtenPairs_getElem x hj
    have units_eq : (writtenPairs x)[i.val].1 = (writtenPairs x)[j.val].1 := by rw [hget, hget', same]
    have differ := List.pairwise_iff_getElem.mp once i.val j.val (by simpa using hlt) (by simpa using hlt') hij
    exact differ ((List.getElem_map ..).trans (units_eq.trans (List.getElem_map ..).symm))

theorem configureLens_refused {y : LensState} (h : LensRefused x) : configureLens x y = none := by
  unfold configureLens
  split_ifs with hm
  · rfl
  · rcases h with h | h | h | h | h
    · omega
    · rw [underrunNamed_none h]
    · rw [lateActionNamed_none h]
      split <;> simp_all
    · omega
    · rw [soundPairs_refused h]
      split <;> simp_all

theorem configureFrame_sound {k : Erasure} {y : FrameRx} (hk : x.erasure.toNat = erasureNumber k) :
    configureFrame x y = some { y with
      limitMs := clampTo 1 10000 x.timeLimit.toNat, erasure := k, fillValue := x.fillValue } := by
  unfold configureFrame
  rw [erasureNamed_number hk]
  rfl

theorem configureFrame_refused {y : FrameRx} (h : 3 ≤ x.erasure.toNat) : configureFrame x y = none := by
  unfold configureFrame
  rw [erasureNamed_none h]
  rfl

/-! ## All groups -/

theorem ifNamed_sound {α : Type} {groups : Byte} {bit : Nat} {old new : α} {o : Option α} (h : groups.getLsbD bit = true → o = some new) :
    ifNamed groups bit old o = some (if groups.getLsbD bit then new else old) := by
  unfold ifNamed
  by_cases hb : groups.getLsbD bit = true
  · rw [if_pos hb, if_pos hb, h hb]
  · rw [if_neg hb, if_neg hb]

theorem ifNamed_refused {α : Type} {groups : Byte} {bit : Nat} {old : α} {o : Option α} (hb : groups.getLsbD bit = true) (h : o = none) :
    ifNamed groups bit old o = none :=
  (if_pos hb).trans h

theorem configured_sound {q : Port} {y : PortPower} {l : LensState} {r : FrameRx} {z : PortSweep}
    (hy : ifNamed x.groups 0 q.power (configurePower x q.power) = some y)
    (hl : ifNamed x.groups 1 q.lens (configureLens x q.lens) = some l)
    (hf : ifNamed x.groups 2 q.frame (configureFrame x q.frame) = some r)
    (hz : ifNamed x.groups 3 q.sweep (some (configureSweep x q.sweep)) = some z) :
    configured x q = some { q with power := y, lens := l, frame := r, sweep := z } := by
  unfold configured
  rw [hy, hl, hf, hz]

/-- One refused group refuses the command (R194). -/
theorem configured_refused {q : Port} (h : ifNamed x.groups 0 q.power (configurePower x q.power) = none ∨
      ifNamed x.groups 1 q.lens (configureLens x q.lens) = none ∨ ifNamed x.groups 2 q.frame (configureFrame x q.frame) = none) :
    configured x q = none := by
  unfold configured
  split
  · rename_i hy hl hf hz
    simp [hy, hl, hf] at h
  · rfl

/-! ## The command -/

theorem portInactive_iff : portInactive p s = true ↔
    ((powerOf p s = .off ∨ powerOf p s = .tripped) ∧ (s.port p).sweep.state = .none) := by
  simp [portInactive, underTest_eq]

theorem takeConfigurePort_active (h : ¬ ((powerOf p s = .off ∨ powerOf p s = .tripped) ∧ (s.port p).sweep.state = .none)) :
    takeConfigurePort a p x s = completeCommand a .portActive (settingsBytes (s.port p)) s :=
  if_pos (by simp [Bool.eq_false_iff.mpr fun hi => h (portInactive_iff.mp hi)])

section
variable (hpow : powerOf p s = .off ∨ powerOf p s = .tripped) (hsweep : (s.port p).sweep.state = .none)
include hpow hsweep

theorem takeConfigurePort_refused (h : configured x (s.port p) = none) :
    takeConfigurePort a p x s = completeCommand a .badArgument (settingsBytes (s.port p)) s := by
  unfold takeConfigurePort
  rw [if_neg (by simp [portInactive_iff.mpr ⟨hpow, hsweep⟩]), h]

theorem takeConfigurePort_sound {q : Port} (h : configured x (s.port p) = some q) :
    takeConfigurePort a p x s = completeCommand a .ok (settingsBytes q) (modPort p (fun _ => q) s) := by
  unfold takeConfigurePort
  rw [if_neg (by simp [portInactive_iff.mpr ⟨hpow, hsweep⟩]), h]
end

theorem settingsBytes_length {q : Port} (h : q.lens.fallback.length ≤ 4) : (settingsBytes q).length ≤ 0xA0 := by
  have pairs : (fallbackBytes q.lens.fallback).length = 16 := by
    have each : ∀ bs ∈ q.lens.fallback.map fun y => u8 (y.1.val + 1) ++ zeros 1 ++ i16 y.2, bs.length = 4 := by
      rintro bs hbs
      obtain ⟨y, -, rfl⟩ := List.mem_map.mp hbs
      simp
    unfold fallbackBytes
    rw [List.length_append, flatten_length_of_forall _ each, List.length_map, zeros_length]
    omega
  unfold settingsBytes
  simp only [List.length_append, pairs, u8_length, flag_length, leBytes_length, zeros_length, u16_length]
  decide

/-- Settles O23. The command's checks are read off its arguments, and its one completion is the framework's. -/
theorem configurePort : Obligations.ConfigurePort := by
  unfold Obligations.ConfigurePort
  refine ⟨?_, ?_, ?_⟩
  · rintro a p x cls policy erasure pairs s ⟨-, hr, hk⟩ hp hpow hsweep hfb hP hL hF
    intro q y l r z new
    have sound : configured x (s.port p) = some new := by
      refine configured_sound (ifNamed_sound fun hb => ?_) (ifNamed_sound fun hb => ?_) (ifNamed_sound fun hb => ?_)
        (ifNamed_sound fun _ => rfl)
      · obtain ⟨hcls, hauto⟩ := hP hb
        exact configurePower_sound hcls hauto
      · obtain ⟨hmode, hpolicy, hlate, hcount, hfew, honce, hbs, hz⟩ := hL hb
        exact configureLens_sound hmode hpolicy hlate (hcount ▸ hfew) (soundPairs_laidOut honce hz (hcount ▸ hbs))
      · exact configureFrame_sound (hF hb)
    have few : new.lens.fallback.length ≤ 4 := by
      change l.fallback.length ≤ 4
      by_cases hb : x.groups.getLsbD 1 = true
      · obtain ⟨-, -, -, -, hfew, -⟩ := hL hb
        simpa only [l, if_pos hb] using hfew
      · simpa only [l, if_neg hb] using hfb
    refine ⟨_, exec_configurePort x hr hp, ?_⟩
    rw [takeConfigurePort_sound (s := takeCommand a s) hpow hsweep sound]
    have taken := shows_takeCommand a s
    exact (taken.still (taken.device.modPort rfl) rfl rfl rfl).commandDone hk (settingsBytes_length few)
  · rintro a p x s ⟨-, hr, hk⟩ hp hact hfb
    refine ⟨_, exec_configurePort x hr hp, ?_⟩
    rw [takeConfigurePort_active (s := takeCommand a s) (by rintro ⟨hpow, hsweep⟩; exact hact.elim (fun h => hpow.elim h.1 h.2) (· hsweep))]
    exact (shows_takeCommand a s).commandDone hk (settingsBytes_length hfb)
  · rintro a p x s ⟨-, hr, hk⟩ hp hpow hsweep hfb hbad
    have refused : configured x (s.port p) = none := by
      refine configured_refused ?_
      rcases hbad with ⟨hb, h⟩ | ⟨hb, h⟩ | ⟨hb, h⟩
      · exact .inl (ifNamed_refused hb (configurePower_refused h))
      · exact .inr (.inl (ifNamed_refused hb (configureLens_refused h)))
      · exact .inr (.inr (ifNamed_refused hb (configureFrame_refused h)))
    refine ⟨_, exec_configurePort x hr hp, ?_⟩
    rw [takeConfigurePort_refused (s := takeCommand a s) hpow hsweep refused]
    exact (shows_takeCommand a s).commandDone hk (settingsBytes_length hfb)

end Sys2Proof.Machine
end

section
/-! PROOFS. Marks and bursts as the Link Receiver judges them: the exact mark of a length, a mark that is none, and a burst as its head
sends it (R24, R25, R26). -/

namespace Sys2Proof.Machine

/-! ## Marks -/

/-- The bits of an exact mark: the length twice above the sync pattern (R24). -/
theorem exactMark_getLsbD (len : U16) (i : Nat) : (exactMark len).getLsbD i =
    if i < 32 then syncPattern.getLsbD i else if i < 48 then len.getLsbD (i - 32) else len.getLsbD (i - 48) := by
  have e : exactMark len = ((len ++ len) ++ syncPattern : BitVec (16 + 16 + 32)) := rfl
  rw [e, BitVec.getLsbD_append, BitVec.getLsbD_append]
  have low : i - 32 < 16 ↔ i < 48 ∨ i < 32 := by omega
  by_cases h : i < 32
  · simp [h]
  · simp [h, low, Nat.sub_sub]

theorem judgeMark_exactMark {len : U16} (h8 : 8 ≤ len.toNat) (hmax : len.toNat ≤ 16394) :
    judgeMark (exactMark len) = some len.toNat := by
  have sync : (exactMark len).extractLsb' 0 32 = syncPattern := by
    refine BitVec.eq_of_getLsbD_eq fun i hi => ?_
    rw [BitVec.getLsbD_extractLsb', exactMark_getLsbD]
    simp [hi]
  have first : (exactMark len).extractLsb' 32 16 = len := by
    refine BitVec.eq_of_getLsbD_eq fun i hi => ?_
    rw [BitVec.getLsbD_extractLsb', exactMark_getLsbD, if_neg (by omega), if_pos (by omega)]
    simp [hi]
  have second : (exactMark len).extractLsb' 48 16 = len := by
    refine BitVec.eq_of_getLsbD_eq fun i hi => ?_
    rw [BitVec.getLsbD_extractLsb', exactMark_getLsbD, if_neg (by omega), if_neg (by omega)]
    simp [hi]
  unfold judgeMark
  dsimp only
  rw [sync, first, second, if_pos ⟨rfl, rfl, h8, hmax⟩]

/-- A mark judged exact is the exact mark of its length (R24). -/
theorem eq_exactMark {mark : U64} (hsync : mark.extractLsb' 0 32 = syncPattern)
    (hlen : mark.extractLsb' 32 16 = mark.extractLsb' 48 16) : mark = exactMark (mark.extractLsb' 32 16) := by
  refine BitVec.eq_of_getLsbD_eq fun i hi => ?_
  rw [exactMark_getLsbD]
  split
  · rename_i h
    rw [← hsync, BitVec.getLsbD_extractLsb']
    simp [h]
  · split
    · rw [BitVec.getLsbD_extractLsb', decide_eq_true (by omega), Bool.true_and, Nat.add_sub_cancel' (by omega)]
    · rw [hlen, BitVec.getLsbD_extractLsb', decide_eq_true (by omega), Bool.true_and, Nat.add_sub_cancel' (by omega)]

/-- Every mark but the exact ones of a legal length is bad (R24). -/
theorem judgeMark_bad {mark : U64} (h : ∀ n : U16, 8 ≤ n.toNat → n.toNat ≤ 16394 → mark ≠ exactMark n) : judgeMark mark = none := by
  unfold judgeMark
  dsimp only
  rw [if_neg]
  rintro ⟨hsync, hlen, h8, hmax⟩
  exact h _ h8 hmax (eq_exactMark hsync hlen)

/-! ## Fields of bytes that follow one another -/

theorem leValue_leBytes (k n : Nat) : leValue (leBytes k n) = n % 256 ^ k := by
  induction k generalizing n with
  | zero => rw [leBytes, leValue, pow_zero, Nat.mod_one]
  | succ k ih => rw [leBytes, leValue, ih, BitVec.toNat_ofNat, pow_succ' 256 k, Nat.mod_mul]

/-- A field that begins past the first bytes lies in the rest. -/
theorem field_append_right {a : List Byte} (b : List Byte) {off : Nat} (k : Nat) (h : a.length ≤ off) :
    field (a ++ b) off k = field b (off - a.length) k := by
  unfold field
  rw [List.drop_append, List.drop_of_length_le h, List.nil_append]

/-- A field that ends within the first bytes lies in them. -/
theorem field_append_left {a : List Byte} (b : List Byte) {off k : Nat} (h : off + k ≤ a.length) :
    field (a ++ b) off k = field a off k := by
  unfold field
  rw [List.drop_append, List.take_append_of_le_length (by rw [List.length_drop]; omega)]

theorem field_leBytes_append (k n : Nat) (b : List Byte) : field (leBytes k n ++ b) 0 k = n % 256 ^ k := by
  rw [field_append_left b (by simp), field, List.drop_zero, List.take_of_length_le (by simp), leValue_leBytes]

theorem field_leBytes (k n : Nat) : field (leBytes k n) 0 k = n % 256 ^ k := by
  have h := field_leBytes_append k n []
  rwa [List.append_nil] at h

/-! ## Bursts -/

/-- A burst whose checks are its own is judged by its kind, header and payload (R25, R26). -/
theorem parseBurst_checked {header : List Byte} {hl : Nat} (payload : List Byte) (hlen : header.length = hl)
    (hkind : headerLength (field header 0 1) = some hl) (hpos : 1 ≤ hl) :
    parseBurst (header ++ u16 (headerCheck header) ++ payload ++ u32 (payloadCheck payload)) =
      burstOf (field header 0 1) header payload := by
  generalize hbs : header ++ u16 (headerCheck header) ++ payload ++ u32 (payloadCheck payload) = bs
  have size : bs.length = hl + 6 + payload.length := by
    rw [← hbs]
    simp only [List.length_append, u16_length, u32_length, hlen]
    omega
  have kind : field bs 0 1 = field header 0 1 := by
    rw [← hbs, List.append_assoc, List.append_assoc, field_append_left _ (by omega)]
  have head : bs.take hl = header := by
    rw [← hbs, List.append_assoc, List.append_assoc, ← hlen, List.take_left]
  have body : (bs.drop (hl + 2)).take (bs.length - hl - 6) = payload := by
    have front : (header ++ u16 (headerCheck header)).length = hl + 2 := by simp [hlen]
    rw [size, ← hbs, List.append_assoc _ payload, ← front, List.drop_left]
    exact List.take_left' (by omega)
  have check : field bs hl 2 = (headerCheck header).toNat := by
    rw [← hbs, List.append_assoc, List.append_assoc, field_append_right _ _ (by omega), hlen, Nat.sub_self]
    exact (field_leBytes_append 2 _ _).trans (Nat.mod_eq_of_lt (headerCheck header).isLt)
  have tail : field bs (bs.length - 4) 4 = (payloadCheck payload).toNat := by
    have front : (header ++ u16 (headerCheck header) ++ payload).length = bs.length - 4 := by
      rw [size]
      simp only [List.length_append, u16_length, hlen]
      omega
    rw [← front, ← hbs, field_append_right _ _ (le_refl _), Nat.sub_self]
    exact (field_leBytes 4 _).trans (Nat.mod_eq_of_lt (payloadCheck payload).isLt)
  unfold parseBurst
  dsimp only
  rw [kind, hkind]
  dsimp only
  rw [if_neg (by omega), head, body, check, tail, if_pos ⟨by simp, by simp⟩]

/-- The header of a FRAME-OPEN gives back its fields (R25). -/
theorem frameHeaderOf_parts {h : FrameHeader} (hv : headerValid h = true) : frameHeaderOf (burstParts (.frameOpen h)).1 = h := by
  simp only [headerValid, depthValid, Bool.and_eq_true, Bool.or_eq_true, decide_eq_true_eq] at hv
  obtain ⟨tag, counter, width, height, depth, exposure⟩ := h
  obtain ⟨⟨⟨⟨-, hw⟩, -⟩, hh⟩, hd⟩ := hv
  dsimp only at hw hh hd
  simp only [burstParts, frameHeaderOf, List.append_assoc]
  simp (disch := simp) only [field_append_right, u8_length, u16_length, u32_length, zeros_length, leBytes_length]
  simp only [u8, u16, u32, Nat.reduceSub, field_leBytes_append, field_leBytes, Nat.reducePow]
  rw [Nat.mod_eq_of_lt (show width < 65536 by omega), Nat.mod_eq_of_lt (show height < 65536 by omega),
    Nat.mod_eq_of_lt (show depth < 256 by omega), Nat.mod_eq_of_lt tag.isLt, Nat.mod_eq_of_lt counter.isLt,
    Nat.mod_eq_of_lt exposure.isLt]
  simp

/-- The number in the header of a LINE or a FRAME-CLOSE (R25). -/
theorem field_number {n : Nat} (kind : Nat) (h : n < 65536) : field (u8 kind ++ (zeros 1 ++ leBytes 2 n)) 2 2 = n := by
  rw [field_append_right _ _ (by simp), field_append_right _ _ (by simp)]
  exact (field_leBytes 2 n).trans (Nat.mod_eq_of_lt h)

/-- The first byte of a burst says its kind (R25). -/
theorem field_kind (kind : Nat) (rest : List Byte) : field (u8 kind ++ rest) 0 1 = kind % 256 := field_leBytes_append 1 kind rest

/-- A legal burst is judged to be what its head sent (R25, R26). -/
theorem parseBurst_encodeBurst {b : Burst} (h : burstLegal b = true) : parseBurst (encodeBurst b) = b := by
  cases b with
  | frameOpen h' =>
    have kind : field (burstParts (.frameOpen h')).1 0 1 = 1 := by
      simp only [burstParts, List.append_assoc]
      exact field_kind 1 _
    unfold encodeBurst
    rw [parseBurst_checked (hl := 18) _ (by simp [burstParts]) (by rw [kind]; rfl) (by decide), kind, burstOf, if_pos rfl,
      frameHeaderOf_parts h, if_pos ⟨rfl, h⟩]
  | line n data =>
    simp only [burstLegal, Bool.and_eq_true, decide_eq_true_eq] at h
    obtain ⟨⟨hn, h1⟩, hmax⟩ := h
    have kind : field (burstParts (.line n data)).1 0 1 = 2 := by
      simp only [burstParts, List.append_assoc]
      exact field_kind 2 _
    unfold encodeBurst
    rw [parseBurst_checked (hl := 4) _ (by simp [burstParts]) (by rw [kind]; rfl) (by decide), kind]
    simp [burstOf, burstParts, field_number 2 hn, h1, hmax]
  | frameClose n =>
    have hn : n ≤ 8192 := by simpa [burstLegal] using h
    have kind : field (burstParts (.frameClose n)).1 0 1 = 3 := by
      simp only [burstParts, List.append_assoc]
      exact field_kind 3 _
    unfold encodeBurst
    rw [parseBurst_checked (hl := 4) _ (by simp [burstParts]) (by rw [kind]; rfl) (by decide), kind]
    simp [burstOf, burstParts, field_number (n := n) 3 (by omega), hn]
  | fill =>
    unfold encodeBurst
    rw [parseBurst_checked (hl := 2) _ rfl rfl (by decide)]
    rfl
  | damaged => cases h

end Sys2Proof.Machine
end

section
/-! PROOFS. What a state shows when a port's frame, flex map or channel changes, when the flex map is charged (R165 to R167) and when
lines are erased or stored (R113 to R118). -/

namespace Sys2Proof.Machine

variable {s v u : State} {w : List BusEvent} {p : PortId}

/-! ## Changes of a port's frame, flex map and pattern -/

theorem portView_frame {x y : Port} (h : portView x = portView y) {a b : FrameRx} (hab : a = b) :
    portView { x with frame := a } = portView { y with frame := b } :=
  hab ▸ (congrArg (fun q : Port => ({ q with frame := a } : Port)) h :)

theorem portView_flex {x y : Port} (h : portView x = portView y) {a b : FlexMap} (hab : a = b) :
    portView { x with flex := a } = portView { y with flex := b } :=
  hab ▸ (congrArg (fun q : Port => ({ q with flex := a } : Port)) h :)

theorem SameDevice.modFrame (h : SameDevice v u) {f g : FrameRx → FrameRx} (hf : f (u.port p).frame = g (u.port p).frame) :
    SameDevice (modFrame p f v) (modFrame p g u) :=
  h.modPort (portView_frame (h.ports p) ((congrArg f (h.portFrame p)).trans hf))

theorem SameDevice.modFlex (h : SameDevice v u) {f g : FlexMap → FlexMap} (hf : f (u.port p).flex = g (u.port p).flex) :
    SameDevice (modFlex p f v) (modFlex p g u) :=
  h.modPort (portView_flex (h.ports p) ((congrArg f (h.portFlex p)).trans hf))

theorem Shows.modFrame (h : Shows s v u w) (p : PortId) {f g : FrameRx → FrameRx}
    (hf : f (u.port p).frame = g (u.port p).frame) : Shows s (modFrame p f v) (modFrame p g u) w :=
  h.still (h.device.modFrame hf) rfl rfl rfl

theorem Shows.modFlex (h : Shows s v u w) (p : PortId) {f g : FlexMap → FlexMap}
    (hf : f (u.port p).flex = g (u.port p).flex) : Shows s (modFlex p f v) (modFlex p g u) w :=
  h.still (h.device.modFlex hf) rfl rfl rfl

/-- Two changes of a port's frame are one. -/
theorem sameDevice_modFrame_twice (f g : FrameRx → FrameRx) (u : State) :
    SameDevice (modFrame p g (modFrame p f u)) (modFrame p (fun r => g (f r)) u) :=
  sameDevice_modPort_twice _ _ fun _ _ e => portView_frame e (congrArg g (congrArg Port.frame e :))

/-- Two changes of a port's flex map are one. -/
theorem sameDevice_modFlex_twice (f g : FlexMap → FlexMap) (u : State) :
    SameDevice (modFlex p g (modFlex p f u)) (modFlex p (fun x => g (f x)) u) :=
  sameDevice_modPort_twice _ _ fun _ _ e => portView_flex e (congrArg g (congrArg Port.flex e :))

/-- A change of the frame that changes nothing. -/
theorem sameDevice_modFrame {f : FrameRx → FrameRx} (h : f (u.port p).frame = (u.port p).frame) : SameDevice (modFrame p f u) u :=
  sameDevice_modPort (by rw [h])

/-! ## The flex map is charged -/

theorem chargeBin_eq (p : PortId) (s : State) : chargeBin p s = (s.port p).flex.axis.map fun ax =>
    flexBin (s.port p).flex.low.toInt (s.port p).flex.high.toInt (axisState ax s.trig).position.toInt := rfl

theorem SameDevice.chargeBin (h : SameDevice v u) (p : PortId) : chargeBin p v = chargeBin p u := by
  rw [chargeBin_eq, chargeBin_eq, h.portFlex, h.trig]

theorem alertMessage_congr (ha : (v.port p).alerts = (u.port p).alerts) (hc : v.chain = u.chain) (bit : Nat) :
    alertMessage p bit v = alertMessage p bit u := by
  unfold alertMessage
  rw [ha, hc]

/-- A charged flex map, before its bin is judged (R165, R166). -/
abbrev chargedMap (b : BinId) (weight : Nat) (x : FlexMap) : FlexMap :=
  { x with bins := x.bins.set b (min (x.bins[b] + weight) 65535), total := x.total + BitVec.ofNat 32 weight }

/-- A flex map with a bin more in its list of suspects, and one with a crossing more than the list has room for (R167). -/
abbrev listedMap (b : BinId) (x : FlexMap) : FlexMap := { x with suspects := x.suspects ++ [b] }
@[inherit_doc listedMap]
abbrev overflowedMap (x : FlexMap) : FlexMap := { x with overflow := x.overflow + 1 }

/-- Does a charge bring a bin to the threshold (R167)? -/
abbrev Crosses (b : BinId) (weight : Nat) (x : FlexMap) : Prop :=
  x.bins[b] < x.threshold ∧ x.threshold ≤ min (x.bins[b] + weight) 65535

theorem flexCharged_none {n : Nat} (h : chargeBin p s = none) : flexCharged p n s = (s, []) := by
  have axis : (s.port p).flex.axis = none := by simpa [chargeBin_eq] using h
  unfold flexCharged
  dsimp only
  rw [axis]

theorem flexCharged_some {n : Nat} {b : BinId} (h : chargeBin p s = some b) : flexCharged p n s =
    if Crosses b n (s.port p).flex then
      if (s.port p).flex.suspects.length < 8 then
        (withAlert p 8 (modFlex p (fun x => listedMap b (chargedMap b n x)) s), alertMessage p 8 s)
      else (modFlex p (fun x => overflowedMap (chargedMap b n x)) s, [])
    else (modFlex p (chargedMap b n) s, []) := by
  rw [chargeBin_eq] at h
  obtain ⟨ax, axis, rfl⟩ := Option.map_eq_some_iff.mp h
  unfold flexCharged
  dsimp only
  split
  · rename_i e
    cases e.symm.trans axis
  · rename_i e
    cases e.symm.trans axis
    rfl

theorem flexCharge_none {n : Nat} (h : chargeBin p s = none) : flexCharge p n s = s := by
  unfold flexCharge
  rw [h]

theorem flexCharge_some {n : Nat} {b : BinId} (h : chargeBin p s = some b) : flexCharge p n s =
    if Crosses b n (s.port p).flex then crossBin p b (modFlex p (chargedMap b n) s) else modFlex p (chargedMap b n) s := by
  unfold flexCharge
  rw [h]
  rfl

/-- A charge on the flex map (R165, R166, R167). -/
theorem Shows.flexCharge (h : Shows s v u w) (p : PortId) (n : Nat) :
    Shows s (flexCharge p n v) (flexCharged p n u).1 ((flexCharged p n u).2 ++ w) := by
  have same := h.device.chargeBin p
  cases hb : Machine.chargeBin p u with
  | none =>
    rw [flexCharge_none (same.trans hb), flexCharged_none hb]
    exact h
  | some b =>
    have charged : Shows s (Machine.modFlex p (chargedMap b n) v) (Machine.modFlex p (chargedMap b n) u) w := h.modFlex p rfl
    rw [flexCharge_some (same.trans hb), flexCharged_some hb, h.device.portFlex p]
    by_cases crosses : Crosses b n (u.port p).flex
    · have suspects : ((Machine.modFlex p (chargedMap b n) v).port p).flex.suspects = (u.port p).flex.suspects := by
        rw [modFlex_port_self, h.device.portFlex p]
      unfold crossBin
      rw [if_pos crosses, if_pos crosses, suspects]
      split
      · have listed : Shows s (Machine.modFlex p (listedMap b) (Machine.modFlex p (chargedMap b n) v))
            (Machine.modFlex p (fun x => listedMap b (chargedMap b n x)) u) w :=
          (charged.modFlex p rfl).to (sameDevice_modFlex_twice ..)
        have alerted := listed.setPortAlert p alertFlexSuspect
        rwa [alertMessage_congr (u := u) (modFlex_port_alerts ..) rfl] at alerted
      · have counted : Shows s (Machine.modFlex p overflowedMap (Machine.modFlex p (chargedMap b n) v))
            (Machine.modFlex p (fun x => overflowedMap (chargedMap b n x)) u) w :=
          (charged.modFlex p rfl).to (sameDevice_modFlex_twice ..)
        exact counted
    · rw [if_neg crosses, if_neg crosses]
      exact charged

/-! ## Lines are erased -/

theorem fillingOf_filling {r : FrameRx} {f : Filling} (h : r.recv = .filling f) : fillingOf r = some f := by
  unfold fillingOf
  rw [h]

/-- The entry at the head of the list is that of its trigger number. -/
theorem findEntry_head {r : FrameRx} {e : Entry} {rest : List Entry} (h : r.entries = e :: rest) : findEntry r e.trigger = some e := by
  unfold findEntry
  rw [h]
  exact List.find?_cons_of_pos (by simp)

theorem erasedLines_congr {r r' : FrameRx} (he : r.erasure = r'.erasure) (hf : r.fillValue = r'.fillValue) (e : Entry) (n : Nat)
    (f : Filling) : erasedLines r e n f = erasedLines r' e n f := by
  induction n with
  | zero => rfl
  | succ n ih =>
    unfold erasedLines fillBytes
    rw [ih, he, hf]

/-- One erased line (R115, R117, R118). -/
theorem erasedLines_one (r : FrameRx) (e : Entry) (f : Filling) : erasedLines r e 1 f =
    ({ f with
        ranges := (addRange f.ranges f.next).1, overflow := f.overflow || (addRange f.ranges f.next).2, erased := f.erased + 1
        truncated := f.truncated || !lineFits e f.bytesPerLine f.next, next := f.next + 1 },
     if lineFits e f.bytesPerLine f.next then [.write (lineAddress e f.next) (erasedLine r e.format f)] else []) := rfl

/-- One line more is erased after `n` (R117, R118). -/
theorem erasedLines_succ (r : FrameRx) (e : Entry) (n : Nat) (f : Filling) : erasedLines r e (n + 1) f =
    ((erasedLines r e 1 (erasedLines r e n f).1).1, (erasedLines r e 1 (erasedLines r e n f).1).2 ++ (erasedLines r e n f).2) := by
  have first : ∀ (fits : Bool) (x : BusEvent) (l : List BusEvent),
      (if fits then x :: l else l) = (if fits then [x] else []) ++ l := by
    intro fits x l
    cases fits <;> rfl
  exact Prod.ext rfl (first ..)

/-- What erased lines leave of the frame being filled: its place in the list, its header, its lines written and cut, and the last one;
and on to the next line. -/
theorem erasedLines_keeps (r : FrameRx) (e : Entry) (n : Nat) (f : Filling) :
    let g := (erasedLines r e n f).1
    g.trigger = f.trigger ∧ g.header = f.header ∧ g.bytesPerLine = f.bytesPerLine ∧ g.written = f.written ∧ g.cut = f.cut ∧
      g.next = f.next + n := by
  induction n with
  | zero => exact ⟨rfl, rfl, rfl, rfl, rfl, rfl⟩
  | succ n ih =>
    obtain ⟨h1, h2, h3, h4, h5, h6⟩ := ih
    exact ⟨h1, h2, h3, h4, h5, congrArg (· + 1) h6⟩

theorem addRange_length {l : List (Nat × Nat)} (h : l.length ≤ 16) (y : Nat) : (addRange l y).1.length ≤ 16 := by
  unfold addRange
  split
  · rename_i a c hlast
    have pos : l ≠ [] := by rintro rfl; cases hlast
    have := List.length_pos_iff.mpr pos
    split
    · simp only [List.length_append, List.length_dropLast, List.length_singleton]
      omega
    · split
      · simpa using by omega
      · exact h
  · simp

/-- The erased-range list has sixteen places (R118). -/
theorem erasedLines_ranges (r : FrameRx) (e : Entry) (n : Nat) {f : Filling} (h : f.ranges.length ≤ 16) :
    (erasedLines r e n f).1.ranges.length ≤ 16 := by
  induction n with
  | zero => exact h
  | succ n ih => exact addRange_length ih _

theorem eraseLines_succ (n : Nat) (s : State) : eraseLines p (n + 1) s = eraseNext p (eraseLines p n s) := by
  induction n generalizing s with
  | zero => rfl
  | succ n ih => exact ih (eraseNext p s)

/-- The card with a frame being filled at a port (R106). -/
abbrev withFilling (p : PortId) (f : Filling) (u : State) : State := modFrame p (fun r => { r with recv := .filling f }) u

theorem sameDevice_withFilling {f : Filling} (h : (u.port p).frame.recv = .filling f) : SameDevice (withFilling p f u) u :=
  sameDevice_modFrame (by rw [← h])

theorem Shows.setFilling {f : Filling} (h : Shows s v (withFilling p f u) w) (g : Filling) :
    Shows s (setFilling p g v) (withFilling p g u) w :=
  (h.modFrame p rfl).to (sameDevice_modFrame_twice ..)

/-- The frame being filled and its entry, as a state shows them. -/
theorem Shows.frame_filling {f : Filling} (h : Shows s v (withFilling p f u) w) :
    (v.port p).frame = { (u.port p).frame with recv := .filling f } :=
  (h.device.portFrame p).trans (modFrame_port_self ..)

theorem eraseNext_filling {f : Filling} {e : Entry} (hf : (s.port p).frame.recv = .filling f)
    (he : findEntry (s.port p).frame f.trigger = some e) : eraseNext p s =
      setFilling p (erasedLines (s.port p).frame e 1 f).1 (if lineFits e f.bytesPerLine f.next then
        dmaWrite (lineAddress e f.next) (erasedLine (s.port p).frame e.format f) s else s) := by
  unfold eraseNext
  dsimp only
  rw [fillingOf_filling hf]
  dsimp only
  rw [he]
  rfl

theorem writeNext_filling {f : Filling} {e : Entry} (hf : (s.port p).frame.recv = .filling f)
    (he : findEntry (s.port p).frame f.trigger = some e) (data : List Byte) : writeNext p data s =
      if f.next * e.stride + f.bytesPerLine ≤ e.bufSize then
        let stored := storeLine e.format f.header.width f.header.depth data
        setFilling p { f with written := f.written + 1, lastLine := some stored, next := f.next + 1 }
          (dmaWrite (lineAddress e f.next) stored s)
      else setFilling p { f with cut := f.cut + 1, truncated := true, next := f.next + 1 } s := by
  unfold writeNext
  dsimp only
  rw [fillingOf_filling hf]
  dsimp only
  rw [he]
  simp only [lineFits, decide_eq_true_eq]

/-- The next line is erased (R115, R117, R118). -/
theorem Shows.eraseNext {f : Filling} {e : Entry} (h : Shows s v (withFilling p f u) w)
    (he : findEntry (u.port p).frame f.trigger = some e) :
    Shows s (eraseNext p v) (withFilling p (erasedLines (u.port p).frame e 1 f).1 u) ((erasedLines (u.port p).frame e 1 f).2 ++ w) := by
  have frame := h.frame_filling
  rw [eraseNext_filling (by rw [frame]) (by rw [frame]; exact he),
    erasedLines_congr (r' := (u.port p).frame) (by rw [frame]) (by rw [frame]), erasedLines_one]
  cases lineFits e f.bytesPerLine f.next
  · exact h.setFilling _
  · rw [frame]
    exact (h.dmaWrite _ _).setFilling _

/-- Some lines are erased, one after the other (R115, R117, R118). -/
theorem Shows.eraseLines {f : Filling} {e : Entry} (h : Shows s v (withFilling p f u) w)
    (he : findEntry (u.port p).frame f.trigger = some e) (n : Nat) :
    Shows s (eraseLines p n v) (withFilling p (erasedLines (u.port p).frame e n f).1 u) ((erasedLines (u.port p).frame e n f).2 ++ w) := by
  induction n with
  | zero => exact h
  | succ n ih =>
    obtain ⟨trigger, -⟩ := erasedLines_keeps (u.port p).frame e n f
    rw [eraseLines_succ, erasedLines_succ, List.append_assoc]
    exact ih.eraseNext (trigger ▸ he)

/-- The next line is stored, or cut where the buffer ends (R113, R115). -/
theorem Shows.writeNext {f : Filling} {e : Entry} (h : Shows s v (withFilling p f u) w)
    (he : findEntry (u.port p).frame f.trigger = some e) (data : List Byte) :
    (f.next * e.stride + f.bytesPerLine ≤ e.bufSize →
      let stored := storeLine e.format f.header.width f.header.depth data
      Shows s (writeNext p data v) (withFilling p { f with written := f.written + 1, lastLine := some stored, next := f.next + 1 } u)
        (.write (e.bufAddr + BitVec.ofNat 64 (f.next * e.stride)) stored :: w)) ∧
    (e.bufSize < f.next * e.stride + f.bytesPerLine →
      Shows s (writeNext p data v) (withFilling p { f with cut := f.cut + 1, truncated := true, next := f.next + 1 } u) w) := by
  have frame := h.frame_filling
  rw [writeNext_filling (by rw [frame]) (by rw [frame]; exact he)]
  refine ⟨fun fits => ?_, fun beyond => ?_⟩
  · rw [if_pos fits]
    exact (h.dmaWrite _ _).setFilling _
  · rw [if_neg (Nat.not_le.mpr beyond)]
    exact h.setFilling _

/-! ## A burst ends -/

theorem pushHistory_eq {l : List HistoryEntry} (h : l.length ≤ 8) (x : HistoryEntry) :
    pushHistory l x = l.drop (l.length - 7) ++ [x] := by
  unfold pushHistory
  split
  · rw [show l.length - 7 = 0 by omega, List.drop_zero]
  · rw [show l.length - 7 = 1 by omega]

theorem modLink_congr {f g : LinkRx → LinkRx} (h : f (s.port p).link = g (s.port p).link) : modLink p f s = modLink p g s :=
  (congrArg (fun l => modPort p (fun q => { q with link := l }) s) h :)

theorem burstKind_damaged (b : Burst) : burstKind b = .damaged ↔ b = .damaged := by
  cases b <;> simp [burstKind]

/-- A burst that ends in LOCKED is counted and enters the window (R34, R39, R40). -/
theorem recordBurst_locked (hl : (s.port p).link.state = .locked) (hh : (s.port p).link.history.length ≤ 8) (b : Burst) (exact : Bool) :
    recordBurst p b exact s = modLink p (heard (burstKind b) exact) s := by
  refine modLink_congr ?_
  dsimp only
  rw [if_pos hl, pushHistory_eq hh]
  simp only [heard, burstKind_damaged]

/-- A burst that ends in CONFIRM enters the window and is not counted (R29, R39). -/
theorem recordBurst_confirm (hl : (s.port p).link.state = .confirm) (hh : (s.port p).link.history.length ≤ 8) (b : Burst) (exact : Bool) :
    recordBurst p b exact s = modLink p (fun l => { l with
      burst := none, history := l.history.drop (l.history.length - 7) ++ [⟨burstKind b, exact⟩] }) s := by
  refine modLink_congr ?_
  dsimp only
  rw [if_neg (by rw [hl]; decide), pushHistory_eq hh]

/-- The bytes announced have arrived in LOCKED: the burst is counted and handed on (R26, R33). -/
theorem endBurst_locked {bytes : List Byte} (hl : (s.port p).link.state = .locked)
    (hb : (s.port p).link.burst = some (.exact bytes.length)) (hh : (s.port p).link.history.length ≤ 8) :
    endBurst p bytes s = handBurst p (parseBurst bytes) (modLink p (heard (burstKind (parseBurst bytes)) true) s) := by
  unfold endBurst lockedBurst
  dsimp only
  rw [hb]
  dsimp only
  rw [if_pos rfl, hl, recordBurst_locked hl hh]

/-- The bytes announced have arrived in CONFIRM: the burst enters the window alone (R26, R29). -/
theorem endBurst_confirm {bytes : List Byte} (hl : (s.port p).link.state = .confirm)
    (hb : (s.port p).link.burst = some (.exact bytes.length)) (hh : (s.port p).link.history.length ≤ 8) :
    endBurst p bytes s = modLink p (fun l => { l with
      burst := none, history := l.history.drop (l.history.length - 7) ++ [⟨burstKind (parseBurst bytes), true⟩] }) s := by
  unfold endBurst
  dsimp only
  rw [hb]
  dsimp only
  rw [if_pos rfl, hl, recordBurst_confirm hl hh]

/-- At a boundary a burst begun by a bad mark ends as damaged (R26, R34). -/
theorem endBadBurst_bad (hl : (s.port p).link.state = .locked) (hb : (s.port p).link.burst = some .bad)
    (hh : (s.port p).link.history.length ≤ 8) :
    endBadBurst p s = handBurst p .damaged (modLink p (heard .damaged false) s) := by
  have recorded : recordBurst p .damaged false s = modLink p (heard .damaged false) s := recordBurst_locked hl hh .damaged false
  unfold endBadBurst endBurst lockedBurst
  dsimp only
  rw [if_pos hb, hb]
  dsimp only
  rw [if_pos hl, recorded]

theorem endBadBurst_other (hb : (s.port p).link.burst ≠ some .bad) : endBadBurst p s = s := if_neg hb

/-- A damaged burst with no line expected is a charge on the flex map and nothing more (R116, R119, R165). -/
theorem takeDamaged_kept (h : ∀ f, (s.port p).frame.recv = .filling f → f.header.height ≤ f.next) : takeDamaged p s = s := by
  unfold takeDamaged fillingOf
  split
  · rename_i f hf
    split at hf
    · rename_i g hg
      cases hf
      exact if_neg (Nat.not_lt.mpr (h _ hg))
    · cases hf
  · rfl

/-- The line a damaged burst takes is erased (R116). -/
theorem Shows.takeDamaged {f : Filling} {e : Entry} (h : Shows s v (withFilling p f u) w)
    (he : findEntry (u.port p).frame f.trigger = some e) : Shows s (takeDamaged p v)
      (withFilling p (erasedLines (u.port p).frame e (if f.next < f.header.height then 1 else 0) f).1 u)
      ((erasedLines (u.port p).frame e (if f.next < f.header.height then 1 else 0) f).2 ++ w) := by
  have filling : fillingOf (v.port p).frame = some f := by rw [h.frame_filling]; rfl
  unfold Machine.takeDamaged
  rw [filling]
  dsimp only
  split
  · exact h.eraseNext he
  · exact h

end Sys2Proof.Machine
end

section
/-! PROOFS. FILL, damaged bursts and LINEs in LOCKED (R33, R34, R39, R113 to R119, R165 to R167). -/

namespace Sys2Proof.Machine

variable {s v u : State} {w : List BusEvent} {p : PortId}

/-! ## Damaged bursts -/

theorem modFlex_congr {f g : FlexMap → FlexMap} (h : f (s.port p).flex = g (s.port p).flex) : modFlex p f s = modFlex p g s :=
  (congrArg (fun x => modPort p (fun q => { q with flex := x }) s) h :)

/-- What is shown of a port that is filling a frame: its frame being filled, written out. -/
theorem shows_withFilling {f : Filling} (h : Shows s v u w) (hf : (u.port p).frame.recv = .filling f) :
    Shows s v (withFilling p f u) w := h.to (sameDevice_withFilling hf).symm

theorem shows_heard (k : BurstKind) (exact : Bool) (s : State) : Shows s (modLink p (heard k exact) s) (modLink p (heard k exact) s) [] :=
  (Shows.refl s).modLink p rfl

/-- A damaged burst with no line expected (R34, R165). -/
theorem shows_damaged_kept (exact : Bool) (h : ∀ f, (s.port p).frame.recv = .filling f → f.header.height ≤ f.next) :
    let x := flexCharged p 1 (modLink p (heard .damaged exact) s)
    Shows s (handBurst p .damaged (modLink p (heard .damaged exact) s)) x.1 x.2 := by
  have kept : takeDamaged p (modLink p (heard .damaged exact) s) = modLink p (heard .damaged exact) s :=
    takeDamaged_kept fun f hf => h f (by rwa [modLink_port_frame] at hf)
  unfold handBurst
  dsimp only
  rw [kept]
  simpa using (shows_heard .damaged exact s).flexCharge p 1

/-- A damaged burst in place of the line expected (R34, R116, R165). -/
theorem shows_damaged_erased (exact : Bool) {f : Filling} {e : Entry} (hf : (s.port p).frame.recv = .filling f)
    (hnext : f.next < f.header.height) (he : findEntry (s.port p).frame f.trigger = some e) :
    let g := erasedLines (s.port p).frame e 1 f
    let x := flexCharged p 1 (modFrame p (fun r => { r with recv := .filling g.1 }) (modLink p (heard .damaged exact) s))
    Shows s (handBurst p .damaged (modLink p (heard .damaged exact) s)) x.1 (x.2 ++ g.2) := by
  have frame : ((modLink p (heard .damaged exact) s).port p).frame = (s.port p).frame := modLink_port_frame ..
  have filling := shows_withFilling (p := p) (shows_heard .damaged exact s) (frame ▸ hf)
  have lost := filling.takeDamaged (frame ▸ he)
  rw [frame, if_pos hnext, List.append_nil] at lost
  exact lost.flexCharge p 1

theorem damagedHeard_kept {exact : Bool} (h : ∀ f, (s.port p).frame.recv = .filling f → f.header.height ≤ f.next) :
    damagedHeard p exact s = flexCharged p 1 (modLink p (heard .damaged exact) s) := by
  unfold damagedHeard
  split
  · rename_i f e rest hf hentries
    simp only [if_neg (Nat.not_lt.mpr (h f hf)), List.append_nil]
  · simp only [List.append_nil]

theorem damagedHeard_erased {exact : Bool} {f : Filling} {e : Entry} {rest : List Entry} (hf : (s.port p).frame.recv = .filling f)
    (hnext : f.next < f.header.height) (hentries : (s.port p).frame.entries = e :: rest) :
    let g := erasedLines (s.port p).frame e 1 f
    let x := flexCharged p 1 (modFrame p (fun r => { r with recv := .filling g.1 }) (modLink p (heard .damaged exact) s))
    damagedHeard p exact s = (x.1, x.2 ++ g.2) := by
  unfold damagedHeard
  rw [hf, hentries]
  simp only [if_pos hnext]

/-- A damaged burst of a port whose frame being filled is that of its oldest entry (R34, R116, R165). -/
theorem shows_damagedHeard (exact : Bool) (h : FillsOldest p s) :
    Shows s (handBurst p .damaged (modLink p (heard .damaged exact) s)) (damagedHeard p exact s).1 (damagedHeard p exact s).2 := by
  by_cases expected : ∃ f, (s.port p).frame.recv = .filling f ∧ f.next < f.header.height
  · obtain ⟨f, hf, hnext⟩ := expected
    obtain ⟨e, hhead, htrigger⟩ := h f hf
    obtain ⟨rest, hentries⟩ : ∃ rest, (s.port p).frame.entries = e :: rest := by
      cases hl : (s.port p).frame.entries with
      | nil => rw [hl] at hhead; cases hhead
      | cons e' rest => rw [hl] at hhead; cases hhead; exact ⟨rest, rfl⟩
    rw [damagedHeard_erased hf hnext hentries]
    exact shows_damaged_erased exact hf hnext (htrigger ▸ findEntry_head hentries)
  · have none : ∀ f, (s.port p).frame.recv = .filling f → f.header.height ≤ f.next := fun f hf =>
      Nat.not_lt.mp fun hnext => expected ⟨f, hf, hnext⟩
    rw [damagedHeard_kept none]
    exact shows_damaged_kept exact none

/-- Settles O45. -/
theorem fillAndDamagedBursts : Obligations.FillAndDamagedBursts := by
  intro p bytes s _ hl hb hh
  have ends := endBurst_locked hl hb hh
  refine ⟨fun hfill => ⟨_, rfl, Shows.ends ?_⟩, fun hd hkept axis => ⟨_, rfl, Shows.ends ?_⟩, fun ax hd hkept axis => ?_,
    fun f e rest hd hf hnext hentries htrigger => ⟨_, rfl, Shows.ends ?_⟩⟩
  · rw [ends, hfill, parseBurst_encodeBurst rfl]
    exact shows_heard .fill true s
  · have none : chargeBin p (modLink p (heard .damaged true) s) = none := by
      rw [chargeBin_eq, modLink_port_flex, axis]
      rfl
    rw [ends, hd]
    have shows := shows_damaged_kept true hkept
    rwa [flexCharged_none none] at shows
  · intro x b n crosses y u
    have bin : chargeBin p (modLink p (heard .damaged true) s) = some b := by
      rw [chargeBin_eq, modLink_port_flex, axis]
      rfl
    have shows := shows_damaged_kept true hkept
    rw [flexCharged_some bin, modLink_port_flex] at shows
    have message : alertMessage p 8 (modLink p (heard .damaged true) s) = alertMessage p 8 s :=
      alertMessage_congr (modLink_port_alerts ..) rfl 8
    have charged (f : FlexMap → FlexMap) : modFlex p f (modLink p (heard .damaged true) s) = u (f x) :=
      modFlex_congr (by rw [modLink_port_flex])
    rw [charged, charged, charged, message] at shows
    refine ⟨_, rfl, fun hc => Shows.ends ?_, fun hc hroom => Shows.ends ?_, fun hc hfull => Shows.ends ?_⟩ <;> rw [ends, hd]
    · rwa [if_neg hc] at shows
    · rwa [if_pos hc, if_pos hroom] at shows
    · rwa [if_pos hc, if_neg (Nat.not_lt.mpr hfull)] at shows
  · rw [ends, hd]
    exact shows_damaged_erased true hf hnext (htrigger ▸ findEntry_head hentries)

/-! ## Lines -/

theorem takeLine_filling {f : Filling} (h : (s.port p).frame.recv = .filling f) (n : Nat) (data : List Byte) : takeLine p n data s =
    if data.length ≠ lineLength f.header.width f.header.depth then
      takeDamaged p (modFrame p (fun r => { r with badLines := r.badLines + 1 }) s)
    else if f.header.height ≤ n then modFrame p (fun r => { r with beyondLines := r.beyondLines + 1 }) s
    else if n < f.next then modFrame p (fun r => { r with lateLines := r.lateLines + 1 }) s
    else writeNext p data (eraseLines p (n - f.next) s) := by
  unfold takeLine
  rw [fillingOf_filling h]

section
variable {f : Filling} {n : Nat} {data : List Byte} (hf : (s.port p).frame.recv = .filling f)
include hf

theorem takeLine_bad (h : data.length ≠ lineLength f.header.width f.header.depth) :
    takeLine p n data s = takeDamaged p (modFrame p (fun r => { r with badLines := r.badLines + 1 }) s) :=
  (takeLine_filling hf n data).trans (if_pos h)

theorem takeLine_sound (h : data.length = lineLength f.header.width f.header.depth) : takeLine p n data s =
    if f.header.height ≤ n then modFrame p (fun r => { r with beyondLines := r.beyondLines + 1 }) s
    else if n < f.next then modFrame p (fun r => { r with lateLines := r.lateLines + 1 }) s
    else writeNext p data (eraseLines p (n - f.next) s) :=
  (takeLine_filling hf n data).trans (if_neg (not_not_intro h))

end

theorem takeLine_none (h : fillingOf (s.port p).frame = none) (n : Nat) (data : List Byte) : takeLine p n data s = s := by
  unfold takeLine
  rw [h]

/-- A line of a frame being filled at or after the one expected: the lines of the gap are erased, and it is stored or cut (R113 to
R118). -/
theorem Shows.takeLine_next {f : Filling} {e : Entry} (h : Shows s v (withFilling p f u) [])
    (he : findEntry (u.port p).frame f.trigger = some e) {n : Nat} (hn : f.next ≤ n) (data : List Byte) :
    let gap := erasedLines (u.port p).frame e (n - f.next) f
    (n * e.stride + f.bytesPerLine ≤ e.bufSize →
      let stored := storeLine e.format f.header.width f.header.depth data
      Shows s (Machine.writeNext p data (Machine.eraseLines p (n - f.next) v))
        (withFilling p { gap.1 with next := n + 1, written := f.written + 1, lastLine := some stored } u)
        (.write (e.bufAddr + BitVec.ofNat 64 (n * e.stride)) stored :: gap.2)) ∧
    (e.bufSize < n * e.stride + f.bytesPerLine →
      Shows s (Machine.writeNext p data (Machine.eraseLines p (n - f.next) v))
        (withFilling p { gap.1 with next := n + 1, cut := f.cut + 1, truncated := true } u) gap.2) := by
  obtain ⟨htrigger, hheader, hbytes, hwritten, hcut, hnext⟩ := erasedLines_keeps (u.port p).frame e (n - f.next) f
  have written := (h.eraseLines he (n - f.next)).writeNext (htrigger ▸ he) data
  rw [Nat.add_sub_cancel' hn] at hnext
  simpa only [hheader, hbytes, hwritten, hcut, hnext, List.append_nil] using written

/-- Settles O47. -/
theorem line : Obligations.Line := by
  intro p n data s _ h1 hmax hl hb hh s1 i
  have bytes : (encodeBurst (.line n.toNat data)).length = data.length + 10 := by
    simp only [encodeBurst, burstParts, List.length_append, u8_length, zeros_length, leBytes_length, u16_length, u32_length]
    omega
  have sound : parseBurst (encodeBurst (.line n.toNat data)) = .line n.toNat data := by
    refine parseBurst_encodeBurst ?_
    simp [burstLegal, h1, hmax, n.isLt]
  have ends : endBurst p (encodeBurst (.line n.toNat data)) s = takeLine p n.toNat data s1 := by
    rw [endBurst_locked hl (bytes ▸ hb) hh, sound]
    rfl
  have frame : (s1.port p).frame = (s.port p).frame := modLink_port_frame ..
  have heard : Shows s s1 s1 [] := shows_heard .line true s
  refine ⟨fun none => ⟨_, rfl, Shows.ends ?_⟩, fun f e rest hf hentries htrigger => ?_⟩
  · rw [ends, takeLine_none (frame ▸ none)]
    exact heard
  · intro right stored with' gap g
    have receiving : (s1.port p).frame.recv = .filling f := frame ▸ hf
    have filling := shows_withFilling heard receiving
    have entry : findEntry (s1.port p).frame f.trigger = some e := frame ▸ htrigger ▸ findEntry_head hentries
    have taken := fun hr : right => takeLine_sound (n := n.toNat) receiving hr
    refine ⟨fun hr hn hheight hfits => ⟨_, rfl, Shows.ends ?_⟩, fun hr hn hheight hcut => ⟨_, rfl, Shows.ends ?_⟩,
      fun hr hn hheight => ⟨_, rfl, Shows.ends ?_⟩, fun hr hheight => ⟨_, rfl, Shows.ends ?_⟩, fun hr => ⟨_, rfl, Shows.ends ?_⟩⟩
    · rw [ends, taken hr, if_neg (Nat.not_le.mpr hheight), if_neg (Nat.not_lt.mpr hn)]
      have next := (filling.takeLine_next entry hn data).1 hfits
      rwa [frame] at next
    · rw [ends, taken hr, if_neg (Nat.not_le.mpr hheight), if_neg (Nat.not_lt.mpr hn)]
      have next := (filling.takeLine_next entry hn data).2 hcut
      rwa [frame] at next
    · rw [ends, taken hr, if_neg (Nat.not_le.mpr hheight), if_pos hn]
      exact heard.modFrame p rfl
    · rw [ends, taken hr, if_pos hheight]
      exact heard.modFrame p rfl
    · rw [ends, takeLine_bad receiving hr]
      have bad : Shows s (modFrame p (fun r => { r with badLines := r.badLines + 1 }) s1)
          (modFrame p (fun r => { r with badLines := r.badLines + 1 }) s1) [] := heard.modFrame p rfl
      have badFrame := modFrame_port_self s1 p fun r => { r with badLines := r.badLines + 1 }
      rw [frame] at badFrame
      have erased := (shows_withFilling (f := f) bad (by rw [badFrame]; exact hf)).takeDamaged (e := e)
        (by rw [badFrame, ← htrigger]; exact findEntry_head hentries)
      rw [erasedLines_congr (r' := (s.port p).frame) (by rw [badFrame]) (by rw [badFrame]), List.append_nil] at erased
      exact erased.to (sameDevice_modFrame_twice ..)

end Sys2Proof.Machine
end

section
/-! PROOFS. Marks, recovery windows and the carrier, short of a drop (R24, R26, R28 to R32, R55). -/

namespace Sys2Proof.Machine

variable {s v u : State} {w : List BusEvent} {p : PortId} {mark : U64}

/-! ## Marks -/

theorem atBoundary_iff (l : LinkRx) : atBoundary l = true ↔ ∀ n, l.burst ≠ some (.exact n) := by
  unfold atBoundary burstArriving
  split
  · rename_i n h
    exact ⟨nofun, fun g => absurd h (g n)⟩
  · rename_i h
    exact ⟨fun _ n e => h n e, fun _ => rfl⟩

theorem markInHunt_exact {n : Nat} (hm : judgeMark mark = some n) (hl : (s.port p).link.state = .hunt)
    (hc : (s.port p).link.carrier = true) :
    markInHunt p mark s = modLink p (fun l => beginBurst n { l with state := .confirm, confirm := 1 }) s := by
  unfold markInHunt
  dsimp only
  rw [hm]
  exact if_pos ⟨hl, hc⟩

section
variable (hl : (s.port p).link.state = .confirm) (hb : ∀ n, (s.port p).link.burst ≠ some (.exact n))
include hl hb

theorem markInConfirm_exact {n : Nat} (hm : judgeMark mark = some n) : markInConfirm p mark s =
    if (s.port p).link.confirm < 3 then modLink p (fun l => beginBurst n { l with confirm := l.confirm + 1 }) s
    else enterLocked p (modLink p (beginBurst n) s) := by
  unfold markInConfirm
  dsimp only
  rw [if_pos ⟨hl, (atBoundary_iff _).mpr hb⟩, hm]

theorem markInConfirm_bad (hm : judgeMark mark = none) : markInConfirm p mark s = modLink p huntAgain s := by
  unfold markInConfirm
  dsimp only
  rw [if_pos ⟨hl, (atBoundary_iff _).mpr hb⟩, hm]
end

section
variable (hl : (s.port p).link.state = .locked) (hb : ∀ n, (s.port p).link.burst ≠ some (.exact n))
include hl hb

theorem markInLocked_exact {n : Nat} (hm : judgeMark mark = some n) :
    markInLocked p mark s = modLink p (fun l => beginBurst n { l with misses := 0 }) (endBadBurst p s) := by
  unfold markInLocked
  dsimp only
  rw [if_pos ⟨hl, (atBoundary_iff _).mpr hb⟩, hm]

theorem markInLocked_bad (hm : judgeMark mark = none) : markInLocked p mark s = badLockedMark p (endBadBurst p s) := by
  unfold markInLocked
  dsimp only
  rw [if_pos ⟨hl, (atBoundary_iff _).mpr hb⟩, hm]
end

theorem windowCloses_window {n : Nat} (hl : (s.port p).link.state = .locked) (hw : (s.port p).link.boundary = .window n) :
    windowCloses p s = badLockedMark p (endBadBurst p s) := by
  unfold windowCloses
  dsimp only
  rw [hw]
  exact if_pos ⟨hl, rfl⟩

theorem badLockedMark_miss (h : (s.port p).link.misses < 3) : badLockedMark p s =
    modLink p (fun l => { l with misses := l.misses + 1, burst := some .bad, boundary := .window recoveryWindow }) s := if_pos h

theorem badLockedMark_drop (h : (s.port p).link.misses = 3) : badLockedMark p s = linkDrop p .marks s :=
  if_neg (by rw [h]; decide)

/-! ## Identification begins -/

theorem queuePing_none (hheads : (s.port p).ctl.heads = []) (htxn : (s.port p).ctl.txn = none) :
    queuePing p s = modCtl p (fun c => { c with heads := c.heads ++ [.ping] }) s := by
  unfold queuePing pingWaits
  rw [hheads, htxn]
  rfl

theorem arbitrate_head {m : HeadMessage} {rest : List HeadMessage} (hi : (s.port p).ctl.state = .idle)
    (hexposes : (s.port p).ctl.exposes = []) (hlens : (s.port p).ctl.lensMsgs = []) (hheads : (s.port p).ctl.heads = m :: rest) :
    arbitrate p s = beginTxn p (headMessage m) (modCtl p (fun c => { c with heads := rest }) s) := by
  unfold arbitrate
  dsimp only
  rw [if_pos hi, hexposes, hlens, hheads]

theorem beginTxn_ping (p : PortId) (s : State) : beginTxn p .ping s = sendSymbol p (.header 0 false 0) (sendSymbol p .startMark
    (modCtl p (fun c => { c with state := .sending, txn := some ⟨.ping, 0, .header, 0, []⟩, replyTimer := some 2 }) s)) := rfl

theorem Shows.sendSymbol (h : Shows s v u w) (p : PortId) (y : Symbol) :
    Shows s (sendSymbol p y v) { u with cable := ⟨p, y⟩ :: u.cable } w :=
  h.still ⟨h.device.pending, congrArg (List.cons (CableEvent.mk p y)) h.device.cable, h.device.chain, h.device.power, h.device.trig,
    h.device.sets, h.device.sweeps, h.device.ports⟩ rfl rfl rfl

/-- A state shows a port as it stands. -/
theorem Shows.writtenOut (h : Shows s v u w) (p : PortId) : Shows s v (modPort p (fun _ => u.port p) u) w :=
  h.to (sameDevice_modPort rfl).symm

/-- A further change of a port that is written out. -/
theorem Shows.resetPort {x y : Port} {f : Port → Port} (h : Shows s v (modPort p (fun _ => x) u) w)
    (hview : ∀ a b, portView a = portView b → portView (f a) = portView (f b)) (hy : f x = y) :
    Shows s (modPort p f v) (modPort p (fun _ => y) u) w := by
  subst hy
  refine (h.still (h.device.modPort (g := f) ?_) rfl rfl rfl).to (sameDevice_modPort_twice _ _ hview)
  exact hview _ _ (h.device.ports p)

theorem Shows.resetLink {x y : Port} {f : LinkRx → LinkRx} (h : Shows s v (modPort p (fun _ => x) u) w)
    (hy : { x with link := f x.link } = y) : Shows s (Machine.modLink p f v) (modPort p (fun _ => y) u) w :=
  h.resetPort (fun _ _ e => portView_link e (congrArg f (congrArg Port.link e :))) hy

theorem Shows.resetCtl {x y : Port} {f : Channel → Channel} (h : Shows s v (modPort p (fun _ => x) u) w)
    (hy : { x with ctl := f x.ctl } = y) : Shows s (Machine.modCtl p f v) (modPort p (fun _ => y) u) w :=
  h.resetPort (fun _ _ e => portView_ctl e (congrArg f (congrArg Port.ctl e :))) hy

theorem Shows.resetFlex {x y : Port} {f : FlexMap → FlexMap} (h : Shows s v (modPort p (fun _ => x) u) w)
    (hy : { x with flex := f x.flex } = y) : Shows s (Machine.modFlex p f v) (modPort p (fun _ => y) u) w :=
  h.resetPort (fun _ _ e => portView_flex e (congrArg f (congrArg Port.flex e :))) hy

theorem Shows.resetLens {x y : Port} {f : LensState → LensState} (h : Shows s v (modPort p (fun _ => x) u) w)
    (hy : { x with lens := f x.lens } = y) : Shows s (Machine.modLens p f v) (modPort p (fun _ => y) u) w :=
  h.resetPort (fun _ _ e => portView_lens e (congrArg f (congrArg Port.lens e :))) hy

/-- The channel of a port that is written out. -/
theorem Shows.ctl_writtenOut {x : Port} (h : Shows s v (modPort p (fun _ => x) u) w) : (v.port p).ctl = x.ctl :=
  (h.device.portCtl p).trans (by rw [modPort_port, if_pos rfl])

/-- The link enters LOCKED with nothing waiting on the channel: the lock notes are taken and the PING of identification begins (R30,
R55). -/
theorem Shows.enterLocked_idle {x : Port} (h : Shows s v (modPort p (fun _ => x) u) w) (hheads : x.ctl.heads = [])
    (hexposes : x.ctl.exposes = []) (hlens : x.ctl.lensMsgs = []) (htxn : x.ctl.txn = none) :
    Shows s (enterLocked p v) { modPort p (fun _ => { x with
        link := { x.link with state := .locked, confirm := 4, misses := 0 }
        flex := { x.flex with noteBursts := x.link.bursts, noteDamaged := x.link.damaged }
        ctl := { x.ctl with
          state := .sending, replyTimer := some 2
          txn := some { message := .ping, part := 0, stage := .header, acked := 0, data := [] } } }) u with
      cable := ⟨p, .header 0 false 0⟩ :: ⟨p, .startMark⟩ :: u.cable } w := by
  have hlink : (v.port p).link = x.link := (h.device.portLink p).trans (by rw [modPort_port, if_pos rfl])
  let locked : LinkRx := { x.link with state := .locked, confirm := 4, misses := 0 }
  let noted : FlexMap := { x.flex with noteBursts := x.link.bursts, noteDamaged := x.link.damaged }
  have lock := h.resetLink (f := fun l => { l with state := .locked, confirm := 4, misses := 0 }) (y := { x with link := locked }) rfl
  have notes := lock.resetFlex (f := fun y => { y with noteBursts := x.link.bursts, noteDamaged := x.link.damaged })
    (y := { x with link := locked, flex := noted }) rfl
  have idle := notes.resetCtl (f := fun c => { c with state := .idle })
    (y := { x with link := locked, flex := noted, ctl := { x.ctl with state := .idle } }) rfl
  have queued := idle.resetCtl (f := fun c => { c with heads := c.heads ++ [.ping] })
    (y := { x with link := locked, flex := noted, ctl := { x.ctl with state := .idle, heads := [.ping] } }) (by rw [hheads]; rfl)
  have waits := idle.ctl_writtenOut
  have waits' := queued.ctl_writtenOut
  unfold enterLocked channelLocked
  dsimp only
  rw [modLink_port_self, hlink, queuePing_none (by rw [waits]; exact hheads) (by rw [waits]; exact htxn),
    arbitrate_head (m := .ping) (rest := []) (by rw [waits']) (by rw [waits']; exact hexposes) (by rw [waits']; exact hlens)
      (by rw [waits']), show headMessage .ping = .ping from rfl, beginTxn_ping]
  have chosen := queued.resetCtl (f := fun c => { c with heads := [] })
    (y := { x with link := locked, flex := noted, ctl := { x.ctl with state := .idle } }) (by rw [← hheads])
  exact ((chosen.resetCtl rfl).sendSymbol p .startMark).sendSymbol p (.header 0 false 0)

/-! ## The end of an event with nothing to write -/

/-- With no mirror due the end of an event changes nothing (log 11). -/
theorem flushMirrors_quiet (h : Quiet s) : flushMirrors s = s := by
  have ports : ∀ ps : List PortId, forPorts ps flushPort s = s := by
    intro ps
    induction ps with
    | nil => rfl
    | cons q ps ih =>
      have kept : flushPort q s = s := if_neg (by rw [h.2 q]; exact Bool.false_ne_true)
      exact (congrArg (forPorts ps flushPort) kept).trans ih
  unfold flushMirrors
  dsimp only
  rw [ports, h.1]
  exact if_neg Bool.false_ne_true

/-- The burst in progress and the misses, once a burst begun by a bad mark has ended. -/
theorem endBadBurst_shows (hl : (s.port p).link.state = .locked) (hb : (s.port p).link.burst = some .bad)
    (hh : (s.port p).link.history.length ≤ 8) (h : FillsOldest p s) :
    Shows s (endBadBurst p s) (damagedHeard p false s).1 (damagedHeard p false s).2 := by
  rw [endBadBurst_bad hl hb hh]
  exact shows_damagedHeard false h

/-- Settles O42. -/
theorem lockUp : Obligations.LockUp := by
  intro p len s _ h8 hmax l begun
  have exact := judgeMark_exactMark h8 hmax
  refine ⟨fun hl hc => ⟨_, rfl, Shows.ends ?_⟩, fun hl hb hconfirm => ⟨_, rfl, Shows.ends ?_⟩,
    fun hl hb hconfirm hheads hexposes hlens htxn => ⟨_, rfl, Shows.ends ?_⟩, fun mark hl hb hbad => ⟨_, rfl, Shows.ends ?_⟩,
    fun bytes hl hb hh => ⟨_, rfl, Shows.ends ?_⟩, fun hl hb => ⟨_, rfl, Shows.ends ?_⟩,
    fun hl hb hh hfills => ⟨_, rfl, Shows.ends ?_⟩⟩
  · rw [markInHunt_exact exact hl hc]
    exact (Shows.refl s).modLink p rfl
  · rw [markInConfirm_exact hl hb exact, if_pos hconfirm]
    exact (Shows.refl s).modLink p rfl
  · have third : ¬ (s.port p).link.confirm < 3 := by rw [show (s.port p).link.confirm = 3 from hconfirm]; decide
    rw [markInConfirm_exact hl hb exact, if_neg third]
    have marked := ((Shows.refl s).writtenOut p).resetLink (f := beginBurst len.toNat) rfl
    exact marked.enterLocked_idle hheads hexposes hlens htxn
  · rw [markInConfirm_bad hl hb (judgeMark_bad hbad)]
    exact (Shows.refl s).modLink p rfl
  · rw [endBurst_confirm hl hb hh]
    exact (Shows.refl s).modLink p rfl
  · have boundary : ∀ n, (s.port p).link.burst ≠ some (.exact n) := by rw [show (s.port p).link.burst = none from hb]; exact nofun
    rw [markInLocked_exact hl boundary exact, endBadBurst_other (by rw [show (s.port p).link.burst = none from hb]; exact nofun)]
    exact (Shows.refl s).modLink p rfl
  · have boundary : ∀ n, (s.port p).link.burst ≠ some (.exact n) := by
      rw [show (s.port p).link.burst = some .bad from hb]; exact nofun
    rw [markInLocked_exact hl boundary exact]
    exact (endBadBurst_shows hl hb hh hfills).modLink p rfl

/-! ## What a damaged burst leaves of a port -/

/-- A port without its frame, flex map, alerts and the bookkeeping of its mirror. -/
abbrev unreceived (q : Port) : Port := { portView q with frame := {}, flex := {}, alerts := 0 }

theorem unreceived_modPort {f : Port → Port} (h : unreceived (f (s.port p)) = unreceived (s.port p)) (q : PortId) :
    unreceived ((modPort p f s).port q) = unreceived (s.port q) := by
  unfold unreceived at h ⊢
  rw [modPort_portView]
  split
  · rename_i e
    rw [e]
    exact h
  · rfl

theorem unreceived_setPortAlert (bit : Nat) (s : State) (q : PortId) :
    unreceived ((setPortAlert p bit s).port q) = unreceived (s.port q) := by
  unfold setPortAlert
  split
  · rfl
  · rw [(cardKept_setCause ..).port]
    exact unreceived_modPort rfl q

theorem unreceived_eraseNext (s : State) (q : PortId) : unreceived ((eraseNext p s).port q) = unreceived (s.port q) := by
  unfold eraseNext
  dsimp only
  split
  · rfl
  · split
    · rfl
    · refine (unreceived_modPort rfl q).trans ?_
      split <;> rfl

theorem unreceived_takeDamaged (s : State) (q : PortId) : unreceived ((takeDamaged p s).port q) = unreceived (s.port q) := by
  unfold takeDamaged
  split
  · split
    · exact unreceived_eraseNext s q
    · rfl
  · rfl

theorem unreceived_flexCharge (n : Nat) (s : State) (q : PortId) : unreceived ((flexCharge p n s).port q) = unreceived (s.port q) := by
  cases hb : chargeBin p s with
  | none => rw [flexCharge_none hb]
  | some b =>
    have charged : unreceived ((modFlex p (chargedMap b n) s).port q) = unreceived (s.port q) := unreceived_modPort rfl q
    rw [flexCharge_some hb]
    split
    · unfold crossBin
      split
      · exact ((unreceived_setPortAlert ..).trans (unreceived_modPort rfl q)).trans charged
      · exact (unreceived_modPort rfl q).trans charged
    · exact charged

/-- A burst begun by a bad mark ends: the link has heard it, and nothing else changes but frame, flex map and alerts (R26, R34). -/
theorem unreceived_endBadBurst (hl : (s.port p).link.state = .locked) (hb : (s.port p).link.burst = some .bad)
    (hh : (s.port p).link.history.length ≤ 8) : unreceived ((endBadBurst p s).port p) =
      unreceived { s.port p with link := heard .damaged false (s.port p).link } := by
  rw [endBadBurst_bad hl hb hh]
  refine ((unreceived_flexCharge 1 _ p).trans (unreceived_takeDamaged _ p)).trans ?_
  unfold modLink unreceived
  rw [modPort_portView, if_pos rfl]

/-- Two ports alike in this have the same power, link, channel and lenses. -/
theorem unreceived_parts {x y : Port} (h : unreceived x = unreceived y) :
    x.power = y.power ∧ x.link = y.link ∧ x.ctl = y.ctl ∧ x.lens = y.lens :=
  ⟨(congrArg Port.power h :), (congrArg Port.link h :), (congrArg Port.ctl h :), (congrArg Port.lens h :)⟩

/-! ## Misses and the carrier -/

theorem carrierLost_down (h : (s.port p).link.state = .down) : carrierLost p s = s := by
  unfold carrierLost
  rw [h]

theorem carrierBack_down (h : (s.port p).link.state = .down) : carrierBack p s = s := by
  unfold carrierBack
  rw [h]

theorem carrierLost_hunt (h : (s.port p).link.state = .hunt) :
    carrierLost p s = modLink p (fun l => { l with carrier := false }) s := by
  unfold carrierLost
  rw [h]

theorem carrierLost_confirm (h : (s.port p).link.state = .confirm) :
    carrierLost p s = modLink p (fun l => { huntAgain l with carrier := false }) s := by
  unfold carrierLost
  rw [h]

theorem carrierLost_locked (h : (s.port p).link.state = .locked) :
    carrierLost p s = linkDrop p .signal (modLink p (fun l => { l with carrier := false }) s) := by
  unfold carrierLost
  rw [h]

theorem carrierBack_up (h : (s.port p).link.state ≠ .down) : carrierBack p s = modLink p (fun l => { l with carrier := true }) s := by
  unfold carrierBack
  cases hl : (s.port p).link.state with
  | down => exact absurd hl h
  | hunt | confirm | locked => rfl

/-- Settles O43. -/
theorem missesAndCarrier : Obligations.MissesAndCarrier := by
  intro p s quiet l
  refine ⟨fun mark hl hb hm hbad => ⟨_, rfl, Shows.ends ?_⟩, fun c mark hl hb hm hh hfills hc => ?_, fun hl => ?_, fun hl => ?_,
    fun hl => ⟨_, rfl, Shows.ends ?_⟩⟩
  · have boundary : ∀ n, (s.port p).link.burst ≠ some (.exact n) := by rw [show (s.port p).link.burst = none from hb]; exact nofun
    rw [markInLocked_bad hl boundary (judgeMark_bad hbad), endBadBurst_other (by rw [show (s.port p).link.burst = none from hb]; exact nofun),
      badLockedMark_miss hm]
    exact (Shows.refl s).modLink p rfl
  · have ended := endBadBurst_shows hl hb hh hfills
    obtain ⟨-, hlink, -, -⟩ := unreceived_parts (unreceived_endBadBurst hl hb hh)
    have misses : ((endBadBurst p s).port p).link.misses = l.misses := (congrArg LinkRx.misses hlink :)
    have missed := ended.modLink p (f := fun y => { y with misses := y.misses + 1, burst := some .bad, boundary := .window recoveryWindow })
      (g := fun y => { y with misses := l.misses + 1, burst := some .bad, boundary := .window 16402 })
      (by rw [← ended.device.portLink p, misses]; rfl)
    rw [← badLockedMark_miss (by rw [misses]; exact hm)] at missed
    rcases hc with ⟨rfl, hw⟩ | ⟨rfl, hbad⟩
    · refine ⟨_, rfl, Shows.ends ?_⟩
      rw [windowCloses_window hl hw]
      exact missed
    · have boundary : ∀ n, (s.port p).link.burst ≠ some (.exact n) := by
        rw [show (s.port p).link.burst = some .bad from hb]; exact nofun
      refine ⟨_, rfl, Shows.ends ?_⟩
      rw [markInLocked_bad hl boundary (judgeMark_bad hbad)]
      exact missed
  · have lost : exec (.carrierLoss p) s = .next (flushMirrors (carrierLost p s)) := rfl
    have back : exec (.carrierReturn p) s = .next (flushMirrors (carrierBack p s)) := rfl
    rw [lost, back, carrierLost_down hl, carrierBack_down hl, flushMirrors_quiet quiet]
    exact ⟨rfl, rfl⟩
  · refine ⟨_, rfl, Shows.ends ?_⟩
    rcases hl with hl | hl
    · rw [carrierLost_hunt hl, if_pos hl]
      exact (Shows.refl s).modLink p rfl
    · rw [carrierLost_confirm hl, if_neg (by rw [hl]; decide)]
      exact (Shows.refl s).modLink p rfl
  · rw [carrierBack_up hl]
    exact (Shows.refl s).modLink p rfl

end Sys2Proof.Machine
end

section
/-! PROOFS. RESET_PORT, with nothing of the port in hand and with anything (R42, R61, R82, R103, R195); and what the closes of a port
leave of its channel and its lenses. -/

namespace Sys2Proof.Machine

variable {s t v u : State} {w : List BusEvent} {p : PortId} {a : Addr}

/-! ## The closes of a port, seen from its channel and its lenses -/

/-- A channel without its waiting EXPOSE and LENS messages. -/
abbrev unqueued (c : Channel) : Channel := { c with exposes := [], lensMsgs := [] }

/-- The completion of an image record changes no port (R121, R136). -/
theorem completeImage_port (p' q : PortId) (e : Entry) (f : Option Filling) (sent : Nat) (c : Code) (s : State) :
    (completeImage p' e f sent c s).port q = s.port q := by
  have other : q ≠ q + 1 := by revert q; decide
  exact (closes_completeImage (q + 1) p' e f sent c s).others q other

theorem completeLens_port (q : PortId) (e : Entry) (c : Code) (o : LensOutcome) (fl : BitVec 4) (ts : List Target) (b d : U64)
    (s : State) : (completeLens p a c e.source e.trigger o fl ts b d s).port q = s.port q :=
  (cardKept_completeLens ..).port q

theorem closeLensShare_ctl (e : Entry) (c : Code) (s : State) : ((closeLensShare p e c s).port p).ctl = (s.port p).ctl := by
  unfold closeLensShare
  split
  · split
    · rw [completeLens_port]
    · rfl
  · split
    · rfl
    · dsimp only
      split
      · rw [completeLens_port, modLens_port_ctl]
      · rw [modLens_port_ctl]
  · rfl

/-- A close takes the messages of its entry from the channel and nothing else (R50, R122). -/
theorem closeEntry_unqueued (n : U32) (c : Code) (sent : Nat) (s : State) :
    unqueued ((closeEntry p n c sent s).port p).ctl = unqueued (s.port p).ctl := by
  unfold closeEntry
  split
  · rfl
  · rename_i e _
    dsimp only
    rw [touchPort_port, if_pos rfl, completeImage_port, modFrame_port_ctl]
    unfold removeMessages
    rw [modCtl_port_self, closeLensShare_ctl]

theorem closeEntries_unqueued (c : Code) (ns : List U32) (s : State) :
    unqueued ((closeEntries c (ns.map fun n => (p, n)) s).port p).ctl = unqueued (s.port p).ctl := by
  induction ns generalizing s with
  | nil => rfl
  | cons n ns ih => exact (ih _).trans (closeEntry_unqueued n c 0 s)

theorem settleTargets_ctl (r : UnitResult) (s : State) : ((settleTargets p r s).port p).ctl = (s.port p).ctl := by
  unfold settleTargets
  split
  · rfl
  · dsimp only
    split
    · rw [modLens_port_ctl]
    · unfold setKnown
      rw [modLens_port_ctl, modLens_port_ctl]

theorem applyTable_port (h : HeldTable) (s : State) : (applyTable p h s).port p =
    (modLens p (fun l => { l with tables := l.tables.set h.unit h.points }) s).port p :=
  (cardKept_completeCommand ..).port p

/-- Held tables that are applied change the tables alone (R86). -/
theorem applyTables_port (hs : List HeldTable) (s : State) : let t := hs.foldl (fun t h => applyTable p h t) s
    (t.port p).ctl = (s.port p).ctl ∧ (t.port p).lens.phase = (s.port p).lens.phase ∧ (t.port p).lens.held = (s.port p).lens.held := by
  induction hs generalizing s with
  | nil => exact ⟨rfl, rfl, rfl⟩
  | cons h hs ih =>
    obtain ⟨hctl, hphase, hheld⟩ := ih (applyTable p h s)
    rw [applyTable_port] at hctl hphase hheld
    rw [modLens_port_ctl] at hctl
    rw [modLens_port_self] at hphase hheld
    exact ⟨hctl, hphase, hheld⟩

theorem stopDiscarding_port (s : State) : ((stopDiscarding p s).port p).ctl = (s.port p).ctl ∧
    ((stopDiscarding p s).port p).lens = (s.port p).lens := by
  unfold stopDiscarding
  rw [modFrame_port_ctl, modFrame_port_lens]
  exact ⟨rfl, rfl⟩

/-- After the closes of a port no phase is in progress and no table held; its channel is as it was (R86, R100). -/
theorem afterCloses_port (s : State) : ((afterCloses p s).port p).ctl = (s.port p).ctl ∧
    ((afterCloses p s).port p).lens.phase = none ∧ ((afterCloses p s).port p).lens.held = [] := by
  obtain ⟨stopCtl, stopLens⟩ := stopDiscarding_port (p := p) (modLens p (fun l => { l with phase := none }) s)
  unfold afterCloses applyHeld
  generalize ((stopDiscarding p (modLens p (fun l => { l with phase := none }) s)).port p).lens.held = hs
  obtain ⟨hctl, hphase, hheld⟩ := applyTables_port (p := p) hs
    (modLens p (fun l => { l with held := [] }) (stopDiscarding p (modLens p (fun l => { l with phase := none }) s)))
  rw [modLens_port_ctl, stopCtl, modLens_port_ctl] at hctl
  rw [modLens_port_self, stopLens, modLens_port_self] at hphase
  rw [modLens_port_self] at hheld
  exact ⟨hctl, hphase, hheld⟩

/-- What the closes of a port leave of its channel and its lenses (R86, R100, R122). -/
theorem closeAll_port (c : Code) (s : State) : unqueued ((closeAll p c s).port p).ctl = unqueued (s.port p).ctl ∧
    ((closeAll p c s).port p).lens.phase = none ∧ ((closeAll p c s).port p).lens.held = [] := by
  unfold closeAll
  dsimp only
  rw [entriesOf_eq]
  obtain ⟨hctl, hphase, hheld⟩ := afterCloses_port (p := p) (closeEntries c
    ((((settleTargets p .cut s).port p).frame.entries.map (·.trigger)).map fun n => (p, n)) (settleTargets p .cut s))
  exact ⟨(congrArg unqueued hctl).trans ((closeEntries_unqueued ..).trans (congrArg unqueued (settleTargets_ctl ..))), hphase, hheld⟩

/-! ## The channel is suspended, the link hunts again -/

/-- A channel that has left LOCKED and keeps its identity (R57). -/
abbrev suspendedChannel (c : Channel) : Channel := { c with
  state := .suspended, txn := none, replyTimer := none, holdTimer := none, noteTimer := none
  exposes := [], lensMsgs := [], heads := [], ready := false, retryTimer := none }

theorem suspendChannel_portView (c : Code) (s : State) : portView ((suspendChannel p c false s).port p) =
    portView { s.port p with ctl := suspendedChannel (s.port p).ctl } := by
  unfold suspendChannel modCtl
  rw [modPort_portView, if_pos rfl, (cardKept_failHeadAccess ..).port]
  rfl

theorem Shows.suspendChannel_idle (h : Shows s v u w) (htxn : (u.port p).ctl.txn = none) (hheads : (u.port p).ctl.heads = [])
    (c : Code) : Shows s (suspendChannel p c false v) (Machine.modCtl p suspendedChannel u) w := by
  have hctl := h.device.portCtl p
  unfold suspendChannel
  rw [failHeadAccess_idle c (by rw [hctl]; exact htxn) (by rw [hctl]; exact hheads)]
  exact h.modCtl p rfl

/-- May RESET_PORT touch the link (R42)? -/
abbrev Live (p : PortId) (s : State) : Prop := powerOf p s = .on ∨ powerOf p s = .foldback

/-- The link of a port after RESET_PORT (R42). -/
abbrev resetLinkOf (l : LinkRx) : LinkRx := if l.state = .down then l else huntAgain l

theorem resetLink_live (h : Live p s) : resetLink p s = modLink p resetLinkOf (suspendChannel p .portReset false s) := by
  unfold resetLink
  rcases h with h | h <;> rw [h]

theorem resetLink_dead (h : ¬ Live p s) : resetLink p s = s := by
  unfold resetLink
  split
  · rename_i e; exact absurd (.inl e) h
  · rename_i e; exact absurd (.inr e) h
  · rfl

/-! ## Pattern positions -/

/-- A take pattern at its start (R82). -/
abbrev restarted (x : Taker) : Taker := { x with position := 0 }

theorem portView_take {x y : Port} (h : portView x = portView y) {a b : Taker} (hab : a = b) :
    portView { x with take := a } = portView { y with take := b } :=
  hab ▸ (congrArg (fun q : Port => ({ q with take := a } : Port)) h :)

theorem SameDevice.portTake (h : SameDevice v u) (q : PortId) : (v.port q).take = (u.port q).take := (congrArg Port.take (h.ports q) :)

theorem Shows.modTake (h : Shows s v u w) (p : PortId) {f g : Taker → Taker} (hf : f (u.port p).take = g (u.port p).take) :
    Shows s (modTake p f v) (modTake p g u) w :=
  h.still (h.device.modPort (portView_take (h.device.ports p) ((congrArg f (h.device.portTake p)).trans hf))) rfl rfl rfl

/-- Some ports' patterns change. -/
theorem Shows.modTakes (h : Shows s v u w) (ps : List PortId) (f : Taker → Taker) :
    Shows s (forPorts ps (fun q => Machine.modTake q f) v) (ps.foldl (fun u q => Machine.modTake q f u) u) w := by
  induction ps generalizing v u with
  | nil => exact h
  | cons q ps ih => exact ih (h.modTake q rfl)

theorem modTakes_withChain (ps : List PortId) (f : Taker → Taker) (c : ChainEngine) (s : State) :
    ps.foldl (fun u q => Machine.modTake q f u) { s with chain := c } =
      { ps.foldl (fun u q => Machine.modTake q f u) s with chain := c } := by
  induction ps generalizing s with
  | nil => rfl
  | cons q ps ih => exact ih (Machine.modTake q f s)

theorem modTakes_chain (ps : List PortId) (f : Taker → Taker) (s : State) :
    (ps.foldl (fun u q => Machine.modTake q f u) s).chain = s.chain := by
  induction ps generalizing s with
  | nil => rfl
  | cons q ps ih => exact ih (Machine.modTake q f s)

theorem modTakes_afterTake (ps : List PortId) (f : Taker → Taker) (s : State) :
    ps.foldl (fun u q => Machine.modTake q f u) { s with chain := afterTake a s.chain } =
      { ps.foldl (fun u q => Machine.modTake q f u) s with
        chain := afterTake a (ps.foldl (fun u q => Machine.modTake q f u) s).chain } := by
  rw [modTakes_withChain, modTakes_chain]

/-- A port among those whose patterns start anew (R82). -/
theorem restarts_portView {ps : List PortId} (hp : p ∈ ps) (s : State) :
    portView ((forPorts ps (fun q => modTake q restarted) s).port p) = portView { s.port p with take := restarted (s.port p).take } := by
  have each (q : PortId) (s : State) : portView ((modTake q restarted s).port p) =
      if p = q then portView { s.port p with take := restarted (s.port p).take } else portView (s.port p) := by
    unfold modTake
    rw [modPort_portView]
    split
    · rename_i e; rw [e]
    · rfl
  have rest : ∀ (ps : List PortId) (s : State), portView (s.port p) = portView { s.port p with take := restarted (s.port p).take } →
      portView ((forPorts ps (fun q => modTake q restarted) s).port p) = portView (s.port p) := by
    intro ps
    induction ps with
    | nil => exact fun _ _ => rfl
    | cons q ps ih =>
      intro s hs
      have one : portView ((modTake q restarted s).port p) = portView (s.port p) := by
        rw [each]
        split
        · exact hs.symm
        · rfl
      exact (ih _ (one.trans (hs.trans (portView_take one.symm (congrArg restarted (congrArg Port.take one.symm :)))))).trans one
  induction ps generalizing s with
  | nil => cases hp
  | cons q ps ih =>
    by_cases e : p = q
    · have one : portView ((modTake q restarted s).port p) = portView { s.port p with take := restarted (s.port p).take } := by
        rw [each, if_pos e]
      exact (rest ps _ (one.trans (portView_take one.symm (congrArg restarted (congrArg Port.take one.symm) :)))).trans one
    · have one : portView ((modTake q restarted s).port p) = portView (s.port p) := by rw [each, if_neg e]
      exact (ih ((List.mem_cons.mp hp).resolve_left e) _).trans (portView_take one (congrArg restarted (congrArg Port.take one :)))

theorem setOf_congr (h : v.sets = u.sets) (p : PortId) : v.setOf p = u.setOf p := by
  unfold State.setOf
  rw [h]

theorem patternPorts_congr (h : v.sets = u.sets) (p : PortId) : patternPorts p v = patternPorts p u := by
  unfold patternPorts
  rw [setOf_congr h, h]

/-- A port is one of those that share its pattern (R82). -/
theorem mem_patternPorts (p : PortId) (s : State) : p ∈ patternPorts p s := by
  unfold patternPorts
  split
  · rename_i k h
    have mask : s.sets[k].mask.getLsbD p.val = true := by
      have found := List.find?_some h
      rw [Bool.and_eq_true] at found
      exact found.2
    unfold maskPorts
    exact List.mem_filter.mpr ⟨mem_allPorts p, mask⟩
  · exact List.mem_singleton_self p

/-! ## RESET_PORT -/

theorem exec_resetPort (hr : s.running = true) (hp : p.val < s.chain.portCount.toNat) :
    exec (.resetPort a (BitVec.ofNat 8 p.val)) s = .next (flushMirrors (takeResetPort a p (takeCommand a s))) := by
  refine (execRecord_running (c := .resetPort (BitVec.ofNat 8 p.val)) hr).trans ?_
  unfold ownCommand
  dsimp only
  rw [withPort_named (s := takeCommand a s) hp]

/-- A port that RESET_PORT has taken everything from, but for its pattern (R42, R61, R103). -/
def resetPortOf (q : Port) : Port :=
  let live := decide (q.power.state = .on) || decide (q.power.state = .foldback)
  { q with
    link := if live then resetLinkOf q.link else q.link
    ctl := if live then suspendedChannel q.ctl else q.ctl
    lens := { q.lens with known := .replicate 4 none } }

theorem live_iff (p : PortId) (s : State) :
    (decide ((s.port p).power.state = .on) || decide ((s.port p).power.state = .foldback)) = decide (Live p s) := by
  exact (Bool.decide_or _ _).symm

theorem resetPortOf_live (h : Live p s) : resetPortOf (s.port p) = { s.port p with
    link := resetLinkOf (s.port p).link, ctl := suspendedChannel (s.port p).ctl
    lens := { (s.port p).lens with known := .replicate 4 none } } := by
  unfold resetPortOf
  simp only [live_iff, decide_eq_true h, if_true]

theorem resetPortOf_dead (h : ¬ Live p s) : resetPortOf (s.port p) = { s.port p with
    lens := { (s.port p).lens with known := .replicate 4 none } } := by
  unfold resetPortOf
  simp only [live_iff, decide_eq_false h]
  rfl

/-- The link, the channel and the lens codes of a port after RESET_PORT (R42, R61, R103). -/
theorem resetLink_portView (s : State) :
    portView ((forgetCodes p (resetLink p s)).port p) = portView (resetPortOf (s.port p)) := by
  unfold forgetCodes modLens
  rw [modPort_portView, if_pos rfl]
  by_cases live : Live p s
  · rw [resetLink_live live, resetPortOf_live live]
    have suspended := suspendChannel_portView (p := p) .portReset s
    have hunts : portView ((modLink p resetLinkOf (suspendChannel p .portReset false s)).port p) =
        portView { s.port p with link := resetLinkOf (s.port p).link, ctl := suspendedChannel (s.port p).ctl } := by
      unfold modLink
      rw [modPort_portView, if_pos rfl]
      exact (congrArg (fun q : Port => ({ q with link := resetLinkOf q.link } : Port)) suspended :)
    exact (congrArg (fun q : Port => ({ q with lens := { q.lens with known := .replicate 4 none } } : Port)) hunts :)
  · rw [resetLink_dead live, resetPortOf_dead live]

/-- RESET_PORT of a port with nothing in hand (R42, R61, R103). -/
theorem Shows.resetLink_idle (h : Shows s v u w) (hi : IdlePort p u) :
    Shows s (forgetCodes p (Machine.resetLink p v)) (modPort p (fun _ => resetPortOf (u.port p)) u) w := by
  obtain ⟨-, -, htxn, hheads, -, -⟩ := hi
  have power : powerOf p v = powerOf p u := h.device.powerState p
  have whole := h.writtenOut p
  by_cases live : Live p u
  · have live' : Live p v := by unfold Live; rw [power]; exact live
    rw [resetLink_live live', resetPortOf_live live]
    have suspended := whole.suspendChannel_idle (p := p) (by rw [modPort_port, if_pos rfl]; exact htxn)
      (by rw [modPort_port, if_pos rfl]; exact hheads) .portReset
    have channel : Shows s (suspendChannel p .portReset false v)
        (modPort p (fun _ => { u.port p with ctl := suspendedChannel (u.port p).ctl }) u) w :=
      suspended.to (sameDevice_modPort_twice _ _ fun _ _ e => portView_ctl e (congrArg suspendedChannel (congrArg Port.ctl e :)))
    exact (channel.resetLink (f := resetLinkOf)
      (y := { u.port p with link := resetLinkOf (u.port p).link, ctl := suspendedChannel (u.port p).ctl }) rfl).resetLens rfl
  · have dead : ¬ Live p v := by unfold Live; rw [power]; exact live
    rw [resetLink_dead dead, resetPortOf_dead live]
    exact whole.resetLens rfl

/-- RESET_PORT takes everything of its port in hand, restarts its pattern and leaves its power, sweep, flex map and alerts (R195). -/
theorem takeResetPort_portView (s : State) :
    portView ((takeResetPort a p s).port p) = portView { resetPortOf ((closeAll p .portReset s).port p) with
      take := restarted ((closeAll p .portReset s).port p).take } := by
  unfold takeResetPort
  generalize closeAll p .portReset s = x
  dsimp only
  rw [(cardKept_completeCommand ..).port, restarts_portView (mem_patternPorts p _)]
  have reset := resetLink_portView (p := p) x
  have taken : ((forgetCodes p (resetLink p x)).port p).take = (x.port p).take := (congrArg Port.take reset).trans rfl
  exact portView_take reset (congrArg restarted taken)

theorem takeResetPort_chain (s : State) : (takeResetPort a p s).chain.progress[(0 : Fin 17)].last = a := by
  unfold takeResetPort
  dsimp only
  rw [completeCommand_chain]
  exact congrArg Progress.last (Vector.getElem_set_self ..)

/-- With nothing in hand no transaction is abandoned, and a link that is DOWN stays so. -/
theorem resetPortOf_idle {q : Port} (htxn : q.ctl.txn = none) (hheads : q.ctl.heads = []) :
    let live := decide (q.power.state = .on) || decide (q.power.state = .foldback)
    resetPortOf q = { q with
      link := if live && decide (q.link.state ≠ .down) then
          { q.link with state := .hunt, confirm := 0, misses := 0, boundary := .none, burst := none } else q.link
      ctl := if live then { q.ctl with
          state := .suspended, replyTimer := none, holdTimer := none, noteTimer := none, exposes := [], lensMsgs := []
          ready := false, retryTimer := none } else q.ctl
      lens := { q.lens with known := .replicate 4 none } } := by
  unfold resetPortOf
  have channel : suspendedChannel q.ctl = { q.ctl with
      state := .suspended, replyTimer := none, holdTimer := none, noteTimer := none, exposes := [], lensMsgs := []
      ready := false, retryTimer := none } := by
    simp only [suspendedChannel, htxn, hheads]
  cases hlive : (decide (q.power.state = .on) || decide (q.power.state = .foldback)) with
  | false => rfl
  | true =>
    by_cases down : q.link.state = .down
    · simp [channel, resetLinkOf, down]
    · simp [channel, resetLinkOf, down, huntAgain]

/-- Settles O24. -/
theorem resetPort : Obligations.ResetPort := by
  refine ⟨fun a p s ⟨_, hr, hk⟩ hp idle => ?_, fun a p s ⟨_, hr, hk⟩ hp => ?_⟩
  · intro q live l c new members
    refine ⟨_, exec_resetPort hr hp, Shows.commandDone ?_ hk (by simp)⟩
    have ports : patternPorts p s = members := by
      unfold patternPorts
      cases h : s.setOf p with
      | none => simp only [members, h]
      | some k => simp only [members, h]; rfl
    have port : resetPortOf (s.port p) = new := resetPortOf_idle idle.2.2.1 idle.2.2.2.1
    have closed := shows_closeAll_idle (shows_takeCommand a s) idle .portReset
    have reset := closed.resetLink_idle idle
    have shared := (patternPorts_congr reset.device.sets p).trans (patternPorts_congr (u := s) rfl p)
    rw [← port, ← ports, ← modTakes_afterTake]
    generalize forgetCodes p (resetLink p (closeAll p .portReset (takeCommand a s))) = v at *
    rw [shared]
    exact reset.modTakes _ restarted
  · refine ⟨_, exec_resetPort hr hp, ?_⟩
    have device := (mirrored_flushMirrors (takeResetPort a p (takeCommand a s))).device
    have reset := (device.ports p).trans (takeResetPort_portView (a := a) (p := p) (takeCommand a s))
    have closed := closes_closeAll (p := p) .portReset (takeCommand a s)
    obtain ⟨hctl, hphase, hheld⟩ := closeAll_port (p := p) .portReset (takeCommand a s)
    have entries := closeAll_entries (p := p) .portReset (takeCommand a s)
    have last : (flushMirrors (takeResetPort a p (takeCommand a s))).chain.progress[(0 : Fin 17)].last = a := by
      rw [device.progress, takeResetPort_chain]
    obtain ⟨hpower, -, hchannel, hlens, hframe, hflex, halerts⟩ := portView_parts reset
    have htake := (congrArg Port.take reset :)
    have hsweep := (congrArg Port.sweep reset :)
    generalize closeAll p .portReset (takeCommand a s) = x at *
    generalize flushMirrors (takeResetPort a p (takeCommand a s)) = t at *
    refine ⟨hframe ▸ entries, fun u => ?_, hlens ▸ hphase, hlens ▸ hheld, htake ▸ rfl, fun live => ?_, hpower.trans closed.portPower,
      hsweep.trans closed.sweep, hflex.trans closed.flex, halerts.trans closed.alerts, last⟩
    · rw [hlens]
      exact Vector.getElem_replicate ..
    · have live : Live p x := by
        unfold Live powerOf
        rw [closed.portPower]
        exact live
      rw [hchannel, resetPortOf_live live]
      exact ⟨rfl, rfl, rfl, rfl⟩

end Sys2Proof.Machine
end

section
/-! PROOFS. Drops: the charge, the snapshot or its count, and what a drop takes of the port (R35, R36, R37, R57, R165, R171, R172). -/

namespace Sys2Proof.Machine

variable {s t v u : State} {w : List BusEvent} {p : PortId} {c : DropCause}

/-! ## Changes of the link stand apart from the flex map and the alerts -/

theorem sameDevice_modLink_twice (f g : LinkRx → LinkRx) (u : State) :
    SameDevice (modLink p g (modLink p f u)) (modLink p (fun l => g (f l)) u) :=
  sameDevice_modPort_twice _ _ fun _ _ e => portView_link e (congrArg g (congrArg Port.link e :))

theorem sameDevice_modFlex_modLink (f : FlexMap → FlexMap) (k : LinkRx → LinkRx) (u : State) :
    SameDevice (modFlex p f (modLink p k u)) (modLink p k (modFlex p f u)) := by
  have first : SameDevice (modFlex p f (modLink p k u)) (modPort p (fun q => { q with link := k q.link, flex := f q.flex }) u) :=
    sameDevice_modPort_twice _ _ fun _ _ e => portView_flex e (congrArg f (congrArg Port.flex e :))
  have last : SameDevice (modLink p k (modFlex p f u)) (modPort p (fun q => { q with link := k q.link, flex := f q.flex }) u) :=
    sameDevice_modPort_twice _ _ fun _ _ e => portView_link e (congrArg k (congrArg Port.link e :))
  exact first.trans last.symm

theorem sameDevice_withAlert_modLink (bit : Nat) (k : LinkRx → LinkRx) (u : State) :
    SameDevice (withAlert p bit (modLink p k u)) (modLink p k (withAlert p bit u)) :=
  (sameDevice_modPort_withAlert p _ bit u (fun _ _ e => portView_link e (congrArg k (congrArg Port.link e :)))
    (fun _ => rfl) fun _ => rfl).symm

theorem alertMessage_modLink (bit : Nat) (k : LinkRx → LinkRx) (u : State) : alertMessage p bit (modLink p k u) = alertMessage p bit u :=
  alertMessage_congr (modLink_port_alerts ..) rfl bit

theorem chargeBin_modLink (k : LinkRx → LinkRx) (u : State) : chargeBin p (modLink p k u) = chargeBin p u := by
  unfold chargeBin
  rw [modLink_port_flex]
  rfl

/-- A charge does not read the link. -/
theorem flexCharged_modLink (n : Nat) (k : LinkRx → LinkRx) (u : State) :
    SameDevice (flexCharged p n (modLink p k u)).1 (modLink p k (flexCharged p n u).1) ∧
      (flexCharged p n (modLink p k u)).2 = (flexCharged p n u).2 := by
  cases hb : chargeBin p u with
  | none =>
    rw [flexCharged_none hb, flexCharged_none ((chargeBin_modLink k u).trans hb)]
    exact ⟨.refl _, rfl⟩
  | some b =>
    rw [flexCharged_some hb, flexCharged_some ((chargeBin_modLink k u).trans hb), modLink_port_flex]
    split
    · split
      · exact ⟨((sameDevice_modFlex_modLink _ k u).withAlert p 8).trans (sameDevice_withAlert_modLink 8 k _), alertMessage_modLink 8 k u⟩
      · exact ⟨sameDevice_modFlex_modLink (fun x => overflowedMap (chargedMap b n x)) k u, rfl⟩
    · exact ⟨sameDevice_modFlex_modLink (chargedMap b n) k u, rfl⟩

/-! ## The snapshot of a drop -/

/-- A flex map that holds a snapshot (R171). -/
abbrev heldMap (snap : Snapshot) (x : FlexMap) : FlexMap := { x with snapshot := some snap, dropsLocked := 0 }

/-- A drop charged already at the snapshot: captured with SNAPSHOT_HELD where none is held, else counted (R171, R172). -/
def captured (p : PortId) (old : Option Snapshot) (snap : Snapshot) (y : State) : State × List BusEvent :=
  if old = none then
    (withAlert p 9 (modFlex p (heldMap snap) y), alertMessage p 9 y)
  else (modFlex p (fun f => { f with dropsLocked := min (f.dropsLocked + 1) 255 }) y, [])

/-- A drop at the flex map: charged with weight 16, then captured or counted, with the messages sent (R165, R171, R172). -/
def flexDropped (p : PortId) (c : DropCause) (u : State) : State × List BusEvent :=
  let y := flexCharged p 16 u
  let z := captured p (u.port p).flex.snapshot (snapshotOf p c u) y.1
  (z.1, z.2 ++ y.2)

theorem SameDevice.alertMessage (h : SameDevice v u) (p : PortId) (bit : Nat) : alertMessage p bit v = alertMessage p bit u := by
  unfold Machine.alertMessage
  rw [h.portAlerts, h.cause, h.enable]

theorem SameDevice.captured (h : SameDevice v u) (old : Option Snapshot) (snap : Snapshot) :
    SameDevice (captured p old snap v).1 (captured p old snap u).1 ∧ (captured p old snap v).2 = (captured p old snap u).2 := by
  unfold Machine.captured
  split
  · exact ⟨(h.modFlex rfl).withAlert p 9, h.alertMessage p 9⟩
  · refine ⟨?_, rfl⟩
    dsimp only
    exact h.modFlex rfl

theorem captured_modLink (old : Option Snapshot) (snap : Snapshot) (k : LinkRx → LinkRx) (u : State) :
    SameDevice (captured p old snap (modLink p k u)).1 (modLink p k (captured p old snap u).1) ∧
      (captured p old snap (modLink p k u)).2 = (captured p old snap u).2 := by
  unfold captured
  split
  · exact ⟨((sameDevice_modFlex_modLink _ k u).withAlert p 9).trans (sameDevice_withAlert_modLink 9 k _), alertMessage_modLink 9 k u⟩
  · refine ⟨?_, rfl⟩
    dsimp only
    exact sameDevice_modFlex_modLink _ k u

theorem snapshotOf_modLink {k : LinkRx → LinkRx} (hk : ∀ l, (k l).history = l.history ∧ (k l).bursts = l.bursts ∧ (k l).damaged = l.damaged)
    (u : State) : snapshotOf p c (modLink p k u) = snapshotOf p c u := by
  obtain ⟨history, bursts, damaged⟩ := hk (u.port p).link
  unfold snapshotOf currentReading
  dsimp only
  rw [chargeBin_modLink, modLink_port_power, modLink_port_flex, modLink_port_frame, modLink_port_self, history, bursts, damaged]
  rfl

/-- What a drop at the flex map leaves and sends does not depend on what the link holds besides its counts and its window. -/
theorem flexDropped_modLink {k : LinkRx → LinkRx} (hk : ∀ l, (k l).history = l.history ∧ (k l).bursts = l.bursts ∧ (k l).damaged = l.damaged)
    (u : State) : SameDevice (flexDropped p c (modLink p k u)).1 (modLink p k (flexDropped p c u).1) ∧
      (flexDropped p c (modLink p k u)).2 = (flexDropped p c u).2 := by
  obtain ⟨charged, chargeSent⟩ := flexCharged_modLink (p := p) 16 k u
  unfold flexDropped
  dsimp only
  rw [modLink_port_flex, snapshotOf_modLink hk, chargeSent]
  obtain ⟨same, sent⟩ := charged.captured (p := p) (u.port p).flex.snapshot (snapshotOf p c u)
  obtain ⟨same', sent'⟩ := captured_modLink (p := p) (u.port p).flex.snapshot (snapshotOf p c u) k (flexCharged p 16 u).1
  exact ⟨same.trans same', by rw [sent, sent']⟩

/-! ## What a drop at the flex map keeps of its port -/

/-- A port without its flex map, its alerts and the bookkeeping of its mirror. -/
abbrev uncharged (q : Port) : Port := { portView q with flex := {}, alerts := 0 }

theorem withAlert_same (bit : Nat) (s : State) (q : PortId) : portView { (withAlert p bit s).port q with alerts := 0 } =
    portView { s.port q with alerts := 0 } := by
  cases hset : (s.port p).alerts.getLsbD bit
  · rw [withAlert_new hset, modPort_port]
    split
    · rename_i e; rw [e]; rfl
    · rfl
  · rw [withAlert_set hset]

theorem withAlert_flex (bit : Nat) (s : State) (q : PortId) : ((withAlert p bit s).port q).flex = (s.port q).flex :=
  (congrArg Port.flex (withAlert_same bit s q) :)

theorem uncharged_withAlert (bit : Nat) (s : State) : uncharged ((withAlert p bit s).port p) = uncharged (s.port p) :=
  (congrArg (fun q : Port => ({ q with flex := {} } : Port)) (withAlert_same bit s p) :)

theorem uncharged_modFlex (f : FlexMap → FlexMap) (s : State) : uncharged ((modFlex p f s).port p) = uncharged (s.port p) := by
  unfold modFlex uncharged
  rw [modPort_portView, if_pos rfl]
  rfl

theorem uncharged_flexCharged (n : Nat) (u : State) : uncharged ((flexCharged p n u).1.port p) = uncharged (u.port p) := by
  cases hb : chargeBin p u with
  | none => rw [flexCharged_none hb]
  | some b =>
    rw [flexCharged_some hb]
    split
    · split
      · exact (uncharged_withAlert ..).trans (uncharged_modFlex ..)
      · exact uncharged_modFlex ..
    · exact uncharged_modFlex ..

theorem flexCharged_snapshot (n : Nat) (u : State) : ((flexCharged p n u).1.port p).flex.snapshot = (u.port p).flex.snapshot := by
  cases hb : chargeBin p u with
  | none => rw [flexCharged_none hb]
  | some b =>
    rw [flexCharged_some hb]
    split
    · split
      · dsimp only
        rw [withAlert_flex, modFlex_port_self]
      · dsimp only
        rw [modFlex_port_self]
    · dsimp only
      rw [modFlex_port_self]

theorem uncharged_flexDropped (c : DropCause) (u : State) : uncharged ((flexDropped p c u).1.port p) = uncharged (u.port p) := by
  refine Eq.trans ?_ (uncharged_flexCharged 16 u)
  unfold flexDropped captured
  dsimp only
  split
  · exact (uncharged_withAlert ..).trans (uncharged_modFlex ..)
  · exact uncharged_modFlex ..

theorem IdlePort.of_uncharged (h : uncharged (v.port p) = uncharged (u.port p)) (hi : IdlePort p u) : IdlePort p v :=
  hi.of_parts (congrArg Port.frame h :) (congrArg Port.ctl h :) (congrArg Port.lens h :)

/-! ## A drop -/

theorem SameDevice.snapshotOf (h : SameDevice v u) (p : PortId) (c : DropCause) : snapshotOf p c v = snapshotOf p c u := by
  unfold Machine.snapshotOf currentReading State.now
  dsimp only
  rw [h.trig, h.chargeBin, h.portPower, h.portLink, h.portFlex, h.portFrame]

/-- A drop at the flex map (R165, R171, R172). -/
theorem Shows.flexDrop (h : Shows s v u w) (p : PortId) (c : DropCause) :
    Shows s (flexDrop p c v) (flexDropped p c u).1 ((flexDropped p c u).2 ++ w) := by
  have charged := h.flexCharge p 16
  have held : ((Machine.flexCharge p 16 v).port p).flex.snapshot = (u.port p).flex.snapshot := by
    rw [charged.device.portFlex, flexCharged_snapshot]
  unfold Machine.flexDrop flexDropped captured
  dsimp only
  rw [held, h.device.snapshotOf]
  cases (u.port p).flex.snapshot with
  | none =>
    rw [if_pos rfl, List.append_assoc]
    have snap := (charged.modFlex p (f := heldMap (Machine.snapshotOf p c u)) (g := heldMap (Machine.snapshotOf p c u)) rfl).setPortAlert p 9
    rwa [alertMessage_congr (u := (flexCharged p 16 u).1) (modFlex_port_alerts ..) rfl] at snap
  | some x =>
    rw [if_neg nofun]
    exact charged.modFlex p rfl

/-- A port that a drop has taken the link of (R35, R57). -/
abbrev droppedPort (g : LinkRx → LinkRx) (q : Port) : Port := { q with link := g q.link, ctl := suspendedChannel q.ctl }

theorem sameDevice_dropped (g : LinkRx → LinkRx) (u : State) :
    SameDevice (modCtl p suspendedChannel (modLink p g u)) (modPort p (droppedPort g) u) :=
  sameDevice_modPort_twice _ _ fun _ _ e => portView_ctl e (congrArg suspendedChannel (congrArg Port.ctl e :))

/-- A drop of a port with nothing in hand, whose link a change `k` has taken already (R35, R36, R37, R57). -/
theorem Shows.linkDrop {k : LinkRx → LinkRx} (h : Shows s v (Machine.modLink p k u) w) (hi : IdlePort p u) (c : DropCause)
    (hk : ∀ l, (k l).history = l.history ∧ (k l).bursts = l.bursts ∧ (k l).damaged = l.damaged) :
    Shows s (linkDrop p c v) (modPort p (droppedPort fun l => dropLink c (k l)) (withAlert p 3 (flexDropped p c u).1))
      (alertMessage p 3 (flexDropped p c u).1 ++ ((flexDropped p c u).2 ++ w)) := by
  obtain ⟨same, sent⟩ := flexDropped_modLink (p := p) (c := c) hk u
  have idle : IdlePort p (Machine.modLink p (fun l => dropLink c (k l)) (withAlert p 3 (flexDropped p c u).1)) :=
    (idlePort_withAlert 3 (hi.of_uncharged (uncharged_flexDropped c u))).of_parts (modLink_port_frame ..) (modLink_port_ctl ..)
      (modLink_port_lens ..)
  have dropped := (((h.flexDrop p c).to same).modLink p (f := dropLink c) (g := dropLink c) rfl).to (sameDevice_modLink_twice ..)
  have alerted := (dropped.setPortAlert p 3).to (sameDevice_withAlert_modLink ..)
  rw [alertMessage_modLink, sent] at alerted
  have closed := shows_closeAll_idle alerted idle .linkLost
  exact (closed.suspendChannel_idle idle.2.2.1 idle.2.2.2.1 .linkLost).to (sameDevice_dropped ..)

/-! ## What a drop leaves of its port -/

theorem unreceived_flexDrop (c : DropCause) (s : State) (q : PortId) : unreceived ((flexDrop p c s).port q) = unreceived (s.port q) := by
  refine Eq.trans ?_ (unreceived_flexCharge (p := p) 16 s q)
  unfold flexDrop
  dsimp only
  split
  · exact (unreceived_setPortAlert ..).trans (unreceived_modPort rfl q)
  · exact unreceived_modPort rfl q

/-- An alert leaves the rest of its port. -/
theorem setPortAlert_parts (bit : Nat) (s : State) : let x := (setPortAlert p bit s).port p
    x.power = (s.port p).power ∧ x.link = (s.port p).link ∧ x.ctl = (s.port p).ctl ∧ x.flex = (s.port p).flex :=
  have same := setPortAlert_same bit s
  ⟨(congrArg Port.power same :), (congrArg Port.link same :), (congrArg Port.ctl same :), (congrArg Port.flex same :)⟩

/-- After a drop a snapshot is held (R171, R172). -/
theorem flexDrop_snapshot (c : DropCause) (s : State) : ((flexDrop p c s).port p).flex.snapshot.isSome = true := by
  unfold flexDrop
  dsimp only
  split
  · rw [(setPortAlert_parts ..).2.2.2, modFlex_port_self]
    rfl
  · rename_i x held
    rw [modFlex_port_self]
    exact held ▸ rfl

/-- What a drop leaves of its port, whatever the port had in hand (R35, R36, R57, R171). -/
theorem linkDrop_port (c : DropCause) (v : State) : let x := (linkDrop p c v).port p
    x.link = dropLink c (v.port p).link ∧ x.frame.entries = [] ∧ x.ctl.state = .suspended ∧ x.ctl.txn = none ∧ x.ctl.ready = false ∧
      x.ctl.identity = (v.port p).ctl.identity ∧ x.power = (v.port p).power ∧ x.alerts.getLsbD 3 = true ∧
      x.flex.snapshot.isSome = true := by
  intro x
  have hunts (F : State) : let m := (modLink p (dropLink c) F).port p
      m.link = dropLink c (F.port p).link ∧ m.power = (F.port p).power ∧ m.ctl = (F.port p).ctl ∧ m.flex = (F.port p).flex :=
    ⟨modLink_port_self .., modLink_port_power .., modLink_port_ctl .., modLink_port_flex ..⟩
  obtain ⟨fpower, flink, fctl, -⟩ := unreceived_parts (unreceived_flexDrop (p := p) c v p)
  have fsnap := flexDrop_snapshot (p := p) c v
  obtain ⟨mlink, mpower, mctl, mflex⟩ := hunts (flexDrop p c v)
  obtain ⟨apower, alink, actl, aflex⟩ := setPortAlert_parts (p := p) 3 (modLink p (dropLink c) (flexDrop p c v))
  have flag := setPortAlert_getLsbD (p := p) (bit := 3) (by decide) (modLink p (dropLink c) (flexDrop p c v))
  have dropped : linkDrop p c v =
      suspendChannel p .linkLost false (closeAll p .linkLost (setPortAlert p 3 (modLink p (dropLink c) (flexDrop p c v)))) := rfl
  generalize setPortAlert p 3 (modLink p (dropLink c) (flexDrop p c v)) = a at *
  have closed := closes_closeAll (p := p) .linkLost a
  have entries := closeAll_entries (p := p) .linkLost a
  obtain ⟨channel, -, -⟩ := closeAll_port (p := p) .linkLost a
  have suspended := suspendChannel_portView (p := p) .linkLost (closeAll p .linkLost a)
  have identity := (congrArg Channel.identity channel :)
  rw [← dropped] at suspended
  generalize closeAll p .linkLost a = b at *
  obtain ⟨xpower, xlink, xctl, -, xframe, xflex, xalerts⟩ := portView_parts suspended
  dsimp only at xpower xlink xctl xframe xflex xalerts
  refine ⟨?_, ?_, ?_, ?_, ?_, ?_, ?_, ?_, ?_⟩
  · rw [xlink, closed.link, alink, mlink, flink]
  · rw [xframe, entries]
  · rw [xctl]
  · rw [xctl]
  · rw [xctl]
  · rw [xctl, identity, actl, mctl, fctl]
  · rw [xpower, closed.portPower, apower, mpower, fpower]
  · rw [xalerts, closed.alerts, flag]
  · rw [xflex, closed.flex, aflex, mflex, fsnap]

/-! ## How a drop begins -/

/-- The link as a drop by this cause finds it: its carrier lost, where that is the cause (R32). -/
abbrev carried (c : DropCause) (l : LinkRx) : LinkRx := { l with carrier := if c = .signal then false else l.carrier }

/-- The steps that drop the link, with the cause of the drop (R31, R32). -/
abbrev Drops (p : PortId) (mark : U64) (i : Instr) (c : DropCause) (s : State) : Prop :=
  (i = .carrierLoss p ∧ c = .signal) ∨
    (c = .marks ∧ (s.port p).link.misses = 3 ∧
      ((i = .lockedMark p mark ∧ ((s.port p).link.burst = none ∨ (s.port p).link.burst = some .bad) ∧
          ∀ n : U16, 8 ≤ n.toNat → n.toNat ≤ 16394 → mark ≠ exactMark n) ∨
        (i = .recoveryWindowClose p ∧ (s.port p).link.burst = some .bad ∧ (s.port p).link.boundary = .window 16402)))

/-- The state that the link is dropped in: without the carrier, or with the burst of the bad mark before ended (R26, R31, R32). -/
def foundByDrop (p : PortId) (c : DropCause) (s : State) : State :=
  if c = .signal then modLink p (fun l => { l with carrier := false }) s else endBadBurst p s

theorem endBadBurst_misses (hl : (s.port p).link.state = .locked) (hh : (s.port p).link.history.length ≤ 8) :
    ((endBadBurst p s).port p).link.misses = (s.port p).link.misses := by
  by_cases hb : (s.port p).link.burst = some .bad
  · obtain ⟨-, link, -, -⟩ := unreceived_parts (unreceived_endBadBurst hl hb hh)
    exact (congrArg LinkRx.misses link :)
  · rw [endBadBurst_other hb]

theorem exec_drops {mark : U64} {i : Instr} (hl : (s.port p).link.state = .locked) (hh : (s.port p).link.history.length ≤ 8)
    (hd : Drops p mark i c s) : exec i s = .next (flushMirrors (linkDrop p c (foundByDrop p c s))) := by
  rcases hd with ⟨rfl, rfl⟩ | ⟨rfl, hm, hi⟩
  · exact congrArg endCommand (carrierLost_locked hl)
  · have dropped : badLockedMark p (endBadBurst p s) = linkDrop p .marks (endBadBurst p s) :=
      badLockedMark_drop ((endBadBurst_misses hl hh).trans hm)
    rcases hi with ⟨rfl, hb, hbad⟩ | ⟨rfl, hb, hw⟩
    · have boundary : ∀ n, (s.port p).link.burst ≠ some (.exact n) := by
        rcases hb with hb | hb <;> rw [hb] <;> exact nofun
      exact congrArg endCommand ((markInLocked_bad hl boundary (judgeMark_bad hbad)).trans dropped)
    · exact congrArg endCommand ((windowCloses_window hl hw).trans dropped)

/-- What stands, and what has been sent, when the link is dropped: by marks, a burst begun by a bad mark has ended (R26, R34, log 20). -/
def burstEnded (p : PortId) (c : DropCause) (s : State) : State × List BusEvent :=
  if c = .marks ∧ (s.port p).link.burst = some .bad then flexCharged p 1 (modLink p (heard .damaged false) s) else (s, [])

theorem flexCharged_trig (n : Nat) (u : State) : (flexCharged p n u).1.trig = u.trig := by
  cases hb : chargeBin p u with
  | none => rw [flexCharged_none hb]
  | some b =>
    rw [flexCharged_some hb]
    split
    · split
      · exact (withAlert_parts p p 8 _).1
      · rfl
    · rfl

theorem burstEnded_trig (c : DropCause) (s : State) : (burstEnded p c s).1.trig = s.trig := by
  unfold burstEnded
  split
  · exact flexCharged_trig ..
  · rfl

theorem idlePort_burstEnded (c : DropCause) (h : IdlePort p s) : IdlePort p (burstEnded p c s).1 := by
  unfold burstEnded
  split
  · exact (h.of_parts (modLink_port_frame ..) (modLink_port_ctl ..) (modLink_port_lens ..)).of_uncharged (uncharged_flexCharged ..)
  · exact h

theorem shows_foundByDrop {c : DropCause} (hc : c = .signal ∨ c = .marks) (hl : (s.port p).link.state = .locked) (hi : IdlePort p s)
    (hh : (s.port p).link.history.length ≤ 8) :
    Shows s (foundByDrop p c s) (modLink p (carried c) (burstEnded p c s).1) (burstEnded p c s).2 := by
  rcases hc with rfl | rfl
  · unfold foundByDrop burstEnded
    rw [if_pos rfl, if_neg fun e => nomatch e.1]
    exact (Shows.refl s).modLink p rfl
  · have same (u : State) : SameDevice u (modLink p (carried .marks) u) := (sameDevice_modPort rfl).symm
    have receives : ∀ f, (s.port p).frame.recv ≠ .filling f := by rw [hi.2.1]; exact nofun
    unfold foundByDrop burstEnded
    rw [if_neg nofun]
    by_cases hb : (s.port p).link.burst = some .bad
    · rw [if_pos ⟨rfl, hb⟩]
      have ended := endBadBurst_shows hl hb hh fun f hf => absurd hf (receives f)
      rw [damagedHeard_kept fun f hf => absurd hf (receives f)] at ended
      exact ended.to (same _)
    · rw [if_neg fun e => hb e.2, endBadBurst_other hb]
      exact (Shows.refl s).to (same s)

theorem snapshotOf_idle (c : DropCause) (h : IdlePort p u) : snapshotOf p c u = {
    cause := c, time := u.trig.clock, axisA := u.trig.axisA.position, axisB := u.trig.axisB.position
    bin := (u.port p).flex.axis.map fun ax =>
      flexBin (u.port p).flex.low.toInt (u.port p).flex.high.toInt (axisState ax u.trig).position.toInt
    current := if isPowered (u.port p).power.state then (u.port p).power.loadMa else 0, power := (u.port p).power.state
    history := (u.port p).link.history, bursts := (u.port p).link.bursts - (u.port p).flex.noteBursts
    damaged := (u.port p).link.damaged - (u.port p).flex.noteDamaged, frame := none } := by
  unfold snapshotOf currentReading State.now
  dsimp only
  rw [chargeBin_eq, fillingOf, h.2.1]
  rfl

theorem modPort_congr {f g : Port → Port} (h : f (s.port p) = g (s.port p)) : modPort p f s = modPort p g s := by
  unfold modPort
  simp only [h]

/-- A drop of a port with nothing in hand abandons no transaction. -/
theorem droppedPort_idle {q : Port} (c : DropCause) (htxn : q.ctl.txn = none) (hheads : q.ctl.heads = []) :
    droppedPort (fun l => dropLink c (carried c l)) q = { q with
      link := { q.link with
        state := .hunt, confirm := 0, misses := 0, boundary := .none, burst := none, lastDrop := c
        drops := if q.link.drops = 0xFFFF then 0xFFFF else q.link.drops + 1
        carrier := if c = .signal then false else q.link.carrier }
      ctl := { q.ctl with
        state := .suspended, replyTimer := none, holdTimer := none, noteTimer := none, exposes := [], lensMsgs := []
        ready := false, retryTimer := none } } := by
  have drops : (if q.link.drops = 0xFFFF then q.link.drops else q.link.drops + 1) =
      if q.link.drops = 0xFFFF then 0xFFFF else q.link.drops + 1 := by
    split
    · assumption
    · rfl
  simp only [droppedPort, suspendedChannel, dropLink, huntAgain, htxn, hheads, drops]

/-- Of link, channel and power of its port, a drop finds changed the carrier or what a burst that ended has counted (R26, R32, R34). -/
theorem foundByDrop_port {c : DropCause} (hc : c = .signal ∨ c = .marks) (hl : (s.port p).link.state = .locked)
    (hh : (s.port p).link.history.length ≤ 8) : let x := (foundByDrop p c s).port p
    x.link.history = (if c = .marks ∧ (s.port p).link.burst = some .bad then (heard .damaged false (s.port p).link).history
      else (s.port p).link.history) ∧ x.link.drops = (s.port p).link.drops ∧ x.ctl = (s.port p).ctl ∧ x.power = (s.port p).power := by
  unfold foundByDrop
  rcases hc with rfl | rfl
  · rw [if_pos rfl, if_neg fun e => nomatch e.1]
    dsimp only
    rw [modLink_port_self, modLink_port_ctl, modLink_port_power]
    exact ⟨rfl, rfl, rfl, rfl⟩
  · rw [if_neg nofun]
    by_cases hb : (s.port p).link.burst = some .bad
    · obtain ⟨power, link, ctl, -⟩ := unreceived_parts (unreceived_endBadBurst hl hb hh)
      rw [if_pos ⟨rfl, hb⟩]
      exact ⟨(congrArg LinkRx.history link :), (congrArg LinkRx.drops link :), ctl, power⟩
    · rw [if_neg fun e => hb e.2, endBadBurst_other hb]
      exact ⟨rfl, rfl, rfl, rfl⟩

/-- Settles O44. -/
theorem drop : Obligations.Drop := by
  refine ⟨fun p mark c cause s _ hi hl hh hc => ?_, fun p mark c cause s hl hc hh => ?_⟩
  · intro x y q snap z u
    refine ⟨_, exec_drops hl hh hc, Shows.ends ?_⟩
    have idle : IdlePort p x.1 := idlePort_burstEnded cause hi
    have found : Shows s (foundByDrop p cause s) (modLink p (carried cause) x.1) x.2 :=
      shows_foundByDrop (hc.imp And.right And.left) hl hi hh
    have dropped := found.linkDrop idle cause fun _ => ⟨rfl, rfl, rfl⟩
    have trig : x.1.trig = s.trig := burstEnded_trig cause s
    have hsnap : snapshotOf p cause x.1 = snap := by
      rw [snapshotOf_idle cause idle, trig]
    have flex : flexDropped p cause x.1 = (z.1, z.2 ++ y.2) := by
      unfold flexDropped
      rw [hsnap]
      rfl
    have idleLast : IdlePort p (withAlert p 3 z.1) := by
      have last := idlePort_withAlert 3 (idle.of_uncharged (uncharged_flexDropped cause x.1))
      rwa [flex] at last
    rw [flex] at dropped
    have shape : modPort p (droppedPort fun l => dropLink cause (carried cause l)) (withAlert p 3 z.1) = u :=
      modPort_congr (droppedPort_idle cause idleLast.2.2.1 idleLast.2.2.2.1)
    rw [← shape]
    simpa only [List.append_assoc] using dropped
  · refine ⟨_, exec_drops hl hh hc, ?_⟩
    have same := (mirrored_flushMirrors (linkDrop p cause (foundByDrop p cause s))).device.ports p
    obtain ⟨hlink, hentries, hstate, htxn, hready, hidentity, hpower, halert, hheld⟩ := linkDrop_port (p := p) cause (foundByDrop p cause s)
    obtain ⟨tpower, tlink, tctl, -, tframe, tflex, talerts⟩ := portView_parts same
    obtain ⟨history, drops, ctl, power⟩ := foundByDrop_port (hc.imp And.right And.left) hl hh
    rw [tpower, tlink, tctl, tframe, tflex, talerts, hlink, hpower, hidentity, power, ctl]
    refine ⟨rfl, rfl, ?_, history, hentries, hstate, htxn, hready, rfl, rfl, halert, hheld⟩
    rw [← drops]
    unfold dropLink
    dsimp only
    split
    · assumption
    · rfl

end Sys2Proof.Machine
end

section
/-! PROOFS. What a port's exposure list and receive state become, and what a close of an entry writes (R106, R121, R122, R123). -/

namespace Sys2Proof.Machine

variable {s t v u : State} {w : List BusEvent} {p : PortId} {r r' : Receive} {es es' : List Entry} {c : ChainEngine}

/-! ## Completions of records of any chain -/

theorem sameDevice_completeRecord (h : SameDevice v u) (ch : ChainId) (a : Addr) (ok : Bool) :
    SameDevice (completeRecord ch a ok v) { u with chain := afterCompletionOf (chainIndex ch) (chainGroup ch) a u.chain } := by
  have k := cardKept_completeRecord ch a ok v
  have hchain : chainView (afterCompletionOf (chainIndex ch) (chainGroup ch) a v.chain) =
      chainView (afterCompletionOf (chainIndex ch) (chainGroup ch) a u.chain) := by
    have view (d : ChainEngine) : chainView (afterCompletionOf (chainIndex ch) (chainGroup ch) a d) =
        afterCompletionOf (chainIndex ch) (chainGroup ch) a (chainView d) := by cases ch <;> rfl
    rw [view, view, h.chain]
  exact ⟨k.pending.trans h.pending, k.cable.trans h.cable, (congrArg chainView (completeRecord_chain ch a ok v)).trans hchain,
    k.power.trans h.power, k.trig.trans h.trig, k.sets.trans h.sets, k.sweeps.trans h.sweeps,
    fun q => (congrArg portView (k.port q)).trans (h.ports q)⟩

theorem completionTail_chainView (s : State) (i : Fin 17) (g : GatherGroup) (a : Addr) (done : Bool) (d : ChainEngine) :
    completionTail s (chainView d) i g a done = completionTail s d i g a done := by
  cases g <;> rfl

/-- The completion of a record whose result fields are written (R185, R186, R187). -/
theorem Shows.completeRecord (h : Shows s v u w) (ch : ChainId) (a : Addr) (ok : Bool) :
    Shows s (completeRecord ch a ok v) { u with chain := afterCompletionOf (chainIndex ch) (chainGroup ch) a u.chain }
      (completionTail s u.chain (chainIndex ch) (chainGroup ch) a ok ++ w) := by
  refine h.step (sameDevice_completeRecord h.device ch a ok) (dmaOnly_completeRecord ch a ok v) ?_ ?_ ?_
  · rw [completeRecord_bus, completionTail_congr (h.device.block.trans h.block), ← completionTail_chainView, h.device.chain,
      completionTail_chainView]
  · cases ch <;> rfl
  · cases ch <;> rfl

/-! ## The receive state and the exposure list of a port -/

/-- A port's share of the Frame Writer with its receive state and its exposure list set, and strays counted. -/
abbrev reframed (r : Receive) (strays : U32) (es : List Entry) (q : FrameRx) : FrameRx :=
  { q with recv := r, strayFrames := q.strayFrames + strays, entries := es }

/-- The card with that at a port, and another Chain Engine. -/
abbrev framed (p : PortId) (r : Receive) (strays : U32) (es : List Entry) (c : ChainEngine) (u : State) : State :=
  { modFrame p (reframed r strays es) u with chain := c }

theorem shows_framed (h : Shows s v u w) : Shows s v (framed p (u.port p).frame.recv 0 (u.port p).frame.entries u.chain u) w := by
  refine h.to (sameDevice_modFrame (f := reframed (u.port p).frame.recv 0 (u.port p).frame.entries) ?_).symm
  unfold reframed
  rw [show (u.port p).frame.strayFrames + 0 = (u.port p).frame.strayFrames from BitVec.add_zero _]

theorem Shows.framed_frame {k : U32} (h : Shows s v (framed p r k es c u) w) : (v.port p).frame = reframed r k es (u.port p).frame :=
  (h.device.portFrame p).trans (modFrame_port_self u p (reframed r k es))

/-- A further change of the receive state and the list. -/
theorem Shows.reframe {k k' : U32} (h : Shows s v (framed p r k es c u) w) {f : FrameRx → FrameRx}
    (hf : f (reframed r k es (u.port p).frame) = reframed r' k' es' (u.port p).frame) :
    Shows s (Machine.modFrame p f v) (framed p r' k' es' c u) w :=
  (h.modFrame p (f := f) (g := f) rfl).to
    (((sameDevice_modFrame_twice _ f u).trans (SameDevice.modFrame (.refl u) hf)).withChain (c := c) (d := c) rfl)

/-! ## An entry closes -/

/-- The frame that a receive state has of the entry with a trigger number. -/
def receivedOf (r : Receive) (n : U32) : Option Filling := (fillingOf { recv := r }).filter fun g => decide (g.trigger = n)

theorem receivedOf_recv (q : FrameRx) (n : U32) : (fillingOf q).filter (fun g => decide (g.trigger = n)) = receivedOf q.recv n := rfl

theorem receivedOf_none (h : ∀ f, r ≠ .filling f) (n : U32) : receivedOf r n = none := by
  cases r with
  | filling f => exact absurd rfl (h f)
  | idle | discarding => rfl

theorem receivedOf_filling (f : Filling) : receivedOf (.filling f) f.trigger = some f := by
  simp [receivedOf, fillingOf]

/-- Of the Frame Writer's share of a port, the close fields hold the erasure settings only. -/
theorem closeBytes_reframed (r : Receive) (k : U32) (es : List Entry) (q : FrameRx) (e : Entry) (f : Option Filling) (sent : Nat)
    (now : U64) : closeBytes (reframed r k es q) e f sent now = closeBytes q e f sent now := rfl

theorem removeMessages_none (n : U32) (hx : (s.port p).ctl.exposes = []) (hm : (s.port p).ctl.lensMsgs = []) :
    SameDevice (removeMessages p n s) s := by
  have kept : ({ (s.port p).ctl with
      exposes := (s.port p).ctl.exposes.filter fun t => decide (t ≠ n)
      lensMsgs := (s.port p).ctl.lensMsgs.filter fun m => decide (m.trigger ≠ n) } : Channel) = (s.port p).ctl := by
    rw [hx, hm, List.filter_nil, List.filter_nil, ← hx, ← hm]
  unfold removeMessages modCtl
  exact sameDevice_modPort (congrArg (fun c : Channel => portView { s.port p with ctl := c }) kept)

theorem closeLensShare_none {e : Entry} (h : e.phase = .filling ∨ e.phase = .exposed) (st : Code) (s : State) :
    closeLensShare p e st s = s := by
  unfold closeLensShare
  rcases h with h | h <;> rw [h]

theorem completeImage_single {e : Entry} (hset : e.set = none) (f : Option Filling) (sent : Nat) (st : Code) (s : State) :
    completeImage p e f sent st s = completeRecord (.image p) e.image (doneClass st)
      (dmaWrite (e.image + 0x48) (leBytes 2 (codeNumber st) ++ zeros 2 ++ closeBytes (s.port p).frame e f sent s.now) s) := by
  unfold completeImage
  rw [hset]

theorem sameDevice_touchPort (p : PortId) (s : State) : SameDevice (touchPort p s) s := by
  refine ⟨rfl, rfl, rfl, rfl, rfl, rfl, rfl, fun q => ?_⟩
  rw [touchPort_port]
  split
  · rename_i e; rw [e]; rfl
  · rfl

/-- An image record completes with the close fields of its entry (R121, R123, R185). -/
theorem Shows.completeImage {k : U32} {e : Entry} (h : Shows s v (framed p r k es c u) w) (hset : e.set = none) (f : Option Filling)
    (sent : Nat) (st : Code) :
    Shows s (completeImage p e f sent st v) (framed p r k es (afterCompletionOf ⟨1 + p.val, by omega⟩ .frames e.image c) u)
      (completionTail s c ⟨1 + p.val, by omega⟩ .frames e.image (doneClass st) ++ (.write (e.image + 0x48)
        (leBytes 2 (codeNumber st) ++ zeros 2 ++ closeBytes (u.port p).frame e f sent u.trig.clock) :: w)) := by
  have now : v.now = u.trig.clock := congrArg TriggerCell.clock h.device.trig
  rw [completeImage_single hset, h.framed_frame, closeBytes_reframed, now]
  exact (h.dmaWrite _ _).completeRecord (.image p) e.image (doneClass st)

/-- An entry of no set closes that waits for its frame or receives it (R106, R121, R122). -/
theorem Shows.closeEntry {k : U32} {n : U32} {e : Entry} (h : Shows s v (framed p r k es c u) w)
    (hx : (u.port p).ctl.exposes = []) (hm : (u.port p).ctl.lensMsgs = [])
    (he : es.find? (fun e => decide (e.trigger = n)) = some e) (hset : e.set = none) (hphase : e.phase = .filling ∨ e.phase = .exposed)
    (st : Code) (sent : Nat) :
    Shows s (closeEntry p n st sent v)
      (framed p (if (receivedOf r n).isSome then .idle else r) k (es.filter fun x => decide (x.trigger ≠ n))
        (afterCompletionOf ⟨1 + p.val, by omega⟩ .frames e.image c) u)
      (completionTail s c ⟨1 + p.val, by omega⟩ .frames e.image (doneClass st) ++ (.write (e.image + 0x48)
        (leBytes 2 (codeNumber st) ++ zeros 2 ++ closeBytes (u.port p).frame e (receivedOf r n) sent u.trig.clock) :: w)) := by
  have frame := h.framed_frame
  have found : findEntry (v.port p).frame n = some e := by rw [frame]; exact he
  have ctl : (v.port p).ctl = (u.port p).ctl := (h.device.portCtl p).trans (modFrame_port_ctl ..)
  have removed : Shows s (removeMessages p n v) (framed p r k es c u) w :=
    h.still ((removeMessages_none n (ctl ▸ hx) (ctl ▸ hm)).trans h.device) rfl rfl rfl
  unfold Machine.closeEntry
  rw [found]
  dsimp only
  rw [receivedOf_recv, frame, closeLensShare_none hphase]
  have listed := removed.reframe (r' := if (receivedOf r n).isSome then .idle else r) (k' := k)
    (es' := es.filter fun x => decide (x.trigger ≠ n))
    (f := fun q => { q with entries := q.entries.filter fun x => decide (x.trigger ≠ n)
                            recv := if (receivedOf r n).isSome then .idle else q.recv }) rfl
  have completed := listed.completeImage hset (receivedOf r n) sent st
  exact completed.still ((sameDevice_touchPort p _).trans completed.device) rfl rfl rfl

end Sys2Proof.Machine
end

section
/-! PROOFS. FRAME-OPEN: the frame before it is lost, older exposures are missed, and the frame is matched or strays (R110, R111, R112). -/

namespace Sys2Proof.Machine

variable {s t v u : State} {w : List BusEvent} {p : PortId} {r : Receive} {es olds rest more : List Entry} {c : ChainEngine}
  {f : Filling} {e : Entry}

/-! ## The close fields of an image record -/

@[simp] theorem matchHeadBytes_length (m : Option Match) : (matchHeadBytes m).length = 5 := by
  cases m <;> simp [matchHeadBytes]

@[simp] theorem matchTailBytes_length (m : Option Match) : (matchTailBytes m).length = 10 := by
  cases m <;> simp [matchTailBytes]

theorem rangeBytes_length {l : List (Nat × Nat)} (h : l.length ≤ 16) : (rangeBytes l).length = 64 := by
  have four : ∀ x ∈ l.map (fun q => leBytes 2 q.1 ++ leBytes 2 q.2), x.length = 4 := by
    intro x hx
    obtain ⟨q, -, rfl⟩ := List.mem_map.mp hx
    simp
  unfold rangeBytes
  rw [List.length_append, flatten_length_of_forall _ four, zeros_length, List.length_map]
  omega

/-- The close fields are those from 0x4C to 0xCF (R123). -/
theorem closeBytes_length {g : Option Filling} (h : ∀ f ∈ g, f.ranges.length ≤ 16) (q : FrameRx) (e : Entry) (sent : Nat) (now : U64) :
    (closeBytes q e g sent now).length = 0x84 := by
  have ranges : (rangeBytes ((g.map (·.ranges)).getD [])).length = 64 := by
    refine rangeBytes_length ?_
    cases g with
    | none => exact Nat.zero_le 16
    | some f => exact h f rfl
  unfold closeBytes
  simp only [List.length_append, matchHeadBytes_length, matchTailBytes_length, u8_length, leBytes_length, flag_length, zeros_length,
    u64_length, ranges]

theorem slice_append {a b d : List Byte} {i n : Nat} (ha : a.length = i) (hb : b.length = n) : ((a ++ (b ++ d)).drop i).take n = b := by
  rw [List.drop_left' ha, List.take_left' hb]

/-- The close fields from the line counts of the frame on, and those of its flags (R123). -/
abbrev countBytes (g : Option Filling) (sent : Nat) : List Byte :=
  leBytes 2 sent ++ leBytes 2 ((g.map (·.written)).getD 0) ++ leBytes 2 ((g.map (·.erased)).getD 0) ++ leBytes 2 ((g.map (·.cut)).getD 0)
@[inherit_doc countBytes]
abbrev flagBytes (g : Option Filling) : List Byte :=
  flag ((g.map (·.truncated)).getD false) ++ u8 ((g.map (·.ranges.length)).getD 0) ++ flag ((g.map (·.overflow)).getD false)

theorem closeBytes_parts (q : FrameRx) (e : Entry) (g : Option Filling) (sent : Nat) (now : U64) : ∃ a d : List Byte, a.length = 1 ∧
    closeBytes q e g sent now =
      matchHeadBytes e.opened ++ (a ++ (matchTailBytes e.opened ++ (countBytes g sent ++ (flagBytes g ++ d)))) := by
  simp only [closeBytes, countBytes, flagBytes, List.append_assoc]
  exact ⟨_, _, u8_length _, rfl⟩

/-- Where the match fields, the line counts and the flags of the frame stand among the close fields (R123). -/
theorem closeBytes_fields (q : FrameRx) (e : Entry) (g : Option Filling) (sent : Nat) (now : U64) : let b := closeBytes q e g sent now
    b.take 5 = matchHeadBytes e.opened ∧ (b.drop 6).take 10 = matchTailBytes e.opened ∧
      (b.drop 0x10).take 8 = countBytes g sent ∧ (b.drop 0x18).take 3 = flagBytes g := by
  obtain ⟨a, d, ha, parts⟩ := closeBytes_parts q e g sent now
  have tail : closeBytes q e g sent now =
      (matchHeadBytes e.opened ++ a) ++ (matchTailBytes e.opened ++ (countBytes g sent ++ (flagBytes g ++ d))) := by
    simpa only [List.append_assoc] using parts
  have counts : closeBytes q e g sent now =
      (matchHeadBytes e.opened ++ a ++ matchTailBytes e.opened) ++ (countBytes g sent ++ (flagBytes g ++ d)) := by
    simpa only [List.append_assoc] using parts
  have flags : closeBytes q e g sent now =
      (matchHeadBytes e.opened ++ a ++ matchTailBytes e.opened ++ countBytes g sent) ++ (flagBytes g ++ d) := by
    simpa only [List.append_assoc] using parts
  refine ⟨?_, ?_, ?_, ?_⟩
  · rw [parts, List.take_left' (matchHeadBytes_length _)]
  · rw [tail, slice_append (by simp [ha]) (matchTailBytes_length _)]
  · rw [counts, slice_append (by simp [ha]) (by simp)]
  · rw [flags, slice_append (by simp [ha]) (by simp)]

/-! ## Entries of one trigger number each -/

theorem findEntry_first {e : Entry} {es : List Entry} : (e :: es).find? (fun x => decide (x.trigger = e.trigger)) = some e :=
  List.find?_cons_of_pos (decide_eq_true rfl)

theorem filter_first (nodup : ((e :: es).map (·.trigger)).Nodup) : (e :: es).filter (fun x => decide (x.trigger ≠ e.trigger)) = es := by
  rw [List.map_cons, List.nodup_cons] at nodup
  rw [List.filter_cons_of_neg (by simp)]
  refine List.filter_eq_self.mpr fun x hx => decide_eq_true fun same => nodup.1 ?_
  exact same ▸ List.mem_map_of_mem hx

theorem map_first (g : Entry → Entry) (nodup : ((e :: es).map (·.trigger)).Nodup) :
    (e :: es).map (fun x => if x.trigger = e.trigger then g x else x) = g e :: es := by
  rw [List.map_cons, List.nodup_cons] at nodup
  rw [List.map_cons, if_pos rfl]
  refine congrArg (g e :: ·) ((List.map_congr_left fun x hx => if_neg fun same => nodup.1 ?_).trans (List.map_id es))
  exact same ▸ List.mem_map_of_mem hx

/-! ## Closes, one after the other -/

theorem closesOf_append (s : State) (p : PortId) (c : ChainEngine) (xs ys : List (Entry × Nat × Bool × List Byte)) :
    closesOf s p c (xs ++ ys) = ((closesOf s p (closesOf s p c xs).1 ys).1,
      (closesOf s p (closesOf s p c xs).1 ys).2 ++ (closesOf s p c xs).2) := by
  induction xs generalizing c with
  | nil => simp [closesOf]
  | cons x xs ih =>
    obtain ⟨e, st, done, body⟩ := x
    rw [List.cons_append, closesOf, closesOf, ih]
    simp only [List.append_assoc]

/-- Exposures older than the frame's are missed, oldest first (R111). -/
theorem Shows.missed {k : U32} (h : Shows s v (framed p r k (olds ++ rest) c u) w) (hr : ∀ f, r ≠ .filling f)
    (hx : (u.port p).ctl.exposes = []) (hm : (u.port p).ctl.lensMsgs = []) (holds : ∀ e ∈ olds, e.set = none ∧ e.phase = .exposed)
    (nodup : ((olds ++ rest).map (·.trigger)).Nodup) {body : Entry → List Byte}
    (hbody : ∀ e ∈ olds, body e = closeBytes (u.port p).frame e none 0 u.trig.clock) :
    let x := closesOf s p c (olds.map fun e => (e, 52, false, body e))
    Shows s (olds.foldl (fun t x => Machine.closeEntry p x.trigger .missed 0 t) v) (framed p r k rest x.1 u) (x.2 ++ w) := by
  induction olds generalizing v c w with
  | nil => exact h
  | cons e es ih =>
    obtain ⟨hset, hphase⟩ := holds e (List.mem_cons_self ..)
    rw [List.cons_append] at h nodup
    have closed := h.closeEntry hx hm findEntry_first hset (.inr hphase) .missed 0
    rw [filter_first nodup, receivedOf_none hr, ← hbody e (List.mem_cons_self ..)] at closed
    have last := ih closed (fun e he => holds e (List.mem_cons_of_mem _ he)) (List.nodup_cons.mp nodup).2
      fun e he => hbody e (List.mem_cons_of_mem _ he)
    simp only [List.map_cons, List.foldl_cons, closesOf, List.append_assoc, List.singleton_append]
    simp only [List.append_assoc] at last
    exact last

/-! ## The frame being filled is lost -/

/-- The frame being filled, its lines still missing erased (R110). -/
abbrev lostFrame (q : FrameRx) (e : Entry) (f : Filling) : Filling × List BusEvent := erasedLines q e (f.header.height - f.next) f

theorem closeLost_none (h : ∀ f, (s.port p).frame.recv ≠ .filling f) : closeLost p s = s := by
  have none : fillingOf (s.port p).frame = none := by
    unfold fillingOf
    split
    · rename_i f hf; exact absurd hf (h f)
    · rfl
  unfold closeLost
  rw [none]

theorem closeLost_filling (h : (s.port p).frame.recv = .filling f) :
    closeLost p s = closeEntry p f.trigger .closeLost 0 (eraseLines p (f.header.height - f.next) s) := by
  unfold closeLost eraseRest
  rw [fillingOf_filling h]

/-- A frame being filled closes with its missing lines erased (R110). -/
theorem Shows.closeLost (h : Shows s v u w) (hf : (u.port p).frame.recv = .filling f) (hentries : (u.port p).frame.entries = e :: es)
    (htrigger : e.trigger = f.trigger) (hset : e.set = none) (hphase : e.phase = .filling)
    (hx : (u.port p).ctl.exposes = []) (hm : (u.port p).ctl.lensMsgs = []) (nodup : ((e :: es).map (·.trigger)).Nodup)
    {body : Entry → List Byte}
    (hbody : body e = closeBytes (u.port p).frame e (some (lostFrame (u.port p).frame e f).1) 0 u.trig.clock) :
    let x := closesOf s p u.chain [(e, 51, true, body e)]
    Shows s (Machine.closeLost p v) (framed p .idle 0 es x.1 u) (x.2 ++ ((lostFrame (u.port p).frame e f).2 ++ w)) := by
  have receives : (v.port p).frame.recv = .filling f := (congrArg FrameRx.recv (h.device.portFrame p)).trans hf
  have found : findEntry (u.port p).frame f.trigger = some e := htrigger ▸ findEntry_head hentries
  have erased := (shows_withFilling h hf).eraseLines found (f.header.height - f.next)
  obtain ⟨trigger, -⟩ := erasedLines_keeps (u.port p).frame e (f.header.height - f.next) f
  have same : e.trigger = (lostFrame (u.port p).frame e f).1.trigger := htrigger.trans trigger.symm
  have shown : Shows s (Machine.eraseLines p (f.header.height - f.next) v)
      (framed p (.filling (lostFrame (u.port p).frame e f).1) 0 (e :: es) u.chain u) ((lostFrame (u.port p).frame e f).2 ++ w) := by
    refine erased.to (SameDevice.modFrame (.refl u) ?_)
    unfold reframed
    rw [← hentries, show (u.port p).frame.strayFrames + 0 = (u.port p).frame.strayFrames from BitVec.add_zero _]
  have closed := shown.closeEntry hx hm findEntry_first hset (.inl hphase) .closeLost 0
  rw [filter_first nodup, same, receivedOf_filling, ← hbody] at closed
  rw [closeLost_filling receives, ← htrigger, same]
  simp only [closesOf, List.nil_append, List.append_assoc, List.singleton_append]
  exact closed

end Sys2Proof.Machine
end

section
/-! PROOFS. A FRAME-OPEN meets the exposure list: the stray, the match that fits and the match that does not (R111, R112). -/

namespace Sys2Proof.Machine

variable {s t v u : State} {w : List BusEvent} {p : PortId} {r : Receive} {es olds rest more : List Entry} {c : ChainEngine}
  {e : Entry} {h : FrameHeader}

/-- The entry that a FRAME-OPEN finds: the oldest EXPOSED one of its trigger tag (R111). -/
abbrev openFinds (h : FrameHeader) (e : Entry) : Bool := decide (e.phase = .exposed) && decide (triggerTag e.trigger = h.tag)

theorem takeFrameOpen_stray (hnone : ((closeLost p s).port p).frame.entries.find? (openFinds h) = none) :
    takeFrameOpen p h s =
      modFrame p (fun r => { r with strayFrames := r.strayFrames + 1, recv := .discarding }) (closeLost p s) := by
  unfold takeFrameOpen
  dsimp only
  rw [hnone]

theorem takeFrameOpen_found (hsome : ((closeLost p s).port p).frame.entries.find? (openFinds h) = some e) :
    takeFrameOpen p h s = matchFrame p h e (closeLost p s) := by
  unfold takeFrameOpen
  dsimp only
  rw [hsome]

theorem openFinds_true (hphase : e.phase = .exposed) (htag : e.trigger.setWidth 16 = h.tag) : openFinds h e = true := by
  simp [openFinds, triggerTag, hphase, htag]

theorem openFinds_false (hother : e.phase = .exposed → e.trigger.setWidth 16 ≠ h.tag) : openFinds h e = false := by
  by_cases hphase : e.phase = .exposed
  · simp [openFinds, triggerTag, hother hphase]
  · simp [openFinds, hphase]

/-- A matched FRAME-OPEN: what the card keeps of it (R111). -/
abbrev matchOf (h : FrameHeader) (e : Entry) (now : U64) : Match :=
  { header := h, bytesPerLine := bytesPerLine e.format h.width h.depth, time := now }

/-- The exposures that are older than that of the frame (R111). -/
theorem olderThan_eq (holds : ∀ x ∈ olds, x.phase = .exposed) (nodup : ((olds ++ e :: more).map (·.trigger)).Nodup) :
    ((olds ++ e :: more).takeWhile fun x => decide (x.trigger ≠ e.trigger)).filter (fun x => decide (x.phase = .exposed)) = olds := by
  have apart : ∀ x ∈ olds, x.trigger ≠ e.trigger := by
    intro x hx same
    rw [List.map_append, List.nodup_append] at nodup
    exact nodup.2.2 _ (List.mem_map_of_mem hx) _ (List.mem_map_of_mem (List.mem_cons_self ..)) same
  rw [List.takeWhile_append_of_pos fun x hx => decide_eq_true (apart x hx), List.takeWhile_cons_of_neg (by simp), List.append_nil]
  exact List.filter_eq_self.mpr fun x hx => decide_eq_true (holds x hx)

theorem matchFrame_fits (hfits : bytesPerLine e.format h.width h.depth ≤ e.stride) (hentries : (s.port p).frame.entries = olds ++ e :: more)
    (holds : ∀ x ∈ olds, x.phase = .exposed) (nodup : ((olds ++ e :: more).map (·.trigger)).Nodup) : matchFrame p h e s =
      writeRecordState e.image .filling (dmaWrite (e.image + 0x78) (u64 s.now)
        (dmaWrite (e.image + 0x52) (matchTailBytes (some (matchOf h e s.now)))
          (dmaWrite (e.image + 0x4C) (matchHeadBytes (some (matchOf h e s.now)))
            (setFilling p (newFilling e.trigger h (bytesPerLine e.format h.width h.depth))
              (modEntry p e.trigger (fun x => { x with phase := .filling, opened := some (matchOf h e s.now) })
                (olds.foldl (fun t x => closeEntry p x.trigger .missed 0 t) s)))))) := by
  unfold matchFrame
  dsimp only
  rw [hentries, olderThan_eq holds nodup, if_neg (Nat.not_lt.mpr hfits)]

theorem matchFrame_bad (hbad : e.stride < bytesPerLine e.format h.width h.depth) (hentries : (s.port p).frame.entries = olds ++ e :: more)
    (holds : ∀ x ∈ olds, x.phase = .exposed) (nodup : ((olds ++ e :: more).map (·.trigger)).Nodup) : matchFrame p h e s =
      modFrame p (fun r => { r with recv := .discarding }) (closeEntry p e.trigger .badGeometry 0
        (modEntry p e.trigger (fun x => { x with opened := some (matchOf h e s.now) })
          (olds.foldl (fun t x => closeEntry p x.trigger .missed 0 t) s))) := by
  unfold matchFrame
  dsimp only
  rw [hentries, olderThan_eq holds nodup, if_pos hbad]

/-- The entry is FILLING, and its match is written into its record (R111). -/
theorem Shows.bound {k : U32} (hs : Shows s v (framed p r k (e :: more) c u) w) (nodup : ((e :: more).map (·.trigger)).Nodup) (m : Match)
    (f : Filling) :
    Shows s (writeRecordState e.image .filling (Machine.dmaWrite (e.image + 0x78) (u64 m.time)
        (Machine.dmaWrite (e.image + 0x52) (matchTailBytes (some m)) (Machine.dmaWrite (e.image + 0x4C) (matchHeadBytes (some m))
          (Machine.setFilling p f (modEntry p e.trigger (fun x => { x with phase := .filling, opened := some m }) v))))))
      (framed p (.filling f) k ({ e with phase := .filling, opened := some m } :: more) c u)
      (.write (e.image + 4) (leBytes 4 4) :: .write (e.image + 0x78) (u64 m.time) :: .write (e.image + 0x52) (matchTailBytes (some m)) ::
        .write (e.image + 0x4C) (matchHeadBytes (some m)) :: w) := by
  have entry := hs.reframe (r' := r) (k' := k) (es' := { e with phase := .filling, opened := some m } :: more)
    (f := fun q => { q with entries := q.entries.map fun x =>
      if x.trigger = e.trigger then { x with phase := .filling, opened := some m } else x })
    (congrArg (fun l => reframed r k l (u.port p).frame) (map_first (fun x => { x with phase := .filling, opened := some m }) nodup))
  have filling := entry.reframe (r' := .filling f) (k' := k) (es' := { e with phase := .filling, opened := some m } :: more)
    (f := fun q => { q with recv := .filling f }) rfl
  exact (((filling.dmaWrite _ _).dmaWrite _ _).dmaWrite _ _).dmaWrite _ _

/-- The frame does not fit its buffer: the entry closes and the frame is discarded (R111). -/
theorem Shows.badGeometry {k : U32} (hs : Shows s v (framed p r k (e :: more) c u) w) (hr : ∀ f, r ≠ .filling f)
    (hx : (u.port p).ctl.exposes = []) (hm : (u.port p).ctl.lensMsgs = []) (hset : e.set = none) (hphase : e.phase = .exposed)
    (nodup : ((e :: more).map (·.trigger)).Nodup) (m : Match) {body : Entry → List Byte}
    (hbody : body e = closeBytes (u.port p).frame { e with opened := some m } none 0 u.trig.clock) :
    let x := closesOf s p c [(e, 57, false, body e)]
    Shows s (Machine.modFrame p (fun r => { r with recv := .discarding }) (Machine.closeEntry p e.trigger .badGeometry 0
        (modEntry p e.trigger (fun x => { x with opened := some m }) v)))
      (framed p .discarding k more x.1 u) (x.2 ++ w) := by
  let e' : Entry := { e with opened := some m }
  have entry : Shows s (modEntry p e.trigger (fun x => { x with opened := some m }) v) (framed p r k (e' :: more) c u) w :=
    hs.reframe (congrArg (fun l => reframed r k l (u.port p).frame) (map_first (fun x => { x with opened := some m }) nodup))
  have closed := entry.closeEntry hx hm (e := e') (n := e.trigger) findEntry_first hset (.inr hphase) .badGeometry 0
  have tail : (e' :: more).filter (fun x => decide (x.trigger ≠ e.trigger)) = more := filter_first (e := e') nodup
  rw [tail, receivedOf_none hr, ← hbody] at closed
  simp only [closesOf, List.nil_append, List.append_assoc, List.singleton_append]
  exact closed.reframe rfl

/-- A stray frame is counted and discarded (R112). -/
theorem Shows.stray (hs : Shows s v (framed p r 0 es c u) w) :
    Shows s (Machine.modFrame p (fun r => { r with strayFrames := r.strayFrames + 1, recv := .discarding }) v)
      (framed p .discarding 1 es c u) w := by
  refine hs.reframe ?_
  unfold reframed
  dsimp only
  rw [show (u.port p).frame.strayFrames + 0 = (u.port p).frame.strayFrames from BitVec.add_zero _]

theorem takeFrameOpen_matched {k : U32} (hs : Shows s (closeLost p v) (framed p r k (olds ++ e :: more) c u) w)
    (holds : ∀ x ∈ olds, x.phase = .exposed ∧ x.trigger.setWidth 16 ≠ h.tag) (hphase : e.phase = .exposed)
    (htag : e.trigger.setWidth 16 = h.tag) : takeFrameOpen p h v = matchFrame p h e (closeLost p v) := by
  refine takeFrameOpen_found ?_
  have others : olds.find? (openFinds h) = none :=
    List.find?_eq_none.mpr fun x hx => by rw [openFinds_false fun _ => (holds x hx).2]; exact nofun
  rw [hs.framed_frame, List.find?_append, others, Option.none_or, List.find?_cons_of_pos (openFinds_true hphase htag)]

section matched
variable {k : U32} (hs : Shows s v (framed p r k (olds ++ e :: more) c u) w) (hr : ∀ f, r ≠ .filling f)
  (hx : (u.port p).ctl.exposes = []) (hm : (u.port p).ctl.lensMsgs = []) (holds : ∀ x ∈ olds, x.set = none ∧ x.phase = .exposed)
  (nodup : ((olds ++ e :: more).map (·.trigger)).Nodup) {body : Entry → List Byte}
  (hbody : ∀ x ∈ olds, body x = closeBytes (u.port p).frame x none 0 u.trig.clock)
include hs hr hx hm holds nodup hbody

/-- A matched frame that fits its buffer: older exposures are missed and the entry is FILLING (R111). -/
theorem Shows.matchFits (hfits : bytesPerLine e.format h.width h.depth ≤ e.stride) :
    let x := closesOf s p c (olds.map fun e => (e, 52, false, body e))
    let m := matchOf h e u.trig.clock
    Shows s (matchFrame p h e v)
      (framed p (.filling (newFilling e.trigger h m.bytesPerLine)) k ({ e with phase := .filling, opened := some m } :: more) x.1 u)
      (.write (e.image + 4) (leBytes 4 4) :: .write (e.image + 0x78) (u64 m.time) :: .write (e.image + 0x52) (matchTailBytes (some m)) ::
        .write (e.image + 0x4C) (matchHeadBytes (some m)) :: (x.2 ++ w)) := by
  intro x m
  have entries : (v.port p).frame.entries = olds ++ e :: more := congrArg FrameRx.entries hs.framed_frame
  have now : v.now = u.trig.clock := congrArg TriggerCell.clock hs.device.trig
  have younger : ((e :: more).map (·.trigger)).Nodup := by
    rw [List.map_append] at nodup
    exact nodup.of_append_right
  have missed := hs.missed hr hx hm holds nodup hbody
  rw [matchFrame_fits hfits entries (fun x hx => (holds x hx).2) nodup, now]
  exact missed.bound younger m _

/-- A matched frame that does not fit its buffer (R111). -/
theorem Shows.matchBad (hbad : e.stride < bytesPerLine e.format h.width h.depth) (hset : e.set = none) (hphase : e.phase = .exposed)
    (hbodyE : body e = closeBytes (u.port p).frame { e with opened := some (matchOf h e u.trig.clock) } none 0 u.trig.clock) :
    let x := closesOf s p c ((olds.map fun e => (e, 52, false, body e)) ++ [(e, 57, false, body e)])
    Shows s (matchFrame p h e v) (framed p .discarding k more x.1 u) (x.2 ++ w) := by
  intro x
  have entries : (v.port p).frame.entries = olds ++ e :: more := congrArg FrameRx.entries hs.framed_frame
  have now : v.now = u.trig.clock := congrArg TriggerCell.clock hs.device.trig
  have younger : ((e :: more).map (·.trigger)).Nodup := by
    rw [List.map_append] at nodup
    exact nodup.of_append_right
  have missed := hs.missed hr hx hm holds nodup hbody
  have closed := missed.badGeometry hr hx hm hset hphase younger (matchOf h e u.trig.clock) hbodyE
  rw [matchFrame_bad hbad entries (fun x hx => (holds x hx).2) nodup, now]
  simp only [x, closesOf_append, List.append_assoc]
  exact closed

end matched

/-! ## What the closes at a FRAME-OPEN write -/

/-- The close fields of the records that a FRAME-OPEN closes: those of the frame being filled, where it is its own, and those of the match,
where the frame does not fit (R110, R111, R123). -/
def openBody (q : FrameRx) (now : U64) (pre : Option (Filling × Entry)) (bad : Option (U32 × Match)) (e : Entry) : List Byte :=
  closeBytes q (if bad.map (·.1) = some e.trigger then { e with opened := bad.map (·.2) } else e)
    ((pre.map fun x => (lostFrame q x.2 x.1).1).filter fun g => decide (g.trigger = e.trigger)) 0 now

theorem lostFrame_trigger (q : FrameRx) (e : Entry) (f : Filling) : (lostFrame q e f).1.trigger = f.trigger :=
  (erasedLines_keeps q e (f.header.height - f.next) f).1

section body
variable {q : FrameRx} {now : U64} {pre : Option (Filling × Entry)} {bad : Option (U32 × Match)}

theorem openBody_length (hpre : ∀ x ∈ pre, x.1.ranges.length ≤ 16) (e : Entry) : (openBody q now pre bad e).length = 0x84 := by
  refine closeBytes_length (fun g hg => ?_) ..
  obtain ⟨hmap, -⟩ := Option.mem_filter_iff.mp hg
  obtain ⟨x, hx, rfl⟩ := Option.map_eq_some_iff.mp hmap
  exact erasedLines_ranges _ _ _ (hpre x hx)

theorem lost_own {x : Filling × Entry} (hx : x ∈ pre) (htrigger : x.2.trigger = x.1.trigger) :
    (pre.map fun x => (lostFrame q x.2 x.1).1).filter (fun g => decide (g.trigger = x.2.trigger)) = some (lostFrame q x.2 x.1).1 := by
  rw [Option.mem_def] at hx
  rw [hx, Option.map_some, Option.filter_some, lostFrame_trigger, htrigger]
  simp

theorem lost_other (hpre : ∀ x ∈ pre, x.1.trigger ≠ e.trigger) :
    (pre.map fun x => (lostFrame q x.2 x.1).1).filter (fun g => decide (g.trigger = e.trigger)) = none := by
  cases pre with
  | none => rfl
  | some x =>
    rw [Option.map_some, Option.filter_some, lostFrame_trigger]
    simp [hpre x rfl]

theorem openBody_lost {x : Filling × Entry} (hx : x ∈ pre) (htrigger : x.2.trigger = x.1.trigger)
    (hbad : ∀ b ∈ bad, b.1 ≠ x.2.trigger) :
    openBody q now pre bad x.2 = closeBytes q x.2 (some (lostFrame q x.2 x.1).1) 0 now := by
  unfold openBody
  rw [lost_own hx htrigger, if_neg fun e => ?_]
  obtain ⟨b, hb, same⟩ := Option.map_eq_some_iff.mp e
  exact hbad b hb same

theorem openBody_missed (hpre : ∀ x ∈ pre, x.1.trigger ≠ e.trigger) (hbad : ∀ b ∈ bad, b.1 ≠ e.trigger) :
    openBody q now pre bad e = closeBytes q e none 0 now := by
  unfold openBody
  rw [lost_other hpre, if_neg fun e => ?_]
  obtain ⟨b, hb, same⟩ := Option.map_eq_some_iff.mp e
  exact hbad b hb same

theorem openBody_bad (hpre : ∀ x ∈ pre, x.1.trigger ≠ e.trigger) (m : Match) :
    openBody q now pre (some (e.trigger, m)) e = closeBytes q { e with opened := some m } none 0 now := by
  unfold openBody
  rw [lost_other hpre]
  simp

/-- The counts and flags of the frame that is lost stand among the close fields of its record (R118, R123). -/
theorem openBody_counts {x : Filling × Entry} (hx : x ∈ pre) (htrigger : x.2.trigger = x.1.trigger) :
    let g := (lostFrame q x.2 x.1).1
    ((openBody q now pre bad x.2).drop 0x10).take 8 = leBytes 2 0 ++ leBytes 2 g.written ++ leBytes 2 g.erased ++ leBytes 2 g.cut ∧
      ((openBody q now pre bad x.2).drop 0x18).take 3 = flag g.truncated ++ u8 g.ranges.length ++ flag g.overflow := by
  unfold openBody
  rw [lost_own hx htrigger]
  exact (closeBytes_fields ..).2.2

end body

/-- The frame being filled, if there is one, is lost (R110). -/
theorem shows_lost {pre : Option (Filling × Entry)} (hs : Shows s u u []) (hnone : pre = none → ∀ f, (u.port p).frame.recv ≠ .filling f)
    (hsome : ∀ x ∈ pre, (u.port p).frame.recv = .filling x.1 ∧ x.2.trigger = x.1.trigger ∧ x.2.phase = .filling ∧ x.2.set = none)
    (hentries : (u.port p).frame.entries = (pre.map (·.2)).toList ++ es) (hx : (u.port p).ctl.exposes = [])
    (hm : (u.port p).ctl.lensMsgs = []) (nodup : ((u.port p).frame.entries.map (·.trigger)).Nodup) :
    ∃ r, (∀ f, r ≠ .filling f) ∧ ∀ body : Entry → List Byte,
      (∀ x ∈ pre, body x.2 = closeBytes (u.port p).frame x.2 (some (lostFrame (u.port p).frame x.2 x.1).1) 0 u.trig.clock) →
      let x := closesOf s p u.chain ((pre.map (·.2)).toList.map fun e => (e, 51, true, body e))
      Shows s (closeLost p u) (framed p r 0 es x.1 u)
        (x.2 ++ (pre.map fun x => (lostFrame (u.port p).frame x.2 x.1).2).getD []) := by
  cases pre with
  | none =>
    have shown := shows_framed (p := p) hs
    rw [hentries] at shown
    refine ⟨_, hnone rfl, fun body _ => ?_⟩
    rw [closeLost_none (hnone rfl)]
    exact shown
  | some x =>
    obtain ⟨hrecv, htrigger, hphase, hset⟩ := hsome x rfl
    refine ⟨.idle, nofun, fun body hbody => ?_⟩
    have lost := hs.closeLost hrecv hentries htrigger hset hphase hx hm (by rw [hentries] at nodup; exact nodup) (hbody x rfl)
    rwa [List.append_nil] at lost

/-- A FRAME-OPEN that ends in LOCKED reaches the Frame Writer (R33, R39). -/
theorem endBurst_frameOpen (hv : headerValid h = true) (hl : (s.port p).link.state = .locked)
    (hb : (s.port p).link.burst = some (.exact 24)) (hh : (s.port p).link.history.length ≤ 8) :
    endBurst p (encodeBurst (.frameOpen h)) s = takeFrameOpen p h (modLink p (heard .frameOpen true) s) := by
  have bytes : (encodeBurst (.frameOpen h)).length = 24 := by
    simp only [encodeBurst, burstParts, List.length_append, u8_length, zeros_length, leBytes_length, u16_length, u32_length,
      List.length_nil]
  have sound : parseBurst (encodeBurst (.frameOpen h)) = .frameOpen h := parseBurst_encodeBurst (b := .frameOpen h) hv
  rw [endBurst_locked hl (by rw [bytes]; exact hb) hh, sound]
  rfl

/-- Settles O46. -/
theorem frameOpen : Obligations.FrameOpen := by
  intro p h pre olds rest s _ hv hl hb hh hx hm hpre first hentries nodup hset holds s1 i gap lost missed whole ends
  have exec_i : exec i s = .next (flushMirrors (takeFrameOpen p h s1)) := congrArg endCommand (endBurst_frameOpen hv hl hb hh)
  have frame : (s1.port p).frame = (s.port p).frame := modLink_port_frame ..
  have ctl : (s1.port p).ctl = (s.port p).ctl := modLink_port_ctl ..
  have found : ∀ x ∈ pre, (s.port p).frame.recv = .filling x.1 ∧ x.2.trigger = x.1.trigger ∧ x.2.phase = .filling ∧
      x.1.ranges.length ≤ 16 := by
    cases pre with
    | none => exact fun x hx => absurd hx (Option.not_mem_none x)
    | some x => exact fun y hy => Option.mem_some_iff.mp hy ▸ hpre
  have fresh : pre = none → ∀ f, (s.port p).frame.recv ≠ .filling f := by
    rintro rfl
    exact hpre
  have hgap : gap = (pre.map fun x => (lostFrame (s.port p).frame x.2 x.1).2).getD [] := by
    cases pre <;> rfl
  have mem_first : ∀ x ∈ pre, x.2 ∈ first := fun x hx => Option.mem_toList.mpr (Option.mem_map_of_mem _ hx)
  rw [hentries, List.append_assoc] at nodup
  obtain ⟨r, hr, lose⟩ := shows_lost (es := olds ++ rest) (pre := pre) (shows_heard (p := p) .frameOpen true s)
    (by rw [frame]; exact fresh)
    (fun x hx => by
      obtain ⟨hrecv, htrigger, hphase, -⟩ := found x hx
      exact ⟨frame ▸ hrecv, htrigger, hphase, hset x.2 (List.mem_append_left _ (mem_first x hx))⟩)
    (by rw [frame, hentries, List.append_assoc]) (ctl ▸ hx) (ctl ▸ hm) (by rw [frame, hentries, List.append_assoc]; exact nodup)
  rw [frame, ← hgap] at lose
  rw [List.map_append, List.nodup_append] at nodup
  obtain ⟨-, nodup, disjoint⟩ := nodup
  have apart : ∀ x ∈ pre, ∀ e ∈ olds ++ rest, x.1.trigger ≠ e.trigger := by
    intro x hx e he
    rw [← (found x hx).2.1]
    exact disjoint _ (List.mem_map_of_mem (mem_first x hx)) _ (List.mem_map_of_mem he)
  have wholeBody (bad : Option (U32 × Match)) : whole (openBody (s.port p).frame s.trig.clock pre bad) :=
    ⟨openBody_length fun x hx => (found x hx).2.2.2, fun x hx => openBody_counts hx (found x hx).2.1⟩
  have lostShows (bad : Option (U32 × Match)) (hbad : ∀ b ∈ bad, ∃ e ∈ olds ++ rest, b.1 = e.trigger) :=
    lose (openBody (s.port p).frame s.trig.clock pre bad) fun x hx => openBody_lost hx (found x hx).2.1 fun b hb => by
      obtain ⟨e, he, same⟩ := hbad b hb
      rw [same, (found x hx).2.1]
      exact (apart x hx e he).symm
  refine ⟨fun hnil hrest => ?_, fun e more hrest hphase htag => ?_⟩
  · have shown := lostShows none nofun
    have unfound : ((closeLost p s1).port p).frame.entries.find? (openFinds h) = none := by
      rw [shown.framed_frame, hnil]
      exact List.find?_eq_none.mpr fun e he => by rw [openFinds_false (hrest e he)]; exact nofun
    have stray := shown.stray
    rw [← takeFrameOpen_stray unfound, hnil] at stray
    exact ⟨_, _, wholeBody none, exec_i, stray.ends⟩
  · intro bpl m f
    have hbpl : bpl = bytesPerLine e.format h.width h.depth := by
      simp only [bpl]
      cases e.format <;> rfl
    clear_value bpl
    subst hbpl
    rw [hrest] at lostShows nodup apart
    have single : ∀ x ∈ olds, x.set = none ∧ x.phase = .exposed := fun x hx =>
      ⟨hset x (List.mem_append_right _ hx), (holds x hx).1⟩
    have oldest : ∀ x ∈ olds, e.trigger ≠ x.trigger := by
      rw [List.map_append, List.nodup_append] at nodup
      exact fun x hx same => nodup.2.2 _ (List.mem_map_of_mem hx) _ (List.mem_map_of_mem (List.mem_cons_self ..)) same.symm
    have missedBody (bad : Option (U32 × Match)) (hbad : ∀ b ∈ bad, b.1 = e.trigger) : ∀ x ∈ olds,
        openBody (s.port p).frame s.trig.clock pre bad x = closeBytes (s1.port p).frame x none 0 s1.trig.clock := fun x hx => by
      rw [frame]
      exact openBody_missed (fun y hy => apart y hy x (List.mem_append_left _ hx)) fun b hb => hbad b hb ▸ oldest x hx
    refine ⟨fun hfits => ?_, fun hbad hsetE => ?_⟩
    · have shown := lostShows none nofun
      have fits := shown.matchFits hr (ctl ▸ hx) (ctl ▸ hm) single nodup (missedBody none nofun) hfits
      rw [← takeFrameOpen_matched shown holds hphase htag] at fits
      refine ⟨_, openBody (s.port p).frame s.trig.clock pre none, wholeBody none, exec_i, ?_⟩
      rw [closesOf_append]
      dsimp only at fits
      rw [← List.append_assoc] at fits
      exact fits.ends
    · have own : ∀ b ∈ some (e.trigger, m), b.1 = e.trigger := fun b hb => Option.mem_some_iff.mp hb ▸ rfl
      have bodyE := openBody_bad (q := (s.port p).frame) (now := s.trig.clock)
        (fun y hy => apart y hy e (List.mem_append_right _ (List.mem_cons_self ..))) m
      have shown := lostShows (some (e.trigger, m)) fun b hb =>
        ⟨e, List.mem_append_right _ (List.mem_cons_self ..), own b hb⟩
      have bad := shown.matchBad hr (ctl ▸ hx) (ctl ▸ hm) single nodup (missedBody (some (e.trigger, m)) own) hbad hsetE hphase
        (by rw [frame]; exact bodyE)
      rw [← takeFrameOpen_matched shown holds hphase htag] at bad
      obtain ⟨hhead, htail, -⟩ := closeBytes_fields (s.port p).frame { e with opened := some m } none 0 s.trig.clock
      rw [← bodyE] at hhead htail
      refine ⟨_, openBody (s.port p).frame s.trig.clock pre (some (e.trigger, m)), wholeBody _, exec_i, hhead, htail, ?_⟩
      rw [List.append_assoc, closesOf_append]
      dsimp only at bad
      rw [← List.append_assoc] at bad
      exact bad.ends

end Sys2Proof.Machine
end

section
/-! PROOFS. One port and the cable log written out, and what the operations of the control channel make of them: symbols, the choice of
the next message, transactions begun and ended, completions and alerts (R44 to R50, R185, R190). -/

namespace Sys2Proof.Machine

variable {s v u b : State} {w : List BusEvent} {p : PortId} {x : Port} {y : List CableEvent}

/-! ## A port and the cable log, written out -/

/-- A card with what one port holds and what the cables have carried written out. -/
def atPort (p : PortId) (x : Port) (y : List CableEvent) (b : State) : State := { modPort p (fun _ => x) b with cable := y }

theorem atPort_portView (q : PortId) : portView ((atPort p x y b).port q) = if q = p then portView x else portView (b.port q) :=
  modPort_portView (fun _ => x) b q

theorem atPort_self : portView ((atPort p x y b).port p) = portView x := by rw [atPort_portView, if_pos rfl]

theorem Shows.onePort (h : Shows s v u w) (p : PortId) : Shows s v (atPort p (u.port p) u.cable u) w := h.writtenOut p

/-- Symbols withdrawn from the cable log (log 21). -/
theorem shows_withdrawn (p : PortId) (s : State) (y : List CableEvent) : Shows s { s with cable := y } (atPort p (s.port p) y s) [] :=
  ⟨(sameDevice_modPort (s := { s with cable := y }) (f := fun _ => s.port p) rfl).symm, rfl, rfl, rfl, rfl⟩

theorem sameDevice_change {f : Port → Port} (hview : ∀ a b, portView a = portView b → portView (f a) = portView (f b)) :
    SameDevice (modPort p f (atPort p x y b)) (atPort p (f x) y b) := by
  refine ⟨rfl, rfl, rfl, rfl, rfl, rfl, rfl, fun q => ?_⟩
  rw [modPort_portView, atPort_portView, atPort_portView]
  split
  · exact hview _ _ atPort_self
  · rfl

/-- A port that is written out hides what the card below holds for it. -/
theorem sameDevice_atPort_modPort (f : Port → Port) : SameDevice (atPort p x y b) (atPort p x y (modPort p f b)) := by
  refine ⟨rfl, rfl, rfl, rfl, rfl, rfl, rfl, fun q => ?_⟩
  rw [atPort_portView, atPort_portView, modPort_portView]
  split <;> rfl

section
variable (h : Shows s v (atPort p x y b) w)
include h

theorem Shows.port_atPort : portView (v.port p) = portView x := (h.device.ports p).trans atPort_self
theorem Shows.ctl_atPort : (v.port p).ctl = x.ctl := (congrArg Port.ctl h.port_atPort :)
theorem Shows.lens_atPort : (v.port p).lens = x.lens := (congrArg Port.lens h.port_atPort :)
theorem Shows.frame_atPort : (v.port p).frame = x.frame := (congrArg Port.frame h.port_atPort :)
theorem Shows.now_atPort : v.now = b.trig.clock := congrArg TriggerCell.clock h.device.trig

/-- A change of the port. -/
theorem Shows.atChange {f : Port → Port} (hview : ∀ a b, portView a = portView b → portView (f a) = portView (f b)) :
    Shows s (modPort p f v) (atPort p (f x) y b) w :=
  h.still ((h.device.modPort (g := f) (hview _ _ (h.device.ports p))).trans (sameDevice_change hview)) rfl rfl rfl

theorem Shows.atCtl (f : Channel → Channel) :
    Shows s (Machine.modCtl p f v) (atPort p { x with ctl := f x.ctl } y b) w :=
  h.atChange fun _ _ e => portView_ctl e (congrArg f (congrArg Port.ctl e :))

theorem Shows.atLens (f : LensState → LensState) :
    Shows s (Machine.modLens p f v) (atPort p { x with lens := f x.lens } y b) w :=
  h.atChange fun _ _ e => portView_lens e (congrArg f (congrArg Port.lens e :))

theorem Shows.atFrame (f : FrameRx → FrameRx) :
    Shows s (Machine.modFrame p f v) (atPort p { x with frame := f x.frame } y b) w :=
  h.atChange fun _ _ e => portView_frame e (congrArg f (congrArg Port.frame e :))

theorem Shows.atSymbol (z : Symbol) : Shows s (Machine.sendSymbol p z v) (atPort p x (⟨p, z⟩ :: y) b) w := h.sendSymbol p z

theorem Shows.atCommand {a : Addr} {r : List Byte} (c : Code) (hk : Machine.recordKind a v ≠ 3) (hr : r.length ≤ 0xA0) :
    Shows s (Machine.completeCommand a c r v) (atPort p x y { b with chain := afterCompletion a b.chain })
      (completionWrites s b.chain a c r ++ w) := h.completeCommand c hk hr

theorem Shows.atRecord (ch : ChainId) (a : Addr) (ok : Bool) :
    Shows s (Machine.completeRecord ch a ok v)
      (atPort p x y { b with chain := afterCompletionOf (chainIndex ch) (chainGroup ch) a b.chain })
      (completionTail s b.chain (chainIndex ch) (chainGroup ch) a ok ++ w) := h.completeRecord ch a ok

end

/-- The port may be given another spelling. -/
theorem Shows.port_eq (h : Shows s v (atPort p x y b) w) {x' : Port} (e : x = x') : Shows s v (atPort p x' y b) w := e ▸ h

/-- The channel of the port on its own: after a change it may be given another spelling. -/
theorem Shows.ctl_eq {c : Channel} (h : Shows s v (atPort p { x with ctl := c } y b) w) {d : Channel} (e : c = d) :
    Shows s v (atPort p { x with ctl := d } y b) w := e ▸ h

/-! ## Alerts -/

theorem withAlert_portView (bit : Nat) (b : State) :
    portView ((withAlert p bit b).port p) = portView { b.port p with alerts := ((withAlert p bit b).port p).alerts } :=
  portView_alerts (withAlert_same bit b p) rfl

/-- An alert of a port that is written out with its alerts as they were. -/
theorem sameDevice_withAlert_atPort (bit : Nat) (hx : x.alerts = (b.port p).alerts) : SameDevice (withAlert p bit (atPort p x y b))
    (atPort p { x with alerts := ((withAlert p bit b).port p).alerts } y (withAlert p bit b)) := by
  have same : ((atPort p x y b).port p).alerts = (b.port p).alerts := (congrArg Port.alerts (atPort_self (x := x)) :).trans hx
  cases hset : (b.port p).alerts.getLsbD bit
  · let caused : State := { b with chain := { b.chain with cause := b.chain.cause ||| 4 } }
    have flagged : SameDevice (withAlert p bit (atPort p x y b)) (atPort p (flaggedPort bit x) y caused) := by
      rw [withAlert_new (same ▸ hset)]
      exact sameDevice_change (x := x) (y := y) (b := caused) (f := flaggedPort bit) fun _ _ e => (congrArg (flaggedPort bit) e :)
    refine flagged.trans ?_
    rw [withAlert_new hset, modPort_port, if_pos rfl, show flaggedPort bit x = { x with alerts := (b.port p).alerts ||| BitVec.twoPow 11 bit }
      from by rw [← hx]]
    exact sameDevice_atPort_modPort (flaggedPort bit)
  · rw [withAlert_set hset, withAlert_set (same ▸ hset), ← hx]
    exact .refl _

theorem Shows.atAlert (h : Shows s v (atPort p x y b) w) (bit : Nat) (hx : x.alerts = (b.port p).alerts) :
    Shows s (Machine.setPortAlert p bit v)
      (atPort p { x with alerts := ((withAlert p bit b).port p).alerts } y (withAlert p bit b)) (alertMessage p bit b ++ w) := by
  have g := (h.setPortAlert p bit).to (sameDevice_withAlert_atPort bit hx)
  rwa [alertMessage_congr (u := b) ((congrArg Port.alerts (atPort_self (x := x)) :).trans hx) rfl] at g

/-- The alert may be told as the last of the changes. -/
theorem Shows.alertLast {bit : Nat} (h : Shows s v (atPort p { x with alerts := ((withAlert p bit b).port p).alerts } y (withAlert p bit b)) w)
    (hx : x.alerts = (b.port p).alerts) (hu : SameDevice (atPort p x y b) u) : Shows s v (withAlert p bit u) w :=
  (h.to (sameDevice_withAlert_atPort bit hx).symm).to (hu.withAlert p bit)

/-- The alert may be told as the first of the changes. -/
theorem Shows.alertFirst {bit : Nat} {F : Port → Port}
    (h : Shows s v (atPort p (F { x with alerts := ((withAlert p bit b).port p).alerts }) y (withAlert p bit b)) w)
    (hx : portView x = portView (b.port p)) (hview : ∀ x y, portView x = portView y → portView (F x) = portView (F y)) :
    Shows s v { modPort p F (withAlert p bit b) with cable := y } w := by
  refine h.to ⟨rfl, rfl, rfl, rfl, rfl, rfl, rfl, fun q => ?_⟩
  refine (atPort_portView q).trans (Eq.trans ?_ (modPort_portView F _ q).symm)
  rw [hview _ _ ((portView_alerts hx rfl).trans (withAlert_portView bit b).symm)]

/-! ## The choice of the next message -/

theorem arbitrate_busy (h : (s.port p).ctl.state ≠ .idle) : arbitrate p s = s := if_neg h

theorem arbitrate_none (hx : (s.port p).ctl.exposes = []) (hm : (s.port p).ctl.lensMsgs = []) (hh : (s.port p).ctl.heads = []) :
    arbitrate p s = s := by
  unfold arbitrate
  dsimp only
  rw [hx, hm, hh, ite_self]

theorem arbitrate_expose {n : U32} {rest : List U32} (hi : (s.port p).ctl.state = .idle) (hx : (s.port p).ctl.exposes = n :: rest) :
    arbitrate p s = beginTxn p (.expose n) (modCtl p (fun c => { c with exposes := rest }) s) := by
  unfold arbitrate
  dsimp only
  rw [if_pos hi, hx]

theorem arbitrate_lens {m : LensMessage} {rest : List LensMessage} (hi : (s.port p).ctl.state = .idle)
    (hx : (s.port p).ctl.exposes = []) (hm : (s.port p).ctl.lensMsgs = m :: rest) :
    arbitrate p s = beginTxn p (.lens m) (modCtl p (fun c => { c with lensMsgs := rest }) s) := by
  unfold arbitrate
  dsimp only
  rw [if_pos hi, hx, hm]

/-- The channel with a message begun; the hold limit is as it was. -/
abbrev begins (m : Message) (c : Channel) : Channel := { begun m c with holdTimer := c.holdTimer }

section
variable (h : Shows s v (atPort p x y b) w)
include h

/-- A transaction begins (R44, R50). -/
theorem Shows.txnBegins {m : Message} {a : UnitPart} (hm : (messageParts m).head? = some a) : Shows s (beginTxn p m v)
    (atPort p { x with ctl := begins m x.ctl } (⟨p, .header a.unit a.write a.address⟩ :: ⟨p, .startMark⟩ :: y) b) w := by
  unfold beginTxn
  dsimp only
  rw [hm]
  exact ((h.atCtl _).atSymbol .startMark).atSymbol (.header a.unit a.write a.address)

theorem Shows.chooses_busy (hi : x.ctl.state ≠ .idle) : Shows s (arbitrate p v) (atPort p x y b) w := by
  rwa [arbitrate_busy (by rwa [h.ctl_atPort])]

theorem Shows.chooses_none (hx : x.ctl.exposes = []) (hm : x.ctl.lensMsgs = []) (hh : x.ctl.heads = []) :
    Shows s (arbitrate p v) (atPort p x y b) w := by
  rwa [arbitrate_none] <;> rwa [h.ctl_atPort]

theorem Shows.chooses_expose {n : U32} {rest : List U32} (hi : x.ctl.state = .idle) (hx : x.ctl.exposes = n :: rest) :
    Shows s (arbitrate p v) (atPort p { x with ctl := begins (.expose n) { x.ctl with exposes := rest } }
      (⟨p, .header 0 true 16⟩ :: ⟨p, .startMark⟩ :: y) b) w := by
  rw [arbitrate_expose (by rwa [h.ctl_atPort]) (by rwa [h.ctl_atPort])]
  exact (h.atCtl _).txnBegins (m := .expose n) rfl

theorem Shows.chooses_lens {m : LensMessage} {rest : List LensMessage} {n : UnitId × Nat} {more : List (UnitId × Nat)}
    (hi : x.ctl.state = .idle) (hx : x.ctl.exposes = []) (hm : x.ctl.lensMsgs = m :: rest) (hn : m.parts = n :: more) :
    Shows s (arbitrate p v) (atPort p { x with ctl := begins (.lens m) { x.ctl with lensMsgs := rest } }
      (⟨p, .header (n.1.val + 1) true 0⟩ :: ⟨p, .startMark⟩ :: y) b) w := by
  rw [arbitrate_lens (by rwa [h.ctl_atPort]) (by rwa [h.ctl_atPort]) (by rwa [h.ctl_atPort])]
  refine (h.atCtl _).txnBegins (a := ⟨n.1.val + 1, true, 0, [BitVec.ofNat 16 n.2], 1⟩) ?_
  unfold messageParts
  dsimp only
  rw [hn]
  rfl

theorem Shows.chooses_head {m : HeadMessage} {rest : List HeadMessage} {a : UnitPart} (hi : x.ctl.state = .idle)
    (hx : x.ctl.exposes = []) (hm : x.ctl.lensMsgs = []) (hh : x.ctl.heads = m :: rest)
    (ha : (messageParts (headMessage m)).head? = some a) :
    Shows s (arbitrate p v) (atPort p { x with ctl := begins (headMessage m) { x.ctl with heads := rest } }
      (⟨p, .header a.unit a.write a.address⟩ :: ⟨p, .startMark⟩ :: y) b) w := by
  rw [arbitrate_head (by rwa [h.ctl_atPort]) (by rwa [h.ctl_atPort]) (by rwa [h.ctl_atPort]) (by rwa [h.ctl_atPort])]
  exact (h.atCtl _).txnBegins ha

end

end Sys2Proof.Machine
end

section
/-! PROOFS. HEAD_ACCESS: its command (R58), the answers to its transaction and its timeouts (R44 to R47, R59); the identity that a PING
brings (R55, R56); and head notes (R51 to R54, R101). -/

namespace Sys2Proof.Machine

variable {s v u b : State} {w : List BusEvent} {p : PortId} {x : Port} {y : List CableEvent} {t : Txn} {a : UnitPart}

/-! ## The answers, by the stage of the transaction -/

section answers
variable (hstate : (s.port p).ctl.state = .sending) (htxn : (s.port p).ctl.txn = some t)
include hstate htxn

theorem sending_some : sending (s.port p).ctl = some t := by
  unfold sending
  rw [if_pos hstate, htxn]

theorem answered_header (hst : t.stage = .header) : answered p true s = headerAcked p t s := by
  unfold answered
  rw [sending_some hstate htxn]
  dsimp only
  rw [hst]
  rfl

theorem answered_word {i : Nat} (hst : t.stage = .word i) : answered p true s = wordAcked p t i s := by
  unfold answered
  rw [sending_some hstate htxn]
  dsimp only
  rw [hst]
  rfl

/-- A NACK ends the transaction: of a header, of a word, and in place of the first word of a READ (R45). -/
theorem answered_nack (hst : (t.stage = .header ∨ ∃ i, t.stage = .word i) ∨ t.stage = .data ∧ t.data = []) :
    answered p false s = finishTxn p .nack s := by
  unfold answered
  rw [sending_some hstate htxn]
  dsimp only
  rcases hst with (hst | ⟨i, hst⟩) | ⟨hst, hdata⟩
  · rw [hst]; rfl
  · rw [hst]; rfl
  · rw [hst, hdata]; rfl

/-- A HOLD of the final word of a part (R46). -/
theorem holdSigned_final {i : Nat} (hst : t.stage = .word i) (ha : currentPart t = some a) (hi : i + 1 = a.words.length) :
    holdSigned p s = modCtl p (fun c => { c with
      txn := some { t with stage := .hold }, replyTimer := none, holdTimer := holdLimitOf t.message }) s := by
  have final : finalWord t i = true := by
    unfold finalWord
    rw [ha]
    exact decide_eq_true hi
  unfold holdSigned
  rw [sending_some hstate htxn]
  dsimp only
  rw [hst]
  exact if_pos final

/-- A HOLD anywhere else counts as a NACK (R46, log 29). -/
theorem holdSigned_nack (ha : currentPart t = some a)
    (hst : t.stage = .header ∨ t.stage = .data ∨ ∃ i, t.stage = .word i ∧ i + 1 < a.words.length) :
    holdSigned p s = finishTxn p .nack s := by
  unfold holdSigned
  rw [sending_some hstate htxn]
  dsimp only
  rcases hst with hst | hst | ⟨i, hst, hi⟩
  · rw [hst]
  · rw [hst]
  · have more : ¬ finalWord t i = true := by
      unfold finalWord
      rw [ha]
      exact fun e => absurd (of_decide_eq_true e) (Nat.ne_of_lt hi)
    rw [hst]
    exact if_neg more

theorem holdAnswered_hold (hst : t.stage = .hold) (ack : Bool) : holdAnswered p ack s =
    if ack then partDone p { t with acked := t.acked + 1 } s else finishTxn p .nack s := by
  unfold holdAnswered
  rw [sending_some hstate htxn]
  exact if_pos hst

theorem dataWord_next {d : U16} (hst : t.stage = .data) (ha : currentPart t = some a) (hc : t.data.length + 1 < a.count) :
    dataWord p d s = awaitAnswer p { t with data := t.data ++ [d] } s := by
  unfold dataWord
  rw [sending_some hstate htxn]
  dsimp only
  rw [if_pos hst, ha]
  exact if_pos (by rw [List.length_append]; exact hc)

theorem dataWord_last {d : U16} (hst : t.stage = .data) (ha : currentPart t = some a) (hc : a.count ≤ t.data.length + 1) :
    dataWord p d s = finishTxn p .acknowledged (awaitAnswer p { t with data := t.data ++ [d] } s) := by
  unfold dataWord
  rw [sending_some hstate htxn]
  dsimp only
  rw [if_pos hst, ha]
  exact if_neg (by rw [List.length_append]; exact Nat.not_lt.mpr hc)

theorem replyExpired_running (ht : (s.port p).ctl.replyTimer.isSome = true) : replyExpired p s = finishTxn p .noReply s :=
  if_pos ⟨by rw [sending_some hstate htxn]; rfl, ht⟩

theorem holdExpired_running (ht : (s.port p).ctl.holdTimer.isSome = true) : holdExpired p s = finishTxn p .noReply s :=
  if_pos ⟨by rw [sending_some hstate htxn]; rfl, ht⟩

end answers

/-! ## What is sent after an ACK -/

theorem headerAcked_write (ha : currentPart t = some a) (hw : a.write = true) (s : State) : headerAcked p t s =
    sendSymbol p (.word (a.words.getD 0 0)) (awaitAnswer p { t with stage := .word 0 } s) := by
  unfold headerAcked
  rw [ha]
  exact if_pos hw

theorem headerAcked_read (ha : currentPart t = some a) (hw : a.write = false) (s : State) : headerAcked p t s =
    sendSymbol p (.count a.count) (awaitAnswer p { t with stage := .data } s) := by
  unfold headerAcked
  rw [ha]
  exact if_neg (by rw [hw]; decide)

theorem wordAcked_next {i : Nat} (ha : currentPart t = some a) (hi : i + 1 < a.words.length) (s : State) : wordAcked p t i s =
    sendSymbol p (.word (a.words.getD (i + 1) 0)) (awaitAnswer p { t with stage := .word (i + 1), acked := t.acked + 1 } s) := by
  unfold wordAcked
  rw [ha]
  exact if_pos hi

theorem wordAcked_last {i : Nat} (ha : currentPart t = some a) (hi : i + 1 = a.words.length) (s : State) : wordAcked p t i s =
    partDone p { t with acked := t.acked + 1 } s := by
  unfold wordAcked
  rw [ha]
  exact if_neg (by rw [hi]; exact Nat.lt_irrefl _)

theorem lensPartDone_other (hm : isLensMessage t.message = false) (s : State) : lensPartDone p t s = s := by
  unfold lensPartDone
  split
  · rename_i m e
    rw [e] at hm
    cases hm
  · rfl

/-- The final word of the last part ends the transaction (R44). -/
theorem partDone_last (hm : isLensMessage t.message = false) (hnext : (messageParts t.message)[t.part + 1]? = none) (s : State) :
    partDone p t s = finishTxn p .acknowledged (modCtl p (fun c => { c with txn := some t }) s) := by
  unfold partDone
  rw [lensPartDone_other hm, hnext]

/-! ## A transaction ends -/

/-- The mark at the end of a transaction (R45, R47). -/
abbrev markOf (r : TxnEnd) : Symbol := if r = .noReply then .abortMark else .endMark

/-- The channel is free, its transaction marked as over. -/
def freeing (p : PortId) (r : TxnEnd) (s : State) : State := sendSymbol p (markOf r) (modCtl p freed s)

theorem Shows.frees (h : Shows s v (atPort p x y b) w) (r : TxnEnd) :
    Shows s (freeing p r v) (atPort p { x with ctl := freed x.ctl } (⟨p, markOf r⟩ :: y) b) w := (h.atCtl freed).atSymbol (markOf r)

theorem finishTxn_some {r : TxnEnd} (htxn : (s.port p).ctl.txn = some t) (hm : isLensMessage t.message = false ∨ r = .acknowledged) :
    finishTxn p r s = arbitrate p (handResult p t r (freeing p r s)) := by
  unfold finishTxn
  rw [htxn]
  dsimp only
  rw [if_neg (show ¬ (isLensMessage t.message = true ∧ r ≠ .acknowledged) from fun e =>
    hm.elim (fun hm => by rw [hm] at e; cases e.1) e.2)]
  rfl

/-- The completion of a HEAD_ACCESS command by the end of its transaction: code and results (R59, R201). -/
def accessResult (h : HeadAccess) (t : Txn) : TxnEnd → Code × List Byte
  | .acknowledged => (.ok, headResults h.part.count t.data)
  | .nack => (.nack, headResults t.acked [])
  | .noReply => (.noReply, headResults t.acked [])

theorem handResult_access {h : HeadAccess} (hm : t.message = .access h) (r : TxnEnd) (s : State) :
    handResult p t r s = completeCommand h.recAt (accessResult h t r).1 (accessResult h t r).2 s := by
  unfold handResult
  rw [hm]
  cases r <;> rfl

theorem accessResult_length (h : HeadAccess) {t : Txn} {r : TxnEnd} (hd : r = .acknowledged → t.data.length ≤ 8) :
    (accessResult h t r).2.length ≤ 0xA0 := by
  have words (l : List U16) (hl : l.length ≤ 8) (n : Nat) : (headResults n l).length ≤ 0xA0 := by
    unfold headResults
    rw [List.length_append, flatten_length_of_forall (n := 2) _ (by simp), List.length_map, List.length_append, u8_length, zeros_length]
    omega
  cases r
  · exact words _ (hd rfl) _
  · exact words [] (by decide) _
  · exact words [] (by decide) _

/-- A HEAD_ACCESS transaction ends with nothing else waiting on the channel (R45, R47, R50, R59). -/
theorem Shows.accessEnds {h : HeadAccess} (hs : Shows s v (atPort p x y b) []) (htxn : x.ctl.txn = some t) (hm : t.message = .access h)
    (hx : x.ctl.exposes = []) (hl : x.ctl.lensMsgs = []) (hh : x.ctl.heads = []) (hk : Machine.recordKind h.recAt s = 1)
    {r : TxnEnd} (hd : r = .acknowledged → t.data.length ≤ 8) :
    Shows s (finishTxn p r v)
      (atPort p { x with ctl := freed x.ctl } (⟨p, markOf r⟩ :: y) { b with chain := afterCompletion h.recAt b.chain })
      (completionWrites s b.chain h.recAt (accessResult h t r).1 (accessResult h t r).2) := by
  have free := hs.frees r
  have kind : Machine.recordKind h.recAt (freeing p r v) ≠ 3 := by
    rw [free.recordKind nofun, hk]
    decide
  have done := free.atCommand (accessResult h t r).1 kind (accessResult_length h hd)
  rw [finishTxn_some (by rwa [hs.ctl_atPort]) (.inl (by rw [hm]; rfl)), handResult_access hm]
  rw [List.append_nil] at done
  exact done.chooses_none hx hl hh

/-! ## HEAD_ACCESS -/

theorem exec_headAccess {a : Addr} {x : HeadArgs} (hr : s.running = true) (hp : p.val < s.chain.portCount.toNat) :
    exec (.headAccess a (BitVec.ofNat 8 p.val) x) s = .next (flushMirrors (takeHeadAccess a p x (takeCommand a s))) := by
  refine (execRecord_running (c := .headAccess (BitVec.ofNat 8 p.val) x) hr).trans ?_
  unfold ownCommand
  dsimp only
  rw [withPort_named (s := takeCommand a s) hp]

theorem headPart_sound {x : HeadArgs} (hu : x.unit.toNat ≤ 4) (hd : x.direction.toNat ≤ 1) (h1 : 1 ≤ x.count.toNat)
    (h8 : x.count.toNat ≤ 8) : headPart x = some
      { unit := x.unit.toNat, write := decide (x.direction = 0), address := x.address
        words := if x.direction = 0 then x.words.toList.take x.count.toNat else [], count := x.count.toNat } := by
  unfold headPart
  exact if_neg (by omega)

section accepted
variable {z : HeadArgs} {r : Addr} (ha : headPart z = some a)
include ha

theorem takeHeadAccess_down (h : (s.port p).ctl.ready = false) : takeHeadAccess r p z s = completeCommand r .linkDown [] s := by
  unfold takeHeadAccess
  rw [ha]
  exact if_pos (by rw [h]; rfl)

theorem takeHeadAccess_busy (h : (s.port p).ctl.ready = true) (h4 : 4 ≤ headAccesses (s.port p).ctl) :
    takeHeadAccess r p z s = completeCommand r .portBusy [] s := by
  unfold takeHeadAccess
  rw [ha]
  dsimp only
  rw [if_neg (by rw [h]; decide), if_pos h4]

theorem takeHeadAccess_accepted (h : (s.port p).ctl.ready = true) (h4 : headAccesses (s.port p).ctl < 4) : takeHeadAccess r p z s =
    arbitrate p (modCtl p (fun c => { c with heads := c.heads ++ [.access { recAt := r, part := a }] }) s) := by
  unfold takeHeadAccess
  rw [ha]
  dsimp only
  rw [if_neg (by rw [h]; decide), if_neg (Nat.not_le.mpr h4)]

end accepted

/-- Settles O27. -/
theorem headAccessQueued : Obligations.HeadAccessQueued := by
  intro a p x s ⟨_, hr, hk⟩ hp hu hd h1 h8 c part
  have sound : headPart x = some part := headPart_sound hu hd h1 h8
  have taken := shows_takeCommand a s
  have shown : Shows s (takeCommand a s) (atPort p (s.port p) s.cable { s with chain := afterTake a s.chain }) [takenWrite a] :=
    taken.onePort p
  have queued := shown.atCtl fun c => { c with heads := c.heads ++ [.access { recAt := a, part := part }] }
  refine ⟨fun ready => ?_, fun ready four => ?_, fun ready four busy => ?_, fun ready idle hx hm hh ht => ?_⟩
  · refine ⟨_, exec_headAccess hr hp, ?_⟩
    rw [takeHeadAccess_down (s := takeCommand a s) sound ready]
    exact taken.commandDone hk (by simp)
  · refine ⟨_, exec_headAccess hr hp, ?_⟩
    rw [takeHeadAccess_busy (s := takeCommand a s) sound ready four]
    exact taken.commandDone hk (by simp)
  · refine ⟨_, exec_headAccess hr hp, Shows.ends ?_⟩
    rw [takeHeadAccess_accepted (s := takeCommand a s) sound ready four]
    exact queued.chooses_busy busy
  · refine ⟨_, exec_headAccess hr hp, Shows.ends ?_⟩
    have none : headAccesses c = 0 := by
      unfold headAccesses
      rw [hh, ht]
      rfl
    rw [takeHeadAccess_accepted (s := takeCommand a s) sound ready (none ▸ Nat.zero_lt_succ 3)]
    have sent := queued.chooses_head (m := .access { recAt := a, part := part }) (rest := []) (a := part) idle hx hm
      (congrArg (· ++ _) hh) rfl
    exact sent.ctl_eq (d := { c with
      state := .sending, replyTimer := some 2
      txn := some { message := .access { recAt := a, part := part }, part := 0, stage := .header, acked := 0, data := [] } })
      (congrArg (fun l => begins _ { c with heads := l }) hh.symm)

end Sys2Proof.Machine
end

section
/-! PROOFS. The identity that a PING brings, the timeouts (R47, R54 to R56), and head notes (R51 to R54, R101). -/

namespace Sys2Proof.Machine

variable {s v u b : State} {w : List BusEvent} {p : PortId} {x : Port} {y : List CableEvent} {t : Txn} {a : UnitPart}

/-! ## Restarts of the head -/

/-- A lens state that knows no drive code (R85). -/
abbrev forgotten (l : LensState) : LensState := { l with known := .replicate 4 none }

theorem IdlePort.atPort (hentries : x.frame.entries = []) (hrecv : x.frame.recv = .idle) (htxn : x.ctl.txn = none)
    (hheads : x.ctl.heads = []) (hphase : x.lens.phase = none) (hheld : x.lens.held = []) : IdlePort p (atPort p x y b) := by
  have view : portView ((Machine.atPort p x y b).port p) = portView x := atPort_self
  obtain ⟨-, -, hctl, hlens, hframe, -, -⟩ := portView_parts view
  unfold IdlePort
  rw [hctl, hlens, hframe]
  exact ⟨hentries, hrecv, htxn, hheads, hphase, hheld⟩

/-- A head restart, once the entries of the port have closed (R54, R56). -/
theorem Shows.headRestarts (h : Shows s (closeAll p .headRestart v) (atPort p x y b) w) (hx : x.alerts = (b.port p).alerts) :
    Shows s (headRestart p v)
      (atPort p { x with
        lens := forgotten x.lens, ctl := { x.ctl with ready := false }, alerts := ((withAlert p 4 b).port p).alerts } y (withAlert p 4 b))
      (alertMessage p 4 b ++ w) :=
  ((h.atLens forgotten).atCtl fun c => { c with ready := false }).atAlert 4 hx

/-! ## Identification -/

/-- A channel that holds an identity (R55, R56). -/
abbrev identified (i : Identity) (c : Channel) : Channel :=
  { c with identity := some i, noCompare := false, ready := true, retryTimer := none }

/-- Is the boot count to be compared, and another than the one held (R56)? -/
abbrev BootChanged (c : Channel) (boot : U16) : Prop := c.noCompare = false ∧ ∃ old ∈ c.identity, old.boot ≠ boot

theorem takeIdentity_kept {i : Identity} (h : ¬ BootChanged (s.port p).ctl i.boot) : takeIdentity p i s = modCtl p (identified i) s := by
  unfold takeIdentity
  dsimp only
  split
  · rfl
  · rename_i old held
    refine congrArg (modCtl p (identified i)) (if_neg fun e => h ?_)
    rw [Bool.and_eq_true, Bool.not_eq_true', decide_eq_true_eq] at e
    exact ⟨e.1, old, held, e.2⟩

theorem takeIdentity_restarted {i : Identity} (h : BootChanged (s.port p).ctl i.boot) :
    takeIdentity p i s = modCtl p (identified i) (headRestart p s) := by
  obtain ⟨compared, old, held, changed⟩ := h
  unfold takeIdentity
  dsimp only
  rw [Option.mem_def.mp held, compared]
  exact congrArg (modCtl p (identified i)) (if_pos (by simpa using changed))

/-- Are the sizes of an identity sound (R55)? -/
abbrev SoundSizes (w h : U16) : Prop := 1 ≤ w.toNat ∧ w.toNat ≤ 8192 ∧ 1 ≤ h.toNat ∧ h.toNat ≤ 8192

theorem identityValid_iff (i : Identity) : identityValid i = true ↔ SoundSizes i.maxWidth i.maxHeight := by
  unfold identityValid sizeValid
  simp only [Bool.and_eq_true, decide_eq_true_eq, and_assoc]

theorem handResult_ping_sound (hm : t.message = .ping) (hi : identityValid (identityOf t.data) = true) (s : State) :
    handResult p t .acknowledged s = takeIdentity p (identityOf t.data) s := by
  unfold handResult
  rw [hm]
  exact if_pos hi

theorem handResult_ping_unsound (hm : t.message = .ping) (hi : ¬ identityValid (identityOf t.data) = true) (s : State) :
    handResult p t .acknowledged s = pingFailed p s := by
  unfold handResult
  rw [hm]
  exact if_neg hi

theorem retryExpired_due (hr : (s.port p).ctl.retryTimer.isSome = true) (hi : (s.port p).ctl.state = .idle) :
    retryExpired p s = arbitrate p (queuePing p (modCtl p (fun c => { c with retryTimer := none }) s)) :=
  if_pos ⟨hr, by rw [hi]; decide⟩

/-- A PING that waits alone on an IDLE channel begins (R50, R55). -/
theorem Shows.pingBegins (h : Shows s v (atPort p x y b) w) (hi : x.ctl.state = .idle) (hx : x.ctl.exposes = [])
    (hl : x.ctl.lensMsgs = []) (hh : x.ctl.heads = [.ping]) :
    Shows s (arbitrate p v)
      (atPort p { x with ctl := begins .ping { x.ctl with heads := [] } } (⟨p, .header 0 false 0⟩ :: ⟨p, .startMark⟩ :: y) b) w :=
  h.chooses_head (m := .ping) (rest := []) (a := ⟨0, false, 0, [], 5⟩) hi hx hl hh rfl

/-- A PING is asked for where none waits (R55). -/
theorem Shows.asksPing (h : Shows s v (atPort p x y b) w) (htxn : x.ctl.txn = none) (hh : x.ctl.heads = []) :
    Shows s (queuePing p v) (atPort p { x with ctl := { x.ctl with heads := [.ping] } } y b) w := by
  rw [queuePing_none (by rwa [h.ctl_atPort]) (by rwa [h.ctl_atPort])]
  exact (h.atCtl fun c => { c with heads := c.heads ++ [.ping] }).ctl_eq
    (congrArg (fun l => ({ x.ctl with heads := l ++ [.ping] } : Channel)) hh)

/-- Settles O51. -/
theorem timeoutsAndIdentification : Obligations.TimeoutsAndIdentification := by
  intro p s _ hx hl hh c free sends
  have here : Shows s s (atPort p (s.port p) s.cable s) [] := (Shows.refl s).onePort p
  refine ⟨fun h x hstate htxn hm hk => ?_, fun x a b d w h hstate htxn hm hpart hst hdata => ?_, fun hstate htxn hretry => ?_⟩
  · intro u puts
    have ended := here.accessEnds (r := .noReply) htxn hm hx hl hh hk nofun
    refine ⟨fun ht => ⟨_, rfl, Shows.ends ?_⟩, fun ht => ⟨_, rfl, Shows.ends ?_⟩⟩
    · rw [replyExpired_running hstate htxn ht]
      exact ended
    · rw [holdExpired_running hstate htxn ht]
      exact ended
  · intro changed new valid
    let last : Txn := { x with data := [a, b, d, w, h] }
    have read : dataWord p h s = finishTxn p .acknowledged (awaitAnswer p last s) := by
      rw [dataWord_last (a := ⟨0, false, 0, [], 5⟩) hstate htxn hst
        (by rw [currentPart, hm, hpart]; rfl) (by rw [hdata]; exact Nat.le_refl 5), hdata]
      rfl
    have ping : last.message = .ping := hm
    have answered : Shows s (awaitAnswer p last s)
        (atPort p { s.port p with ctl := { c with txn := some last, replyTimer := some 2, holdTimer := none } } s.cable s) [] :=
      here.atCtl _
    have free := answered.frees .acknowledged
    have held : ((freeing p .acknowledged (awaitAnswer p last s)).port p).ctl = freed c := free.ctl_atPort
    have sound : identityValid (identityOf last.data) = true ↔ valid := identityValid_iff new
    refine ⟨_, rfl, fun hv same => Shows.ends ?_, fun hv other hentries hrecv hphase hheld => Shows.ends ?_, fun hv => Shows.ends ?_⟩
    all_goals rw [read, finishTxn_some (by rw [answered.ctl_atPort]) (.inr rfl)]
    · rw [handResult_ping_sound ping (sound.mpr hv), takeIdentity_kept (by rw [held]; exact same)]
      exact (free.atCtl (identified new)).chooses_none hx hl hh
    · rw [handResult_ping_sound ping (sound.mpr hv), takeIdentity_restarted (by rw [held]; exact other)]
      have idle := shows_closeAll_idle free (IdlePort.atPort hentries hrecv rfl hh hphase hheld) .headRestart
      have ended := ((idle.headRestarts rfl).atCtl (identified new)).chooses_none hx hl hh
      rw [List.append_nil] at ended
      exact ended.alertLast (x := { s.port p with ctl := identified new (freed c), lens := forgotten (s.port p).lens }) rfl
        (sameDevice_change (x := { s.port p with ctl := identified new (freed c) })
          fun _ _ e => portView_lens e (congrArg forgotten (congrArg Port.lens e :))).symm
    · rw [handResult_ping_unsound ping fun e => hv (sound.mp e)]
      exact (free.atCtl fun c => { c with failures := c.failures + 1, retryTimer := some retryMs }).chooses_none hx hl hh
  · refine ⟨_, rfl, Shows.ends ?_⟩
    rw [retryExpired_due hretry hstate]
    have asked := (here.atCtl fun c => { c with retryTimer := none }).asksPing htxn hh
    exact (asked.pingBegins hstate hx hl rfl).ctl_eq
      (congrArg (fun l => begins .ping { c with retryTimer := none, heads := l }) hh.symm)

/-! ## Head notes -/

theorem noteBegins_idle (h : (s.port p).ctl.state = .idle) (collides : Bool) : noteBegins p collides s = modCtl p enterNote s := by
  unfold noteBegins
  dsimp only
  rw [h]

/-- A collision with the header of a transaction (R51, log 21). -/
theorem noteBegins_collides (hstate : (s.port p).ctl.state = .sending) (htxn : (s.port p).ctl.txn = some t) (hpart : t.part = 0)
    (hst : t.stage = .header) {u : Nat} {r : U16} {wr : Bool} {cs : List CableEvent} (hcable : s.cable = ⟨p, .header u wr r⟩ :: cs) :
    noteBegins p true s =
      modCtl p (fun c => enterNote (putBack t.message { c with txn := none, replyTimer := none, holdTimer := none }))
        { s with cable := cs } := by
  unfold noteBegins
  dsimp only
  rw [hstate, htxn]
  dsimp only
  rw [if_pos ⟨rfl, hpart, hst⟩, hcable, List.eraseP_cons_of_pos (by simp [isHeader])]

theorem noteTaken_note (h : (s.port p).ctl.state = .note) : noteTaken (s.port p).ctl = true := by
  unfold noteTaken
  rw [h]
  rfl

/-- A channel whose note has ended (R51, R52). -/
abbrev noteOver (c : Channel) : Channel := { c with state := .idle, noteTimer := none }

/-- A note ends with nothing waiting on the channel (R51, R52). -/
theorem Shows.noteEnds (h : Shows s v u w) (hx : (u.port p).ctl.exposes = []) (hl : (u.port p).ctl.lensMsgs = [])
    (hh : (u.port p).ctl.heads = []) : Shows s (endNote p v) (Machine.modCtl p noteOver u) w := by
  have ended := h.modCtl p (f := noteOver) (g := noteOver) rfl
  have ctl : ((Machine.modCtl p noteOver v).port p).ctl = noteOver (u.port p).ctl := (ended.device.portCtl p).trans (modCtl_port_self ..)
  unfold endNote
  rwa [arbitrate_none] <;> rwa [ctl]

theorem withAlert_ctl (bit : Nat) (s : State) (q : PortId) : ((withAlert p bit s).port q).ctl = (s.port q).ctl :=
  (congrArg Port.ctl (withAlert_same bit s q) :)

theorem lensFaultTaken_unit (h : (s.port p).ctl.state = .note) (k : UnitId) :
    lensFaultTaken p (BitVec.ofNat 8 (k.val + 1)) s = endNote p (setPortAlert p 6 (setKnown p k none s)) := by
  have unit : unitOf (BitVec.ofNat 8 (k.val + 1)).toNat = some k := by
    have hk := k.isLt
    rw [BitVec.toNat_ofNat, Nat.mod_eq_of_lt (by omega)]
    exact unitOf_succ k
  unfold lensFaultTaken
  rw [if_pos (noteTaken_note h), unit]
  rfl

/-- A channel that identifies its head anew after a HEAD_RESTARTED note (R54, R55). -/
abbrev reidentifying (c : Channel) : Channel :=
  { begins .ping c with noteTimer := none, ready := false, noCompare := true, retryTimer := none }

/-- A HEAD_RESTARTED note ends with nothing waiting on the channel, once the entries of the port have closed (R54, R55). -/
theorem Shows.restartNoted (h : Shows s (closeAll p .headRestart v) (atPort p x y b) w) (hnote : (v.port p).ctl.state = .note)
    (halerts : x.alerts = (b.port p).alerts) (htxn : x.ctl.txn = none) (hx : x.ctl.exposes = []) (hl : x.ctl.lensMsgs = [])
    (hh : x.ctl.heads = []) :
    Shows s (headRestartTaken p v)
      (atPort p { x with
          lens := forgotten x.lens, alerts := ((withAlert p 4 b).port p).alerts, ctl := reidentifying x.ctl }
        (⟨p, .header 0 false 0⟩ :: ⟨p, .startMark⟩ :: y) (withAlert p 4 b)) (alertMessage p 4 b ++ w) := by
  have restarted := (h.headRestarts halerts).atCtl fun c => { c with noCompare := true, retryTimer := none }
  have ended := (restarted.asksPing htxn hh).atCtl noteOver
  unfold headRestartTaken
  rw [if_pos (noteTaken_note hnote)]
  exact (ended.pingBegins rfl hx hl rfl).ctl_eq (congrArg (fun l => reidentifying { x.ctl with heads := l }) hh.symm)

/-- Settles O52. -/
theorem notes : Obligations.Notes := by
  intro p s _ hx hl hh c noted
  have here : Shows s s (atPort p (s.port p) s.cable s) [] := (Shows.refl s).onePort p
  refine ⟨fun collides hi => ?_, fun h t cs u wr r hstate htxn hm hpart hst hcable => ?_, fun hnote => ?_⟩
  · refine ⟨_, rfl, Shows.ends ?_⟩
    rw [noteBegins_idle hi]
    exact here.atCtl enterNote
  · refine ⟨_, rfl, Shows.ends ?_⟩
    rw [noteBegins_collides hstate htxn hpart hst hcable, hm]
    have noted := (shows_withdrawn p s cs).atCtl fun c =>
      enterNote (putBack (.access h) { c with txn := none, replyTimer := none, holdTimer := none })
    exact noted.ctl_eq (congrArg
      (fun l => enterNote { c with txn := none, replyTimer := none, holdTimer := none, heads := .access h :: l }) hh)
  · have taken := noteTaken_note hnote
    have plain : Shows s (endNote p s) (noted s) [] := (Shows.refl s).noteEnds hx hl hh
    refine ⟨⟨_, rfl, Shows.ends ?_⟩, ⟨_, rfl, Shows.ends ?_⟩, ⟨_, rfl, Shows.ends ?_⟩, fun k => ⟨_, rfl, Shows.ends ?_⟩,
      fun idle => ⟨_, rfl, Shows.ends ?_⟩⟩
    · unfold noteDropped
      rwa [if_pos taken]
    · unfold noteExpired
      rwa [if_pos hnote]
    · have alerted := (Shows.refl s).setPortAlert p 5
      rw [List.append_nil] at alerted
      unfold overtempTaken
      rw [if_pos taken]
      refine alerted.noteEnds ?_ ?_ ?_ <;> rwa [withAlert_ctl]
    · have forgot : Shows s (setKnown p k none s) (modLens p (fun l => { l with known := l.known.set k none }) s) [] :=
        (Shows.refl s).modLens p rfl
      have alerted := forgot.setPortAlert p 6
      rw [alertMessage_congr (u := s) (modLens_port_alerts ..) rfl, List.append_nil] at alerted
      rw [lensFaultTaken_unit hnote]
      refine alerted.noteEnds ?_ ?_ ?_ <;> rwa [withAlert_ctl, modLens_port_ctl]
    · have closed := (shows_closeAll_idle (Shows.refl s) idle .headRestart).onePort p
      have forgot : portView ((modLens p forgotten s).port p) = portView { s.port p with lens := forgotten (s.port p).lens } := by
        unfold modLens
        rw [modPort_portView, if_pos rfl]
      have base : Shows s (closeAll p .headRestart s) (atPort p (s.port p) s.cable (modLens p forgotten s)) [] :=
        closed.to (sameDevice_atPort_modPort fun q => { q with lens := forgotten q.lens })
      have taken := base.restartNoted hnote (modLens_port_alerts ..).symm idle.2.2.1 hx hl hh
      rw [alertMessage_congr (u := s) (modLens_port_alerts ..) rfl, List.append_nil] at taken
      exact taken.alertFirst (x := { s.port p with lens := forgotten (s.port p).lens }) (F := fun q => { q with ctl := reidentifying q.ctl })
        forgot.symm fun _ _ e => portView_ctl e (congrArg reidentifying (congrArg Port.ctl e :))

end Sys2Proof.Machine
end

section
/-! PROOFS. The exposure list of a port written out: an entry that changes, an entry that closes, the end of a lens phase, and the lens
units settled before it (R85, R90 to R100, R121 to R123). -/

namespace Sys2Proof.Machine

variable {s v u b : State} {w : List BusEvent} {p : PortId} {x : Port} {y : List CableEvent} {t : Txn} {e : Entry}
  {es pre post : List Entry}

/-! ## The entry of a trigger number -/

/-- A port with another exposure list. -/
abbrev listing (es : List Entry) (q : Port) : Port := { q with frame := { q.frame with entries := es } }

/-- An exposure list with the one entry of its trigger number picked out. -/
structure Picks (es pre : List Entry) (e : Entry) (post : List Entry) : Prop where
  entries : es = pre ++ e :: post
  before : ∀ o ∈ pre, o.trigger ≠ e.trigger
  after : ∀ o ∈ post, o.trigger ≠ e.trigger

theorem Picks.find (h : Picks es pre e post) : es.find? (fun o => decide (o.trigger = e.trigger)) = some e := by
  rw [h.entries, List.find?_append, List.find?_eq_none.mpr fun o ho => by simpa using h.before o ho, Option.none_or]
  exact findEntry_first

theorem Picks.map (h : Picks es pre e post) (g : Entry → Entry) :
    es.map (fun o => if o.trigger = e.trigger then g o else o) = pre ++ g e :: post := by
  have kept (l : List Entry) (hl : ∀ o ∈ l, o.trigger ≠ e.trigger) : l.map (fun o => if o.trigger = e.trigger then g o else o) = l :=
    (List.map_congr_left fun o ho => if_neg (hl o ho)).trans (List.map_id l)
  rw [h.entries, List.map_append, List.map_cons, kept pre h.before, kept post h.after, if_pos rfl]

theorem Picks.filter (h : Picks es pre e post) : es.filter (fun o => decide (o.trigger ≠ e.trigger)) = pre ++ post := by
  have kept (l : List Entry) (hl : ∀ o ∈ l, o.trigger ≠ e.trigger) : l.filter (fun o => decide (o.trigger ≠ e.trigger)) = l :=
    List.filter_eq_self.mpr fun o ho => decide_eq_true (hl o ho)
  rw [h.entries, List.filter_append, kept pre h.before, List.filter_cons_of_neg (by simp), kept post h.after]

/-- The entry as it is listed anew. -/
theorem Picks.relisted {e' : Entry} (h : Picks es pre e post) (he : e'.trigger = e.trigger) :
    Picks (pre ++ e' :: post) pre e' post where
  entries := rfl
  before o ho := by rw [he]; exact h.before o ho
  after o ho := by rw [he]; exact h.after o ho

theorem Picks.single (h : es = [e]) : Picks es [] e [] :=
  ⟨h, fun _ ho => absurd ho List.not_mem_nil, fun _ ho => absurd ho List.not_mem_nil⟩

/-- The entry changes. -/
theorem Shows.entryChanges (h : Shows s v (atPort p x y b) w) (hp : Picks x.frame.entries pre e post) (g : Entry → Entry) :
    Shows s (modEntry p e.trigger g v) (atPort p (listing (pre ++ g e :: post) x) y b) w := by
  have changed := h.atFrame fun r => { r with entries := r.entries.map fun o => if o.trigger = e.trigger then g o else o }
  rw [hp.map g] at changed
  exact changed

/-! ## An entry closes -/

theorem closeLensShare_past (h : e.phase ≠ .lensWait ∧ e.phase ≠ .lensMoving) (st : Code) (s : State) :
    closeLensShare p e st s = s := by
  unfold closeLensShare
  split
  · rename_i wait; exact absurd wait h.1
  · rename_i moving; exact absurd moving h.2
  · rfl

theorem Shows.pastPhase (h : Shows s v u w) (hphase : e.phase ≠ .lensWait ∧ e.phase ≠ .lensMoving) (p : PortId) (st : Code) :
    Shows s (closeLensShare p e st v) u w := by rwa [closeLensShare_past hphase]

/-- A channel without the messages of an entry (R50, R122). -/
abbrev without (n : U32) (c : Channel) : Channel := { c with
  exposes := c.exposes.filter fun t => decide (t ≠ n), lensMsgs := c.lensMsgs.filter fun m => decide (m.trigger ≠ n) }

theorem without_none {c : Channel} {n : U32} (hx : c.exposes = []) (hl : ∀ m ∈ c.lensMsgs, m.trigger = n) :
    without n c = { c with lensMsgs := [] } := by
  have gone : c.lensMsgs.filter (fun m => decide (m.trigger ≠ n)) = [] :=
    List.filter_eq_nil_iff.mpr fun m hm => by simpa using hl m hm
  unfold without
  rw [hx, gone, List.filter_nil, ← hx]

theorem without_idle {c : Channel} {n : U32} (hx : c.exposes = []) (hl : c.lensMsgs = []) : without n c = c := by
  rw [without_none hx fun m hm => absurd (hl ▸ hm) List.not_mem_nil, ← hl]

/-- The result fields of an image record whose entry closes without a frame, and its counting, newest first (R121, R123, R185). -/
abbrev imageWrites (s : State) (p : PortId) (c : ChainEngine) (e : Entry) (code : Nat) (body : List Byte) : List BusEvent :=
  completionTail s c ⟨1 + p.val, by omega⟩ .frames e.image false ++ [.write (e.image + 0x48) (leBytes 2 code ++ zeros 2 ++ body)]

/-- An entry of no set closes FAILED without a frame, once its lens record is done with (R121, R122, R123). -/
theorem Shows.entryGone {st : Code} (h : Shows s (closeLensShare p e st v) (atPort p x y b) w) (hv : (v.port p).frame = x.frame)
    (hp : Picks x.frame.entries pre e post) (hset : e.set = none) (hr : ∀ f, x.frame.recv ≠ .filling f) (hst : doneClass st = false) :
    Shows s (Machine.closeEntry p e.trigger st 0 v)
      (atPort p { listing (pre ++ post) x with ctl := without e.trigger x.ctl } y
        { b with chain := afterCompletionOf ⟨1 + p.val, by omega⟩ .frames e.image b.chain })
      (imageWrites s p b.chain e (codeNumber st) (closeBytes x.frame e none 0 b.trig.clock) ++ w) := by
  have removed : Shows s (removeMessages p e.trigger (closeLensShare p e st v))
      (atPort p { x with ctl := without e.trigger x.ctl } y b) w := h.atCtl _
  have frameless : receivedOf x.frame.recv e.trigger = none := receivedOf_none hr _
  have listed := removed.atFrame fun r => { r with
    entries := r.entries.filter fun o => decide (o.trigger ≠ e.trigger)
    recv := if (none : Option Filling).isSome then .idle else r.recv }
  rw [hp.filter] at listed
  unfold Machine.closeEntry
  rw [hv, show findEntry x.frame e.trigger = some e from hp.find]
  dsimp only
  rw [receivedOf_recv, frameless, completeImage_single hset, hst, listed.frame_atPort, listed.now_atPort]
  have written := (listed.dmaWrite (e.image + 0x48)
    (leBytes 2 (codeNumber st) ++ zeros 2 ++ closeBytes x.frame e none 0 b.trig.clock)).atRecord (.image p) e.image false
  refine Eq.mp (congrArg (Shows s _ _) (List.append_assoc _ [_] w).symm) ?_
  exact written.still ((sameDevice_touchPort p _).trans written.device) rfl rfl rfl

/-- Where the lens outcome stands among the close fields (R123). -/
theorem closeBytes_outcome (q : FrameRx) (e : Entry) (g : Option Filling) (sent : Nat) (now : U64) :
    (closeBytes q e g sent now)[0x1B]? = some (BitVec.ofNat 8 (lensOutcomeNumber e.outcome)) := by
  unfold closeBytes
  iterate 8 rw [List.getElem?_append_left (by simp)]
  rw [List.getElem?_append_right (by simp)]
  simp only [List.length_append, matchHeadBytes_length, matchTailBytes_length, leBytes_length, u8_length, flag_length]
  rfl

end Sys2Proof.Machine
end

section
/-! PROOFS. The end of a lens phase: the units settled before it, the lens record, the late action, and the next phase (R85, R90 to R100). -/

namespace Sys2Proof.Machine

variable {s v u b : State} {w : List BusEvent} {p : PortId} {x : Port} {y : List CableEvent} {t : Txn} {e : Entry}
  {es pre post : List Entry} {ph : LensPhase}

/-! ## Units settled -/

theorem settledTargets_eq (cur : Option UnitId) (r : UnitResult) (ts : List Target) : ts.map (fun t =>
    if t.result.isSome then t else { t with result := some (if cur = some t.unit then r else .notReached) }) = settled cur r ts := by
  refine List.map_congr_left fun t _ => ?_
  cases t.result <;> rfl

/-- A lens state whose phase has these targets, with the code of a unit, if one is named, set or forgotten. -/
abbrev judged (ph : LensPhase) (ts : List Target) (cur : Option UnitId) (code : Option Nat) (l : LensState) : LensState := { l with
  phase := some { ph with targets := ts }
  known := match cur with
    | none => l.known
    | some k => l.known.set k code }

/-- The units of a phase without a result are settled (R94, R95, R100). -/
theorem Shows.settles (h : Shows s v (atPort p x y b) w) (hph : x.lens.phase = some ph) {cur : Option UnitId}
    (hcur : lensUnitInProgress x.ctl = cur) (r : UnitResult) : Shows s (settleTargets p r v)
      (atPort p { x with lens := judged ph (settled cur r ph.targets) cur none x.lens } y b) w := by
  have phased := h.atLens fun l => { l with phase := some { ph with targets := settled cur r ph.targets } }
  unfold settleTargets
  rw [h.lens_atPort, hph]
  dsimp only
  rw [h.ctl_atPort, hcur, settledTargets_eq]
  cases cur with
  | none => exact phased
  | some k => exact phased.atLens fun l => { l with known := l.known.set k none }

theorem lensUnitInProgress_none {c : Channel} (h : ∀ t m, c.txn = some t → t.message ≠ .lens m) : lensUnitInProgress c = none := by
  unfold lensUnitInProgress
  split
  · rename_i t ht
    split
    · rename_i m hm
      exact absurd hm (h t m ht)
    · rfl
  · rfl

theorem lensUnitInProgress_some {c : Channel} {m : LensMessage} {k : UnitId} {code : Nat} (ht : c.txn = some t)
    (hm : t.message = .lens m) (hk : m.parts[t.part]? = some (k, code)) : lensUnitInProgress c = some k := by
  unfold lensUnitInProgress
  rw [ht]
  dsimp only
  rw [hm]
  dsimp only
  rw [hk]
  rfl

/-! ## The lens record -/

/-- The lens record of an entry completes, if it has a sound one (R89, R99, R100). -/
def lensRecordDone (p : PortId) (code : Code) (e : Entry) (outcome : LensOutcome) (flags : BitVec 4) (targets : List Target)
    (started ended : U64) (s : State) : State :=
  match e.lensRec, e.lensPairs with
  | some a, some _ => completeLens p a code e.source e.trigger outcome flags targets started ended s
  | _, _ => s

theorem targetBytes_length (t : Target) : (targetBytes t).length = 4 := by simp [targetBytes]

theorem lensResultBytes_length {ts : List Target} (h : ts.length ≤ 4) (code : Code) (q : PortId) (k : SourceId) (n : U32)
    (o : LensOutcome) (f : BitVec 4) (started ended : U64) : (lensResultBytes code q k n o f ts started ended).length = 0x2C := by
  have pairs : (ts.map targetBytes).flatten.length = 4 * ts.length := by
    rw [flatten_length_of_forall (n := 4) _ fun l hl => ?_, List.length_map]
    obtain ⟨t, -, rfl⟩ := List.mem_map.mp hl
    exact targetBytes_length t
  have places : (List.replicate (4 - ts.length) noTargetBytes).flatten.length = 4 * (4 - ts.length) := by
    rw [flatten_length_of_forall (n := 4) _ fun l hl => ?_, List.length_replicate]
    rw [List.eq_of_mem_replicate hl]
    simp [noTargetBytes]
  unfold lensResultBytes
  simp only [List.length_append, leBytes_length, u8_length, u32_length, u64_length, zeros_length, pairs, places]
  omega

/-- The result fields of a lens record go out whole into a record of either length (R200). -/
theorem Shows.lensRecordDone (h : Shows s v (atPort p x y s) w) (code : Code) (e : Entry) (o : LensOutcome) (f : BitVec 4)
    {ts : List Target} (hts : e.lensPairs ≠ none → ts.length ≤ 4) (started ended : U64) :
    Shows s (Machine.lensRecordDone p code e o f ts started ended v)
      (atPort p x y { s with chain := (lensRecordEnds s p code e o f ts started ended).1 })
      ((lensRecordEnds s p code e o f ts started ended).2 ++ w) := by
  unfold Machine.lensRecordDone lensRecordEnds
  cases e.lensRec with
  | none => exact h
  | some a =>
    cases hps : e.lensPairs with
    | none => exact h
    | some ps =>
      have whole (n : Nat) : (lensResultBytes code p e.source e.trigger o f ts started ended).take (recordLength n - 0x24) =
          lensResultBytes code p e.source e.trigger o f ts started ended := by
        refine List.take_of_length_le ?_
        rw [lensResultBytes_length (hts (by rw [hps]; exact nofun)), recordLength]
        split <;> decide
      dsimp only
      unfold completeLens writeResult lensWrites
      rw [whole, List.append_assoc]
      exact (h.dmaWrite _ _).atRecord (.lens p) a (decide (code = .ok))

/-! ## The end of a phase -/

/-- Does the late action drop an entry at this outcome (R97)? -/
abbrev DropsLate (l : LensState) (o : LensOutcome) : Prop := (o = .late ∨ o = .failed) ∧ l.lateAction = .drop

theorem not_dropsLate {l : LensState} {o : LensOutcome} (ho : o ≠ .late) (h : o ≠ .failed ∨ l.lateAction = .expose) : ¬ DropsLate l o := by
  rintro ⟨lost, drop⟩
  rcases h with h | expose
  · exact h (lost.resolve_left ho)
  · rw [expose] at drop
    cases drop

/-- A phase is over: its outcome and flags stand in the entry, and its lens record and the held tables are done with (R86, R96, R99). -/
def phaseOver (p : PortId) (e : Entry) (ph : LensPhase) (o : LensOutcome) (s : State) : State :=
  applyHeld p (lensRecordDone p .ok e o ph.flags ph.targets ph.started s.now
    (modEntry p ph.trigger (fun e => { e with outcome := o, flags := ph.flags }) (modLens p (fun l => { l with phase := none }) s)))

section
variable (hph : (s.port p).lens.phase = some ph) (he : findEntry (s.port p).frame ph.trigger = some e) {o : LensOutcome}
  {fixed : Option LensOutcome} {late : Bool} (ho : fixed.getD (phaseOutcome late ph.targets) = o)
include hph he ho

theorem endPhase_exposes (hd : ¬ DropsLate ((phaseOver p e ph o s).port p).lens o) :
    endPhase p fixed late s = queueExpose p ph.trigger (phaseOver p e ph o s) := by
  unfold endPhase
  rw [hph]
  dsimp only
  rw [he]
  dsimp only
  rw [ho]
  split
  · rename_i lost
    split
    · rfl
    · rename_i drop
      exact absurd ⟨lost, drop⟩ hd
  · rfl

theorem endPhase_drops (hd : DropsLate ((phaseOver p e ph o s).port p).lens o) : endPhase p fixed late s =
    closeEntry p ph.trigger (if o = .late then .lensLate else .lensFailed) 0
      (modEntry p ph.trigger (fun e => { e with phase := .exposeQueued }) (phaseOver p e ph o s)) := by
  unfold endPhase
  rw [hph]
  dsimp only
  rw [he]
  dsimp only
  rw [ho, if_pos hd.1]
  split
  · rename_i expose
    exact absurd (expose.symm.trans hd.2) nofun
  · rfl

end

/-- An entry whose EXPOSE is due, with what its phase gave it. -/
abbrev phased (e : Entry) (o : LensOutcome) (f : BitVec 4) : Entry := { e with phase := .exposeQueued, outcome := o, flags := f }

/-- A port whose lens phase is over. -/
abbrev unphased (q : Port) : Port := { q with lens := { q.lens with phase := none } }

section
variable (h : Shows s v (atPort p x y s) w) (hp : Picks x.frame.entries pre e post) (htr : ph.trigger = e.trigger)
  (hheld : x.lens.held = []) (hts : e.lensPairs ≠ none → ph.targets.length ≤ 4)
include h hp htr hheld hts

theorem Shows.phaseOver (o : LensOutcome) :
    let l := lensRecordEnds s p .ok e o ph.flags ph.targets ph.started s.trig.clock
    Shows s (Machine.phaseOver p e ph o v)
      (atPort p (listing (pre ++ { e with outcome := o, flags := ph.flags } :: post) (unphased x)) y { s with chain := l.1 })
      (l.2 ++ w) := by
  have told := (h.atLens fun l => { l with phase := none }).entryChanges hp fun e => { e with outcome := o, flags := ph.flags }
  have done := told.lensRecordDone .ok e o ph.flags hts ph.started s.trig.clock
  have applied := done.atLens fun l => { l with held := [] }
  unfold Machine.phaseOver
  rw [htr, h.now_atPort, applyHeld_idle (by rw [done.lens_atPort]; exact hheld)]
  rw [show ({ x.lens with phase := none, held := [] } : LensState) = { x.lens with phase := none } from by rw [← hheld]] at applied
  exact applied

variable (hph : x.lens.phase = some ph) {o : LensOutcome} (fixed : Option LensOutcome) (late : Bool)
  (ho : fixed.getD (phaseOutcome late ph.targets) = o)
include hph ho

/-- The phase ends with its EXPOSE queued (R96, R98). -/
theorem Shows.phaseExposes (hd : ¬ DropsLate x.lens o) :
    let l := lensRecordEnds s p .ok e o ph.flags ph.targets ph.started s.trig.clock
    Shows s (endPhase p fixed late v)
      (atPort p (listing (pre ++ phased e o ph.flags :: post)
        { unphased x with ctl := { x.ctl with exposes := x.ctl.exposes ++ [e.trigger] } }) y { s with chain := l.1 }) (l.2 ++ w) := by
  have ended := h.phaseOver hp htr hheld hts o
  have queued := (ended.atCtl fun c => { c with exposes := c.exposes ++ [e.trigger] }).entryChanges
    (hp.relisted (e' := { e with outcome := o, flags := ph.flags }) rfl) fun e => { e with phase := .exposeQueued }
  rw [endPhase_exposes (by rw [h.lens_atPort]; exact hph) (by rw [h.frame_atPort, htr]; exact hp.find) ho
    (by rw [ended.lens_atPort]; exact hd), htr]
  exact queued

/-- The phase ends with its entry dropped (R97). -/
theorem Shows.phaseDrops (hd : DropsLate x.lens o) (hset : e.set = none) (hr : ∀ f, x.frame.recv ≠ .filling f) :
    let l := lensRecordEnds s p .ok e o ph.flags ph.targets ph.started s.trig.clock
    Shows s (endPhase p fixed late v)
      (atPort p (listing (pre ++ post) { unphased x with ctl := without e.trigger x.ctl }) y
        { s with chain := afterCompletionOf ⟨1 + p.val, by omega⟩ .frames e.image l.1 })
      (imageWrites s p l.1 e (if o = .late then 55 else 56) (closeBytes x.frame (phased e o ph.flags) none 0 s.trig.clock)
        ++ (l.2 ++ w)) := by
  have ended := h.phaseOver hp htr hheld hts o
  have due := ended.entryChanges (hp.relisted (e' := { e with outcome := o, flags := ph.flags }) rfl)
    fun e => { e with phase := .exposeQueued }
  have closed (st : Code) := fun hst => (due.pastPhase (e := phased e o ph.flags) ⟨nofun, nofun⟩ p st).entryGone due.frame_atPort
    (hp.relisted rfl) hset hr hst
  rw [endPhase_drops (by rw [h.lens_atPort]; exact hph) (by rw [h.frame_atPort, htr]; exact hp.find) ho
    (by rw [ended.lens_atPort]; exact hd), htr]
  by_cases lost : o = .late
  · rw [if_pos lost, if_pos lost]
    exact closed .lensLate rfl
  · rw [if_neg lost, if_neg lost]
    exact closed .lensFailed rfl

end

/-! ## After a phase -/

/-- No phase starts while no entry waits for one (R91). -/
theorem Shows.noneAdvances (h : Shows s v (atPort p x y b) w) (hs : ∀ o ∈ x.frame.entries, o.phase ≠ .lensWait) (n : Nat) :
    Shows s (advancePhases p n v) (atPort p x y b) w := by
  cases n with
  | zero => exact h
  | succ n =>
    unfold advancePhases
    rw [h.frame_atPort]
    split
    · exact h
    · rename_i o first
      rwa [if_neg (hs o (List.mem_of_find?_eq_some first))]

section
variable (h : Shows s v (atPort p x y s) []) (hp : Picks x.frame.entries pre e []) (hpre : ∀ o ∈ pre, o.phase ≠ .lensWait)
  (htr : ph.trigger = e.trigger) (hheld : x.lens.held = []) (hts : e.lensPairs ≠ none → ph.targets.length ≤ 4)
  (hph : x.lens.phase = some ph) {o : LensOutcome} {fixed : Option LensOutcome} {late : Bool}
  (ho : fixed.getD (phaseOutcome late ph.targets) = o) (hx : x.ctl.exposes = [])
include h hp hpre htr hheld hts hph ho hx

/-- The last entry's phase ends, and its EXPOSE is the only one that waits (R98). -/
theorem Shows.phaseEnds_queued (hd : ¬ DropsLate x.lens o) (n : Nat) :
    let l := lensRecordEnds s p .ok e o ph.flags ph.targets ph.started s.trig.clock
    Shows s (advancePhases p n (endPhase p fixed late v))
      (atPort p (listing (pre ++ [phased e o ph.flags]) { unphased x with ctl := { x.ctl with exposes := [e.trigger] } }) y
        { s with chain := l.1 }) l.2 := by
  have ended := h.phaseExposes hp htr hheld hts hph fixed late ho hd
  intro l
  rw [hx] at ended
  rw [← List.append_nil l.2]
  exact ended.noneAdvances (List.forall_mem_append.mpr ⟨hpre, List.forall_mem_singleton.mpr nofun⟩) n

/-- The last entry's phase ends on an IDLE channel, and its EXPOSE begins (R50, R98). -/
theorem Shows.phaseEnds_exposing (hi : x.ctl.state = .idle) (hd : ¬ DropsLate x.lens o) (n : Nat) :
    let l := lensRecordEnds s p .ok e o ph.flags ph.targets ph.started s.trig.clock
    Shows s (arbitrate p (advancePhases p n (endPhase p fixed late v)))
      (atPort p (listing (pre ++ [phased e o ph.flags]) { unphased x with ctl := begins (.expose e.trigger) x.ctl })
        (⟨p, .header 0 true 16⟩ :: ⟨p, .startMark⟩ :: y) { s with chain := l.1 }) l.2 := by
  have queued := h.phaseEnds_queued hp hpre htr hheld hts hph ho hx hd n
  exact (queued.chooses_expose (n := e.trigger) (rest := []) hi rfl).ctl_eq
    (congrArg (fun l => begins (.expose e.trigger) { x.ctl with exposes := l }) hx.symm)

variable (hm : x.ctl.lensMsgs = []) (hd : DropsLate x.lens o) (hset : e.set = none) (hr : ∀ f, x.frame.recv ≠ .filling f)
include hm hd hset hr

/-- The last entry's phase ends, and its entry is dropped (R97). -/
theorem Shows.phaseEnds_dropped (n : Nat) :
    let l := lensRecordEnds s p .ok e o ph.flags ph.targets ph.started s.trig.clock
    Shows s (advancePhases p n (endPhase p fixed late v))
      (atPort p (listing pre (unphased x)) y { s with chain := afterCompletionOf ⟨1 + p.val, by omega⟩ .frames e.image l.1 })
      (imageWrites s p l.1 e (if o = .late then 55 else 56) (closeBytes x.frame (phased e o ph.flags) none 0 s.trig.clock) ++ l.2) := by
  have ended := h.phaseDrops hp htr hheld hts hph fixed late ho hd hset hr
  intro l
  rw [without_idle hx hm, List.append_nil] at ended
  rw [← List.append_nil l.2]
  exact ended.noneAdvances hpre n

/-- The last entry's phase ends with nothing waiting on the channel, and its entry is dropped (R50, R97). -/
theorem Shows.phaseEnds_dropping (hh : x.ctl.heads = []) (n : Nat) :
    let l := lensRecordEnds s p .ok e o ph.flags ph.targets ph.started s.trig.clock
    Shows s (arbitrate p (advancePhases p n (endPhase p fixed late v)))
      (atPort p (listing pre (unphased x)) y { s with chain := afterCompletionOf ⟨1 + p.val, by omega⟩ .frames e.image l.1 })
      (imageWrites s p l.1 e (if o = .late then 55 else 56) (closeBytes x.frame (phased e o ph.flags) none 0 s.trig.clock) ++ l.2) :=
  (h.phaseEnds_dropped hp hpre htr hheld hts hph ho hx hm hd hset hr n).chooses_none hx hm hh

end

end Sys2Proof.Machine
end

section
/-! PROOFS. The answers in EXPOSE and LENS transactions, by the instructions that bring them (R44 to R48, R85, R94, R108). -/

namespace Sys2Proof.Machine

variable {s v u b : State} {w : List BusEvent} {p : PortId} {x : Port} {y : List CableEvent} {t : Txn} {a : UnitPart} {e : Entry}
  {pre post : List Entry} {ph : LensPhase} {m : LensMessage} {k : UnitId} {code : Nat} {i : Instr}

/-! ## The answers to parts of one word -/

section answers
variable (hstate : (s.port p).ctl.state = .sending) (htxn : (s.port p).ctl.txn = some t) (ha : currentPart t = some a)
include hstate htxn ha

/-- The word of a part is acknowledged, at once or after a HOLD (R44, R46). -/
theorem exec_wordAcknowledged (hone : a.words.length = 1)
    (hi : t.stage = .word 0 ∧ i = .unitAnswer p true ∨ t.stage = .hold ∧ i = .holdAnswer p true) :
    exec i s = .next (flushMirrors (partDone p { t with acked := t.acked + 1 } s)) := by
  rcases hi with ⟨hst, rfl⟩ | ⟨hst, rfl⟩
  · exact congrArg endCommand
      ((answered_word hstate htxn hst).trans (wordAcked_last ha (by rw [hone]) s))
  · exact congrArg endCommand (holdAnswered_hold hstate htxn hst true)

/-- A part is refused: a NACK, at once or after a HOLD, or a HOLD of its header (R45, R46, log 29). -/
theorem exec_partRefused (hi : (t.stage = .header ∨ t.stage = .word 0) ∧ i = .unitAnswer p false ∨
    t.stage = .hold ∧ i = .holdAnswer p false ∨ t.stage = .header ∧ i = .holdSign p) :
    exec i s = .next (flushMirrors (finishTxn p .nack s)) := by
  rcases hi with ⟨hst, rfl⟩ | ⟨hst, rfl⟩ | ⟨hst, rfl⟩
  · exact congrArg endCommand (answered_nack hstate htxn (.inl (hst.imp_right fun hst => ⟨0, hst⟩)))
  · exact congrArg endCommand (holdAnswered_hold hstate htxn hst false)
  · exact congrArg endCommand (holdSigned_nack hstate htxn ha (.inl hst))

end answers

/-- An answer stays out (R47). -/
theorem exec_unanswered (hstate : (s.port p).ctl.state = .sending) (htxn : (s.port p).ctl.txn = some t)
    (hi : (s.port p).ctl.replyTimer.isSome = true ∧ i = .replyTimeout p ∨ (s.port p).ctl.holdTimer.isSome = true ∧ i = .holdLimit p) :
    exec i s = .next (flushMirrors (finishTxn p .noReply s)) := by
  rcases hi with ⟨ht, rfl⟩ | ⟨ht, rfl⟩
  · exact congrArg endCommand (replyExpired_running hstate htxn ht)
  · exact congrArg endCommand (holdExpired_running hstate htxn ht)

/-! ## EXPOSE -/

theorem currentPart_expose {n : U32} (hm : t.message = .expose n) (hpart : t.part = 0) :
    currentPart t = some { unit := 0, write := true, address := 16, words := [triggerTag n], count := 1 } := by
  unfold currentPart
  rw [hm, hpart]
  rfl

/-- An entry whose EXPOSE has been acknowledged (R108). -/
abbrev exposedAt (now : U64) (limit : Nat) (e : Entry) : Entry := { e with phase := .exposed, exposedAt := now, timer := some limit }

/-- An EXPOSE is acknowledged; then the next lens phase may start (R91, R108). -/
theorem handResult_exposed {n : U32} (hm : t.message = .expose n) (s : State) : handResult p t .acknowledged s =
    advanceLens p (modEntry p n (exposedAt s.now (s.port p).frame.limitMs) s) := by
  unfold handResult
  rw [hm]
  rfl

/-- The code of an entry whose EXPOSE is refused or stays unanswered (R108). -/
abbrev exposeCode (r : TxnEnd) : Code := if r = .noReply then .noReply else .exposeRefused

theorem handResult_unexposed {n : U32} (hm : t.message = .expose n) {r : TxnEnd} (hr : r ≠ .acknowledged) (s : State) :
    handResult p t r s = advanceLens p (closeEntry p n (exposeCode r) 0 s) := by
  unfold handResult
  rw [hm]
  cases r with
  | acknowledged => exact absurd rfl hr
  | nack | noReply => rfl

/-- An entry's EXPOSE is acknowledged, and the transaction ends (R45, R108). -/
theorem Shows.exposeAcknowledged (h : Shows s v (atPort p x y b) w) (htxn : x.ctl.txn = some t) (hm : t.message = .expose e.trigger)
    (hp : Picks x.frame.entries pre e post) : ∃ v', finishTxn p .acknowledged v = arbitrate p (advanceLens p v') ∧
      Shows s v' (atPort p (listing (pre ++ exposedAt b.trig.clock x.frame.limitMs e :: post) { x with ctl := freed x.ctl })
        (⟨p, .endMark⟩ :: y) b) w := by
  have free := h.frees .acknowledged
  refine ⟨_, ?_, free.entryChanges hp (exposedAt b.trig.clock x.frame.limitMs)⟩
  rw [finishTxn_some (by rwa [h.ctl_atPort]) (.inr rfl), handResult_exposed hm, free.now_atPort, free.frame_atPort]

/-- The only entry's EXPOSE is acknowledged with nothing else waiting on the channel (R108). -/
theorem Shows.exposeEnds (h : Shows s v (atPort p x y b) w) (htxn : x.ctl.txn = some t) (hm : t.message = .expose e.trigger)
    (hp : x.frame.entries = [e]) (hx : x.ctl.exposes = []) (hl : x.ctl.lensMsgs = []) (hh : x.ctl.heads = []) :
    Shows s (finishTxn p .acknowledged v)
      (atPort p (listing [exposedAt b.trig.clock x.frame.limitMs e] { x with ctl := freed x.ctl }) (⟨p, .endMark⟩ :: y) b) w := by
  obtain ⟨v', ended, exposed⟩ := h.exposeAcknowledged htxn hm (.single hp)
  rw [ended]
  exact (exposed.noneAdvances (List.forall_mem_singleton.mpr nofun) _).chooses_none hx hl hh

/-- The only entry's EXPOSE fails with nothing else waiting on the channel, and the entry closes (R108). -/
theorem Shows.exposeFails (h : Shows s v (atPort p x y b) w) (htxn : x.ctl.txn = some t) (hm : t.message = .expose e.trigger)
    (hp : x.frame.entries = [e]) (hphase : e.phase = .exposeQueued) (hset : e.set = none) (hr : ∀ f, x.frame.recv ≠ .filling f)
    (hx : x.ctl.exposes = []) (hl : x.ctl.lensMsgs = []) (hh : x.ctl.heads = []) {r : TxnEnd} (ha : r ≠ .acknowledged) :
    Shows s (finishTxn p r v)
      (atPort p (listing [] { x with ctl := freed x.ctl }) (⟨p, markOf r⟩ :: y)
        { b with chain := afterCompletionOf ⟨1 + p.val, by omega⟩ .frames e.image b.chain })
      (imageWrites s p b.chain e (codeNumber (exposeCode r)) (closeBytes x.frame e none 0 b.trig.clock) ++ w) := by
  have free := h.frees r
  have closed := (free.pastPhase (e := e) ⟨by rw [hphase]; exact nofun, by rw [hphase]; exact nofun⟩ p (exposeCode r)).entryGone
    free.frame_atPort (.single hp) hset hr (by cases r <;> rfl)
  have listed := closed.ctl_eq (x := listing [] x) (without_idle (c := freed x.ctl) hx hl)
  rw [finishTxn_some (by rwa [h.ctl_atPort]) (.inl (by rw [hm]; rfl)), handResult_unexposed hm ha]
  exact (listed.noneAdvances (fun _ ho => absurd ho List.not_mem_nil) _).chooses_none hx hl hh

/-! ## LENS -/

/-- The part of a LENS message for a unit and its code (R48, R94). -/
abbrev lensPart (q : UnitId × Nat) : UnitPart :=
  { unit := q.1.val + 1, write := true, address := 0, words := [BitVec.ofNat 16 q.2], count := 1 }

theorem messageParts_lens (m : LensMessage) (n : Nat) : (messageParts (.lens m))[n]? = m.parts[n]?.map lensPart := List.getElem?_map ..

theorem currentPart_lens (hm : t.message = .lens m) (hk : m.parts[t.part]? = some (k, code)) :
    currentPart t = some (lensPart (k, code)) := by
  unfold currentPart
  rw [hm, messageParts_lens, hk]
  rfl

/-- The targets once a unit has acknowledged its part (R94). -/
abbrev movedTargets (k : UnitId) (ts : List Target) : List Target :=
  ts.map fun y => if y.unit = k then { y with result := some .moved } else y

/-- A unit has acknowledged its part (R85, R94). -/
theorem Shows.partMoves (h : Shows s v (atPort p x y b) w) (hph : x.lens.phase = some ph) (hm : t.message = .lens m)
    (hk : m.parts[t.part]? = some (k, code)) : Shows s (lensPartDone p t v)
      (atPort p { x with lens := judged ph (movedTargets k ph.targets) (some k) (some code) x.lens } y b) w := by
  have moved := (h.atLens fun l => { l with known := l.known.set k (some code) }).atLens fun l => { l with
    phase := l.phase.map fun ph => { ph with targets := movedTargets k ph.targets } }
  rw [hph] at moved
  unfold lensPartDone
  rw [hm]
  dsimp only
  rw [hk]
  exact moved

theorem partDone_next (hnext : (messageParts t.message)[t.part + 1]? = some a) (s : State) : partDone p t s =
    sendHeader p a (sendSymbol p .continuationMark
      (awaitAnswer p { t with part := t.part + 1, stage := .header, acked := 0 } (lensPartDone p t s))) := by
  unfold partDone
  rw [hnext]

theorem partDone_end (hnext : (messageParts t.message)[t.part + 1]? = none) (s : State) : partDone p t s =
    finishTxn p .acknowledged (modCtl p (fun c => { c with txn := some t }) (lensPartDone p t s)) := by
  unfold partDone
  rw [hnext]

theorem handResult_lens (hm : t.message = .lens m) (r : TxnEnd) (s : State) :
    handResult p t r s = advanceLens p (endPhase p none false s) := by
  unfold handResult
  rw [hm]

/-- A LENS transaction fails: its unit in progress is REFUSED first (R45, R47, R94). -/
theorem finishTxn_refused (htxn : (s.port p).ctl.txn = some t) (hm : t.message = .lens m) {r : TxnEnd} (hr : r ≠ .acknowledged) :
    finishTxn p r s = arbitrate p (handResult p t r (freeing p r (settleTargets p .refused s))) := by
  unfold finishTxn
  rw [htxn]
  dsimp only
  rw [if_pos (show isLensMessage t.message = true ∧ r ≠ .acknowledged from ⟨by rw [hm]; rfl, hr⟩)]
  rfl

theorem phaseOutcome_answered (ts : List Target) : phaseOutcome false ts =
    if ∃ y ∈ ts, y.result = some .refused ∨ y.result = some .absent then .failed
    else if ∃ y ∈ ts, y.result = some .moved then .moved else .unchanged := by
  unfold phaseOutcome
  simp only [Bool.false_eq_true, if_false, List.any_eq_true, Bool.or_eq_true, decide_eq_true_eq]

section lensEnds
variable (h : Shows s v (atPort p x y b) w) (hph : x.lens.phase = some ph) (hm : t.message = .lens m)
  (hk : m.parts[t.part]? = some (k, code))
include h hph hm hk

/-- The last unit acknowledges its part, and the transaction ends (R44, R85, R94). -/
theorem Shows.lensAcknowledged (hnext : m.parts[t.part + 1]? = none) : ∃ v',
    partDone p t v = arbitrate p (advanceLens p (endPhase p none false v')) ∧
    Shows s v' (atPort p
      { x with lens := judged ph (movedTargets k ph.targets) (some k) (some code) x.lens, ctl := freed x.ctl }
      (⟨p, .endMark⟩ :: y) b) w := by
  have last := (h.partMoves hph hm hk).atCtl fun c => { c with txn := some t }
  refine ⟨_, ?_, last.frees .acknowledged⟩
  rw [partDone_end (by rw [hm, messageParts_lens, hnext]; rfl), finishTxn_some (by rw [last.ctl_atPort]) (.inr rfl), handResult_lens hm]

/-- A unit refuses its part or does not answer, and the transaction ends (R45, R47, R94). -/
theorem Shows.lensRefused (htxn : x.ctl.txn = some t) {r : TxnEnd} (hr : r ≠ .acknowledged) : ∃ v',
    finishTxn p r v = arbitrate p (advanceLens p (endPhase p none false v')) ∧
    Shows s v' (atPort p
      { x with lens := judged ph (settled (some k) .refused ph.targets) (some k) none x.lens, ctl := freed x.ctl } (⟨p, markOf r⟩ :: y) b)
      w := by
  have refused := h.settles hph (lensUnitInProgress_some htxn hm hk) .refused
  exact ⟨_, by rw [finishTxn_refused (by rwa [h.ctl_atPort]) hm hr, handResult_lens hm], refused.frees r⟩

end lensEnds

end Sys2Proof.Machine
end

section
/-! PROOFS. The answers in HEAD_ACCESS, EXPOSE and LENS transactions, put together (R44 to R48, R59, R85, R94 to R99, R108). -/

namespace Sys2Proof.Machine

variable {s v u b : State} {w : List BusEvent} {p : PortId} {x : Port} {y : List CableEvent} {t : Txn} {a : UnitPart} {e : Entry}
  {pre post : List Entry} {ph : LensPhase} {m : LensMessage} {k : UnitId} {code : Nat} {i : Instr}

theorem currentPart_access {h : HeadAccess} (hm : t.message = .access h) (hpart : t.part = 0) : currentPart t = some h.part := by
  unfold currentPart
  rw [hm, hpart]
  rfl

theorem holdLimitOf_other {m : Message} (h : isLensMessage m = false) : holdLimitOf m = some 50 := by
  unfold holdLimitOf
  rw [h]
  rfl

theorem frameless_length (q : FrameRx) (e : Entry) (now : U64) : (closeBytes q e none 0 now).length = 0x84 :=
  closeBytes_length (by simp) q e 0 now

/-- Once every unit has its answer the phase is not late (R96). -/
theorem phaseOutcome_not_late (ts : List Target) : phaseOutcome false ts ≠ .late := by
  rw [phaseOutcome_answered]
  split
  · exact nofun
  · split <;> exact nofun

/-- Settles O50: an answer sends the next symbol, or ends the transaction by the rule for its message. -/
theorem headAccessAnswers : Obligations.HeadAccessAnswers := by
  refine ⟨?_, ?_, ?_⟩
  · intro p h x s _ hstate htxn hm hpart hx hl hh hk hwords hcount hdata send ended done
    have here : Shows s s (atPort p (s.port p) s.cable s) [] := (Shows.refl s).onePort p
    have ha := currentPart_access hm hpart
    have other : isLensMessage x.message = false := by rw [hm]; rfl
    have next : (messageParts x.message)[x.part + 1]? = none := by rw [hm, hpart]; rfl
    have few : x.data.length ≤ 8 := by
      rcases hdata with hd | hd
      · omega
      · rw [hd]; exact Nat.zero_le 8
    have acked : Shows s (partDone p { x with acked := x.acked + 1 } s) (ended [.endMark]) (done .ok h.part.count x.data) := by
      rw [partDone_last (t := { x with acked := x.acked + 1 }) other next]
      exact (here.atCtl fun c => { c with txn := some { x with acked := x.acked + 1 } }).accessEnds (r := .acknowledged) rfl hm hx hl hh hk
        fun _ => few
    have nacked : Shows s (finishTxn p .nack s) (ended [.endMark]) (done .nack x.acked []) :=
      here.accessEnds (r := .nack) htxn hm hx hl hh hk nofun
    refine ⟨fun hst hw => ⟨_, rfl, Shows.ends ?_⟩, fun hst hw => ⟨_, rfl, Shows.ends ?_⟩, fun n hst hn => ⟨_, rfl, Shows.ends ?_⟩,
      fun n hst hn => ⟨_, rfl, Shows.ends ?_⟩, fun n hst hn => ⟨_, rfl, Shows.ends ?_⟩, fun hst => ⟨_, rfl, Shows.ends ?_⟩,
      fun hst => ⟨_, rfl, Shows.ends ?_⟩, fun hst => ⟨_, rfl, Shows.ends ?_⟩, fun hst hd => ⟨_, rfl, Shows.ends ?_⟩,
      fun hst => ⟨_, rfl, Shows.ends ?_⟩, fun d hst hd => ⟨_, rfl, Shows.ends ?_⟩, fun d hst hd => ⟨_, rfl, Shows.ends ?_⟩⟩
    · rw [answered_header hstate htxn hst, headerAcked_write ha hw]
      exact (here.atCtl _).atSymbol _
    · rw [answered_header hstate htxn hst, headerAcked_read ha hw]
      exact (here.atCtl _).atSymbol _
    · rw [answered_word hstate htxn hst, wordAcked_next ha hn]
      exact (here.atCtl _).atSymbol _
    · rw [answered_word hstate htxn hst, wordAcked_last ha hn]
      exact acked
    · rw [holdSigned_final hstate htxn hst ha hn, holdLimitOf_other other]
      exact here.atCtl _
    · rw [holdAnswered_hold hstate htxn hst]
      exact acked
    · rw [holdAnswered_hold hstate htxn hst]
      exact nacked
    · rw [answered_nack hstate htxn (.inl hst)]
      exact nacked
    · rw [answered_nack hstate htxn (.inr ⟨hst, hd⟩)]
      exact nacked
    · rw [holdSigned_nack hstate htxn ha hst]
      exact nacked
    · rw [dataWord_next hstate htxn hst ha hd]
      exact here.atCtl _
    · rw [dataWord_last hstate htxn hst ha hd]
      refine (here.atCtl _).accessEnds (r := .acknowledged) (t := { x with data := x.data ++ [d] }) rfl hm hx hl hh hk fun _ => ?_
      rw [List.length_append]
      rcases hdata with hd | hd
      · exact Nat.le_trans hd hcount
      · rw [hd]; exact Nat.le_add_left 1 7
  · intro p e x s _ hstate htxn hm hpart hentries hphase hset hr hx hl hh ended
    have here : Shows s s (atPort p (s.port p) s.cable s) [] := (Shows.refl s).onePort p
    have ha := currentPart_expose hm hpart
    have next : (messageParts x.message)[x.part + 1]? = none := by rw [hm, hpart]; rfl
    have fails {r : TxnEnd} (hne : r ≠ .acknowledged) := here.exposeFails htxn hm hentries hphase hset hr hx hl hh hne
    refine ⟨fun hst => ⟨_, rfl, Shows.ends ?_⟩, fun i hi => ⟨_, exec_wordAcknowledged hstate htxn ha rfl hi, Shows.ends ?_⟩,
      fun hst => ⟨_, rfl, Shows.ends ?_⟩, fun i code mark hi => ?_⟩
    · rw [answered_header hstate htxn hst, headerAcked_write ha rfl]
      exact (here.atCtl _).atSymbol _
    · rw [partDone_last (t := { x with acked := x.acked + 1 }) (by rw [hm]; rfl) next]
      exact (here.atCtl fun c => { c with txn := some { x with acked := x.acked + 1 } }).exposeEnds rfl hm hentries hx hl hh
    · rw [holdSigned_final hstate htxn hst ha rfl, holdLimitOf_other (by rw [hm]; rfl)]
      exact here.atCtl _
    · have body := frameless_length (s.port p).frame e s.trig.clock
      rcases hi with ⟨refused, rfl, rfl⟩ | ⟨silent, rfl, rfl⟩
      · exact ⟨_, _, exec_partRefused hstate htxn ha refused, body, (List.append_nil _ ▸ fails (r := .nack) nofun).ends⟩
      · exact ⟨_, _, exec_unanswered hstate htxn silent, body, (List.append_nil _ ▸ fails (r := .noReply) nofun).ends⟩
  · intro p e ph m x k code s _ hstate htxn hm hk hph htr hts hentries hphase hset hr hheld hx hl hh moved known
    have here : Shows s s (atPort p (s.port p) s.cable s) [] := (Shows.refl s).onePort p
    have ha := currentPart_lens hm hk
    refine ⟨fun hst => ⟨_, rfl, Shows.ends ?_⟩,
      fun v code2 hst hnext => ⟨_, exec_wordAcknowledged hstate htxn ha rfl (.inl ⟨hst, rfl⟩), Shows.ends ?_⟩,
      fun hst => ⟨_, rfl, Shows.ends ?_⟩, fun i ts v mark hi => ?_⟩
    · rw [answered_header hstate htxn hst, headerAcked_write ha rfl]
      exact (here.atCtl _).atSymbol _
    · rw [partDone_next (t := { x with acked := x.acked + 1 }) (a := lensPart (v, code2)) (by rw [hm, messageParts_lens, hnext]; rfl)]
      exact (((here.partMoves hph hm hk).atCtl _).atSymbol _).atSymbol _
    · rw [holdSigned_final hstate htxn hst ha rfl, hm]
      exact here.atCtl _
    · intro outcome lens l
      obtain ⟨u, hexec, few, shown⟩ : ∃ u, exec i s = .next (flushMirrors (arbitrate p (advanceLens p (endPhase p none false u)))) ∧
          ts.length ≤ 4 ∧
          Shows s u (atPort p { s.port p with lens := judged ph ts (some k) v (s.port p).lens, ctl := freed (s.port p).ctl }
            (⟨p, mark⟩ :: s.cable) s) [] := by
        rcases hi with ⟨hnext, rfl, rfl, rfl, acked⟩ | ⟨rfl, rfl, ⟨refused, rfl⟩ | ⟨ht, rfl, rfl⟩⟩
        · obtain ⟨u, hu, shown⟩ := here.lensAcknowledged (t := { x with acked := x.acked + 1 }) hph hm hk hnext
          exact ⟨u, hu ▸ exec_wordAcknowledged hstate htxn ha rfl acked, by rwa [List.length_map], shown⟩
        · obtain ⟨u, hu, shown⟩ := here.lensRefused hph hm hk htxn (r := .nack) nofun
          exact ⟨u, hu ▸ exec_partRefused hstate htxn ha refused, by rwa [settled, List.length_map], shown⟩
        · obtain ⟨u, hu, shown⟩ := here.lensRefused hph hm hk htxn (r := .noReply) nofun
          exact ⟨u, hu ▸ exec_unanswered hstate htxn (.inl ⟨ht, rfl⟩), by rwa [settled, List.length_map], shown⟩
      have found : (none : Option LensOutcome).getD (phaseOutcome false ts) = outcome := phaseOutcome_answered ts
      have intime : outcome ≠ .late := found ▸ phaseOutcome_not_late ts
      refine ⟨fun failed drop => ⟨_, closeBytes (s.port p).frame (phased e outcome ph.flags) none 0 s.trig.clock, hexec,
        frameless_length _ _ _, by rw [closeBytes_outcome, failed]; rfl, ?_⟩, fun hd => ⟨_, hexec, ?_⟩⟩
      · have dropped n := shown.phaseEnds_dropping (.single hentries) (List.forall_mem_nil _) (ph := { ph with targets := ts }) htr hheld
          (fun _ => few) rfl found hx hl ⟨.inr failed, drop⟩ hset hr hh n
        simp only [if_neg intime] at dropped
        exact (dropped _).ends
      · exact (shown.phaseEnds_exposing (.single hentries) (List.forall_mem_nil _) (ph := { ph with targets := ts }) htr hheld
          (fun _ => few) rfl found hx rfl
          (not_dropsLate intime hd) _).ends

end Sys2Proof.Machine
end

section
/-! PROOFS. The lens deadline (R47, R95 to R97), and how a lens phase starts (R90 to R94). -/

namespace Sys2Proof.Machine

variable {s v u b : State} {w : List BusEvent} {p : PortId} {x : Port} {y : List CableEvent} {t : Txn} {e : Entry}
  {pre post : List Entry} {ph : LensPhase} {m : LensMessage}

/-! ## The deadline -/

theorem deadlineExpired_due {ms : Nat} (hph : (s.port p).lens.phase = some ph) (hms : ph.deadline = some ms) :
    deadlineExpired p s = arbitrate p (advanceLens p (endPhase p none true (withdrawLens p (settleTargets p .cut s)))) := by
  unfold deadlineExpired
  rw [hph]
  exact if_pos (by rw [hms]; rfl)

theorem isLensMessage_false (h : ∀ m, t.message ≠ .lens m) : isLensMessage t.message = false := by
  unfold isLensMessage
  split
  · rename_i m hm
    exact absurd hm (h m)
  · rfl

/-- A LENS message that waits leaves its class (R95). -/
theorem Shows.withdrawsWaiting (h : Shows s v (atPort p x y b) w) (hnot : ∀ t m, x.ctl.txn = some t → t.message ≠ .lens m) :
    Shows s (withdrawLens p v) (atPort p { x with ctl := { x.ctl with lensMsgs := [] } } y b) w := by
  have left := h.atCtl fun c => { c with lensMsgs := [] }
  unfold withdrawLens
  split
  · rename_i t sent
    rw [if_neg]
    · exact left
    · have txn : x.ctl.txn = some t := by
        unfold sending at sent
        split at sent
        · exact h.ctl_atPort ▸ sent
        · cases sent
      rw [isLensMessage_false (hnot t · txn)]
      decide
  · exact left

/-- A LENS transaction in progress is abandoned (R47, R95). -/
theorem Shows.withdrawsSending (h : Shows s v (atPort p x y b) w) (hstate : x.ctl.state = .sending) (htxn : x.ctl.txn = some t)
    (hm : t.message = .lens m) :
    Shows s (withdrawLens p v) (atPort p { x with ctl := freed x.ctl } (⟨p, .abortMark⟩ :: y) b) w := by
  unfold withdrawLens
  rw [sending_some (t := t) (by rwa [h.ctl_atPort]) (by rwa [h.ctl_atPort])]
  dsimp only
  rw [if_pos (by rw [hm]; rfl)]
  exact h.frees .noReply

/-! ## The start of a phase -/

/-- The targets of an entry at the start of its phase, judged (R92, R93). -/
def startedTargets (l : LensState) (c : Channel) (e : Entry) : List Target := (phaseTargets l e).1.map (judgeTarget l (presenceOf c))

/-- The phase of an entry at its start (R92, R94, R95). -/
def startedPhase (l : LensState) (c : Channel) (e : Entry) (now : U64) : LensPhase where
  trigger := e.trigger
  started := now
  targets := startedTargets l c e
  flags := (phaseTargets l e).2.2 ||| targetFlags (startedTargets l c e)
  deadline := if (partsToWrite (startedTargets l c e)).isEmpty then none else some l.deadlineMs

/-- The units whose target is clamped (R87). -/
def clampedUnits (ts : List Target) : Vector Bool 4 := Vector.ofFn fun u => ts.any fun t => decide (t.unit = u) && t.clamped

/-- A lens state whose phase has started; `l` and `c` are those of its port at the start. -/
abbrev starting (l : LensState) (c : Channel) (e : Entry) (now : U64) (x : LensState) : LensState :=
  { x with phase := some (startedPhase l c e now), clamped := clampedUnits (startedTargets l c e) }

theorem startPhase_eq (p : PortId) (e : Entry) (s : State) : startPhase p e s =
    let l := (s.port p).lens
    let c := (s.port p).ctl
    let parts := partsToWrite (startedTargets l c e)
    if parts.isEmpty then endPhase p (phaseTargets l e).2.1 false (modLens p (starting l c e s.now) s)
    else modEntry p e.trigger (fun e => { e with phase := .lensMoving })
      (modCtl p (fun c => { c with lensMsgs := c.lensMsgs ++ [⟨e.trigger, parts⟩] }) (modLens p (starting l c e s.now) s)) := rfl

section
variable (h : Shows s v (atPort p x y b) w) (hstart : startedPhase x.lens x.ctl e b.trig.clock = ph) {units : Vector Bool 4}
  (hunits : clampedUnits ph.targets = units)
include h hstart hunits

/-- With no unit to write the phase ends at once (R94). -/
theorem Shows.phaseStarts_ended (hparts : partsToWrite ph.targets = []) :
    ∃ v', startPhase p e v = endPhase p (phaseTargets x.lens e).2.1 false v' ∧
      Shows s v' (atPort p { x with lens := { x.lens with phase := some ph, clamped := units } } y b) w := by
  subst hstart hunits
  refine ⟨_, ?_, h.atLens (starting x.lens x.ctl e b.trig.clock)⟩
  rw [startPhase_eq]
  dsimp only
  rw [h.lens_atPort, h.ctl_atPort, h.now_atPort]
  exact if_pos (List.isEmpty_iff.mpr hparts)

/-- With a unit to write the LENS message waits, and the deadline runs (R94, R95). -/
theorem Shows.phaseStarts_moving (hp : Picks x.frame.entries pre e post) (hparts : partsToWrite ph.targets ≠ []) :
    Shows s (startPhase p e v)
      (atPort p (listing (pre ++ { e with phase := .lensMoving } :: post) { x with
        lens := { x.lens with phase := some ph, clamped := units }
        ctl := { x.ctl with lensMsgs := x.ctl.lensMsgs ++ [⟨e.trigger, partsToWrite ph.targets⟩] } }) y b) w := by
  subst hstart hunits
  have queued := (h.atLens (starting x.lens x.ctl e b.trig.clock)).atCtl fun c => { c with
    lensMsgs := c.lensMsgs ++ [⟨e.trigger, partsToWrite (startedTargets x.lens x.ctl e)⟩] }
  rw [startPhase_eq]
  dsimp only
  rw [h.lens_atPort, h.ctl_atPort, h.now_atPort,
    if_neg (show ¬ (partsToWrite (startedTargets x.lens x.ctl e)).isEmpty = true from fun none => hparts (List.isEmpty_iff.mp none))]
  exact queued.entryChanges hp fun e => { e with phase := .lensMoving }

end

/-- The only entry that waits for its phase is the oldest in lens handling (R91). -/
theorem Shows.nextAdvances (h : Shows s v (atPort p x y b) w) {old : Entry} (hes : x.frame.entries = [old, e])
    (hold : inLensHandling old = false) (hphase : e.phase = .lensWait) :
    advanceLens p v = advancePhases p (v.port p).frame.entries.length (startPhase p e v) := by
  have waits : inLensHandling e = true := by unfold inLensHandling; rw [hphase]
  conv_lhs => unfold advanceLens advancePhases
  rw [show (v.port p).frame.entries.find? inLensHandling = some e by
    rw [h.frame_atPort, hes, List.find?_cons_of_neg (by rw [hold]; decide), List.find?_cons_of_pos waits]]
  exact if_pos hphase

/-! ## What is judged -/

theorem judgeTarget_eq (l : LensState) (c : Channel) (q : UnitId × Int) : judgeTarget l (presenceOf c) q =
    if l.tables[q.1] = [] then { unit := q.1, setpoint := q.2, code := none, result := some .noTable, clamped := false }
    else if ¬ ∃ i ∈ c.identity, i.presence.getLsbD q.1.val = true then
      { unit := q.1, setpoint := q.2, code := none, result := some .absent, clamped := false }
    else { unit := q.1, setpoint := q.2, code := some (lensCode l.tables[q.1] q.2).1, clamped := (lensCode l.tables[q.1] q.2).2
           result := if l.known[q.1] = some (lensCode l.tables[q.1] q.2).1 then some .unchanged else none } := by
  have present : (¬ ∃ i ∈ c.identity, i.presence.getLsbD q.1.val = true) ↔ (!(presenceOf c).getLsbD q.1.val) = true := by
    unfold presenceOf
    cases c.identity <;> simp
  unfold judgeTarget
  simp only [List.isEmpty_iff, present]

theorem judgeTarget_result (l : LensState) (pr : BitVec 4) (q : UnitId × Int) :
    (judgeTarget l pr q).result ∈ [none, some .noTable, some .absent, some .unchanged] := by
  unfold judgeTarget
  split
  · simp
  · split
    · simp
    · dsimp only
      split <;> simp

theorem targetFlags_eq (ts : List Target) : targetFlags ts =
    (if ∃ y ∈ ts, y.clamped = true then 2 else 0) ||| (if ∃ y ∈ ts, y.result = some .noTable then 4 else 0) := by
  unfold targetFlags
  simp only [List.any_eq_true, decide_eq_true_eq]
  rfl

theorem clampedUnits_eq (ts : List Target) :
    clampedUnits ts = Vector.ofFn fun u => decide (∃ y ∈ ts, y.unit = u ∧ y.clamped = true) := by
  unfold clampedUnits
  congr 1
  funext u
  rw [Bool.eq_iff_iff]
  simp

theorem partsToWrite_eq (ts : List Target) : partsToWrite ts = ([0, 1, 2, 3] : List UnitId).filterMap fun u =>
    (ts.find? fun y => decide (y.unit = u ∧ y.result = none)).bind fun y => y.code.map fun code => (u, code) := by
  unfold partsToWrite
  congr 1
  funext u
  have same : (fun t : Target => decide (t.unit = u) && t.result.isNone) = fun y => decide (y.unit = u ∧ y.result = none) := by
    funext y
    rw [Bool.eq_iff_iff]
    simp
  rw [same]
  cases ts.find? fun y => decide (y.unit = u ∧ y.result = none) <;> rfl

/-- Does an entry take the fallback of its port (R90)? -/
abbrev FallsBack (l : LensState) (e : Entry) : Prop := e.lensPairs = none ∧ l.policy = .fallback

/-- The pairs, the outcome already fixed and the flags of an entry at the start of its phase (R90, R92). -/
theorem phaseTargets_eq (l : LensState) (e : Entry) :
    let pairs := if l.chain = false then [] else e.lensPairs.getD (if FallsBack l e then l.fallback else [])
    phaseTargets l e = (pairs,
      if l.chain = false then some .none else if pairs = [] ∧ e.lensPairs = none then some .held else none,
      (if l.chain = true ∧ FallsBack l e then 1 else 0)
        ||| (if l.chain = true ∧ e.lensPairs = none ∧ e.badLens = true then 8 else 0)) := by
  unfold phaseTargets FallsBack
  cases l.chain with
  | false => simp
  | true =>
    cases e.lensPairs with
    | some ps => simp
    | none =>
      cases l.policy with
      | hold | skipTake => simp [lensFlagBadRecord]
      | fallback => cases l.fallback <;> cases e.badLens <;> simp [lensFlagBadRecord, lensFlagFallback]

/-- A phase with nothing to write is failed by an absent unit only (R93, R96). -/
theorem phaseOutcome_judged {l : LensState} {c : Channel} {e : Entry} : phaseOutcome false (startedTargets l c e) =
    if ∃ y ∈ startedTargets l c e, y.result = some .absent then .failed else .unchanged := by
  have judged : ∀ y ∈ startedTargets l c e, y.result ∈ [none, some .noTable, some .absent, some .unchanged] := by
    intro y hy
    obtain ⟨q, -, rfl⟩ := List.mem_map.mp hy
    exact judgeTarget_result ..
  have refused : (∃ y ∈ startedTargets l c e, y.result = some .refused ∨ y.result = some .absent) ↔
      ∃ y ∈ startedTargets l c e, y.result = some .absent := by
    refine exists_congr fun y => and_congr_right fun hy => or_iff_right fun r => ?_
    have among := judged y hy
    rw [r] at among
    simp at among
  have moved : ¬ ∃ y ∈ startedTargets l c e, y.result = some .moved := by
    rintro ⟨y, hy, r⟩
    have among := judged y hy
    rw [r] at among
    simp at among
  rw [phaseOutcome_answered, if_neg moved]
  simp only [refused]

end Sys2Proof.Machine
end

section
/-! PROOFS. The lens deadline, the start of a phase, and a lens record closed in it, put together (R90 to R100). -/

namespace Sys2Proof.Machine

variable {s v u b : State} {w : List BusEvent} {p : PortId} {x : Port} {y : List CableEvent} {t : Txn} {e : Entry}
  {pre post : List Entry} {ph : LensPhase} {m : LensMessage}

theorem startedTargets_eq (l : LensState) (c : Channel) (e : Entry) :
    startedTargets l c e = (if l.chain = false then [] else e.lensPairs.getD (if FallsBack l e then l.fallback else [])).map fun q =>
      if l.tables[q.1] = [] then { unit := q.1, setpoint := q.2, code := none, result := some .noTable, clamped := false }
      else if ¬ ∃ i ∈ c.identity, i.presence.getLsbD q.1.val = true then
        { unit := q.1, setpoint := q.2, code := none, result := some .absent, clamped := false }
      else { unit := q.1, setpoint := q.2, code := some (lensCode l.tables[q.1] q.2).1, clamped := (lensCode l.tables[q.1] q.2).2
             result := if l.known[q.1] = some (lensCode l.tables[q.1] q.2).1 then some .unchanged else none } := by
  unfold startedTargets
  rw [phaseTargets_eq]
  exact List.map_congr_left fun q _ => judgeTarget_eq l c q

theorem fixedOutcome_getD {c d : Prop} [Decidable c] [Decidable d] (o : LensOutcome) :
    (if c then some .none else if d then some .held else none : Option LensOutcome).getD o = if c then .none else if d then .held else o := by
  split
  · rfl
  · split <;> rfl

theorem fixedOutcome_not_late {c d : Prop} [Decidable c] [Decidable d] {o : LensOutcome} (ho : o ≠ .late) :
    (if c then some .none else if d then some .held else none : Option LensOutcome).getD o ≠ .late := by
  rw [fixedOutcome_getD]
  split
  · exact nofun
  · split
    · exact nofun
    · exact ho

theorem startOutcome_not_late (l : LensState) (e : Entry) (ts : List Target) :
    (phaseTargets l e).2.1.getD (phaseOutcome false ts) ≠ .late := by
  rw [phaseTargets_eq]
  exact fixedOutcome_not_late (phaseOutcome_not_late ts)

theorem startedTargets_length (l : LensState) (c : Channel) {ps : List (UnitId × Int)} (hps : e.lensPairs = some ps) :
    (startedTargets l c e).length ≤ ps.length := by
  unfold startedTargets phaseTargets
  rw [List.length_map, hps]
  split
  · exact Nat.zero_le _
  · exact Nat.le_refl _

/-! ## A lens record closed in its phase, or before it -/

theorem closeAll_only (h : ((settleTargets p .cut s).port p).frame.entries = [e]) (st : Code) : closeAll p st s =
    afterCloses p (closeEntry p e.trigger st 0 (settleTargets p .cut s)) := by
  unfold closeAll entriesOf
  dsimp only
  rw [h]
  rfl

theorem stopDiscarding_idle (h : (s.port p).frame.recv = .idle) : SameDevice (stopDiscarding p s) s := by
  unfold stopDiscarding modFrame
  refine sameDevice_modPort ?_
  generalize s.port p = q at h
  obtain ⟨_, _, _, _, _, frame, _, _, _, _, _⟩ := q
  cases frame
  cases h
  rfl

/-- What follows the closes of a port that discards nothing and holds no table (R86, R100, R122). -/
theorem Shows.closesOver (h : Shows s v (atPort p x y b) w) (hrecv : x.frame.recv = .idle) (hheld : x.lens.held = []) :
    Shows s (afterCloses p v) (atPort p (unphased x) y b) w := by
  have lens : ({ x.lens with phase := none, held := [] } : LensState) = { x.lens with phase := none } := by rw [← hheld]
  have ended := h.atLens fun l => { l with phase := none }
  have stopped := ended.still ((stopDiscarding_idle (by rw [ended.frame_atPort]; exact hrecv)).trans ended.device) rfl rfl rfl
  unfold afterCloses
  rw [applyHeld_idle (by rw [stopped.lens_atPort]; exact hheld)]
  exact (stopped.atLens fun l => { l with held := [] }).port_eq (congrArg (fun l => { x with lens := l }) lens)

/-- The only entry of a port closes without a frame, once its lens record is done with (R100, R122). -/
theorem Shows.closesOnly {st : Code} (h : Shows s (closeLensShare p e st (settleTargets p .cut v)) (atPort p x y b) w)
    (hv : ((settleTargets p .cut v).port p).frame = x.frame) (hes : x.frame.entries = [e]) (hset : e.set = none)
    (hrecv : x.frame.recv = .idle) (hheld : x.lens.held = []) (hx : x.ctl.exposes = []) (hl : ∀ m ∈ x.ctl.lensMsgs, m.trigger = e.trigger)
    (hst : doneClass st = false) :
    Shows s (closeAll p st v)
      (atPort p (unphased (listing [] { x with ctl := { x.ctl with lensMsgs := [] } })) y
        { b with chain := afterCompletionOf ⟨1 + p.val, by omega⟩ .frames e.image b.chain })
      (imageWrites s p b.chain e (codeNumber st) (closeBytes x.frame e none 0 b.trig.clock) ++ w) := by
  have gone := h.entryGone hv (.single hes) hset (by rw [hrecv]; exact nofun) hst
  rw [without_none hx hl] at gone
  rw [closeAll_only (by rw [hv, hes])]
  exact gone.closesOver hrecv hheld

/-- The share of the Lens Controller in the close of an entry that waits for its phase (R100). -/
theorem closeLensShare_waiting {ps : List (UnitId × Int)} (hphase : e.phase = .lensWait) (hps : e.lensPairs = some ps) (st : Code)
    (s : State) : closeLensShare p e st s = lensRecordDone p st e .none 0 (waitingTargets ps) 0 0 s := by
  unfold closeLensShare lensRecordDone
  rw [hphase, hps]
  cases e.lensRec <;> rfl

/-- The share of the Lens Controller in the close of an entry in its phase (R100, log 26). -/
theorem closeLensShare_moving (hphase : e.phase = .lensMoving) (hph : (s.port p).lens.phase = some ph) (st : Code) :
    closeLensShare p e st s =
      lensRecordDone p st e .none ph.flags ph.targets ph.started 0 (modLens p (fun l => { l with phase := none }) s) := by
  unfold closeLensShare
  rw [hphase]
  dsimp only
  rw [hph]
  rfl

/-- A completion leaves the cause of ALERTS and its enable alone (R185). -/
theorem afterCompletionOf_alerts (i : Fin 17) (g : GatherGroup) (a : Addr) (c : ChainEngine) :
    (afterCompletionOf i g a c).cause.getLsbD 2 = c.cause.getLsbD 2 ∧ (afterCompletionOf i g a c).enable = c.enable := by
  unfold afterCompletionOf
  cases g with
  | frames | commands =>
    refine ⟨?_, rfl⟩
    dsimp only [setGatherOf]
    split
    · simp [gatherGroup, groupBit]
    · rfl

theorem lensRecordEnds_alerts (s : State) (p : PortId) (code : Code) (e : Entry) (o : LensOutcome) (f : BitVec 4) (ts : List Target)
    (a b : U64) : let c := (lensRecordEnds s p code e o f ts a b).1
    c.cause.getLsbD 2 = s.chain.cause.getLsbD 2 ∧ c.enable = s.chain.enable := by
  unfold lensRecordEnds
  cases e.lensRec with
  | none => exact ⟨rfl, rfl⟩
  | some a =>
    cases e.lensPairs with
    | none => exact ⟨rfl, rfl⟩
    | some ps => exact afterCompletionOf_alerts ..

theorem alertMessage_chain {c : ChainEngine} (hcause : c.cause.getLsbD 2 = s.chain.cause.getLsbD 2) (henable : c.enable = s.chain.enable)
    (p : PortId) (bit : Nat) : alertMessage p bit { s with chain := c } = alertMessage p bit s := by
  unfold alertMessage
  dsimp only
  rw [hcause, henable]
  rfl

/-- A port whose only entry has closed at a restart of its head, and that identifies the head anew (R54, R55, R100). -/
abbrev restartedPort (q : Port) : Port := { q with
  ctl := reidentifying { q.ctl with lensMsgs := [] }
  lens := forgotten { q.lens with phase := none }
  frame := { q.frame with entries := [] } }

/-- Settles O57: each case ends a lens phase or closes its entry, by the rules for those above. -/
theorem lensDeadline : Obligations.LensDeadline := by
  refine ⟨?_, ?_, ?_⟩
  · intro p e ph ms s _ hph hms hentries htr hts hphase hset hr hheld hx c late drops after closed
    have here : Shows s s (atPort p (s.port p) s.cable s) [] := (Shows.refl s).onePort p
    have exec_due : exec (.lensDeadline p) s = .next (flushMirrors _) := congrArg endCommand (deadlineExpired_due hph hms)
    have few (cur : Option UnitId) : (settled cur .cut ph.targets).length ≤ 4 := by rwa [settled, List.length_map]
    refine ⟨?_, ?_⟩
    · intro busy hnot known l
      have cut := here.settles hph (lensUnitInProgress_none hnot) .cut
      have withdrawn := cut.withdrawsWaiting hnot
      refine ⟨fun hd => ⟨_, exec_due, Shows.ends ?_⟩, fun hd => ⟨_, _, exec_due,
        frameless_length (s.port p).frame (phased e .late ph.flags) s.trig.clock, closeBytes_outcome .., Shows.ends ?_⟩⟩
      · exact (withdrawn.phaseEnds_queued (.single hentries) (List.forall_mem_nil _)
          (ph := { ph with targets := settled none .cut ph.targets }) (fixed := none) (late := true) htr hheld (fun _ => few _) rfl rfl hx
          (fun d => hd d.2) _).chooses_busy busy
      · exact (withdrawn.phaseEnds_dropped (.single hentries) (List.forall_mem_nil _)
          (ph := { ph with targets := settled none .cut ph.targets }) (fixed := none) (late := true) htr hheld (fun _ => few _) rfl rfl hx
          rfl ⟨.inl rfl, hd⟩ hset hr _).chooses_busy busy
    · intro x m k code hstate htxn hm hk hl hh known l
      have cut := here.settles hph (lensUnitInProgress_some htxn hm hk) .cut
      have withdrawn := cut.withdrawsSending hstate htxn hm
      refine ⟨fun hd => ⟨_, exec_due, Shows.ends ?_⟩, fun hd => ⟨_, _, exec_due,
        frameless_length (s.port p).frame (phased e .late ph.flags) s.trig.clock, closeBytes_outcome .., Shows.ends ?_⟩⟩
      · exact withdrawn.phaseEnds_exposing (.single hentries) (List.forall_mem_nil _)
          (ph := { ph with targets := settled (some k) .cut ph.targets }) (fixed := none) (late := true) htr hheld (fun _ => few _) rfl rfl hx
          rfl (fun d => hd d.2) _
      · exact withdrawn.phaseEnds_dropping (.single hentries) (List.forall_mem_nil _)
          (ph := { ph with targets := settled (some k) .cut ph.targets }) (fixed := none) (late := true) htr hheld (fun _ => few _) rfl rfl hx
          hl ⟨.inl rfl, hd⟩ hset hr hh _
  · intro p old e x s _ hstate htxn hm hpart hst hentries _ hphase hne hset hr hheld hx hl hh hlen w present fallback pairs judged ts
      flags clamped toWrite exposed after
    have here : Shows s s (atPort p (s.port p) s.cable s) [] := (Shows.refl s).onePort p
    have targets : startedTargets w (s.port p).ctl e = ts := startedTargets_eq w _ e
    have tagged : flags = (startedPhase w (s.port p).ctl e s.trig.clock).flags := by
      rw [startedPhase, phaseTargets_eq, targets, targetFlags_eq]
      grind
    have listed : Picks (s.port p).frame.entries [] old [e] :=
      ⟨hentries, fun _ ho => absurd ho List.not_mem_nil, List.forall_mem_singleton.mpr hne⟩
    have counted := here.atCtl fun c => { c with txn := some { x with acked := x.acked + 1 } }
    obtain ⟨v, ended, shown⟩ := counted.exposeAcknowledged rfl hm listed
    have parted : exec (.unitAnswer p true) s = .next (flushMirrors (arbitrate p
        (advancePhases p (v.port p).frame.entries.length (startPhase p e v)))) := by
      rw [exec_wordAcknowledged hstate htxn (currentPart_expose hm hpart) rfl (.inl ⟨hst, rfl⟩),
        partDone_last (by rw [hm]; rfl) (by rw [hm, hpart]; rfl), ended, shown.nextAdvances rfl rfl hphase]
    have due : Picks [exposed, e] [exposed] e [] :=
      ⟨rfl, List.forall_mem_singleton.mpr (Ne.symm hne), fun _ ho => absurd ho List.not_mem_nil⟩
    have parts : partsToWrite ts = toWrite := partsToWrite_eq ts
    have phase : startedPhase w (s.port p).ctl e s.trig.clock = {
        trigger := e.trigger, started := s.trig.clock, targets := ts, flags := flags
        deadline := if toWrite.isEmpty then none else some w.deadlineMs } := by
      rw [tagged, ← parts, ← targets]
      rfl
    have exposing : Shows s v (atPort p (listing [exposed, e] { s.port p with ctl := freed (s.port p).ctl }) (⟨p, .endMark⟩ :: s.cable) s)
        [] := shown
    refine ⟨fun k code more hmore => ⟨_, parted, ?_⟩, fun hnone => ?_⟩
    · have moving := exposing.phaseStarts_moving phase (clampedUnits_eq ts) due (by rw [parts, hmore]; exact nofun)
      rw [parts] at moving
      have sent := (moving.noneAdvances (List.forall_mem_cons.mpr ⟨nofun, List.forall_mem_singleton.mpr nofun⟩)
        (v.port p).frame.entries.length).chooses_lens (m := ⟨e.trigger, toWrite⟩) (rest := []) rfl hx (congrArg (· ++ _) hl) hmore
      rw [hmore] at sent ⊢
      exact (sent.ctl_eq (congrArg
        (fun l => begins (.lens ⟨e.trigger, (k, code) :: more⟩) { freed (s.port p).ctl with lensMsgs := l }) hl.symm)).ends
    · intro outcome l
      obtain ⟨u, ends, shown⟩ := exposing.phaseStarts_ended phase (clampedUnits_eq ts) (parts.trans hnone)
      rw [ends] at parted
      have fixed : (phaseTargets w e).2.1.getD (phaseOutcome false ts) = outcome := by
        rw [← targets, phaseOutcome_judged, phaseTargets_eq, targets]
        exact fixedOutcome_getD _
      have intime : outcome ≠ .late := fixed ▸ startOutcome_not_late w e ts
      have few : e.lensPairs ≠ none → ts.length ≤ 4 := fun hps => by
        obtain ⟨ps, hps⟩ := Option.ne_none_iff_exists'.mp hps
        exact targets ▸ Nat.le_trans (startedTargets_length w _ hps) (hlen ps hps)
      refine ⟨fun hd => ⟨_, parted, Shows.ends ?_⟩, fun failed drop => ⟨_,
        closeBytes (s.port p).frame (phased e outcome flags) none 0 s.trig.clock, parted, frameless_length _ _ _, Shows.ends ?_⟩⟩
      · exact shown.phaseEnds_exposing due (List.forall_mem_singleton.mpr nofun) rfl hheld few rfl fixed hx rfl
          (not_dropsLate intime hd) _
      · have dropped n := shown.phaseEnds_dropping due (List.forall_mem_singleton.mpr nofun) rfl hheld few rfl fixed hx hl
          ⟨.inr failed, drop⟩ hset hr hh n
        simp only [if_neg intime] at dropped
        exact dropped _
  · intro p e s _ hnote htxn hh hentries hset hrecv hheld hx hl closes
    have here : Shows s s (atPort p (s.port p) s.cable s) [] := (Shows.refl s).onePort p
    have concluded {l : ChainEngine × List BusEvent}
        (kept : l.1.cause.getLsbD 2 = s.chain.cause.getLsbD 2 ∧ l.1.enable = s.chain.enable)
        (hv : ((settleTargets p .cut s).port p).frame = (s.port p).frame)
        (shared : Shows s (closeLensShare p e .headRestart (settleTargets p .cut s))
          (atPort p (unphased (s.port p)) s.cable { s with chain := l.1 }) l.2) : closes l := by
      have closed := shared.closesOnly hv hentries hset hrecv hheld hx hl rfl
      have noted := closed.restartNoted hnote rfl htxn hx rfl hh
      have counted := afterCompletionOf_alerts ⟨1 + p.val, by omega⟩ .frames e.image l.1
      refine ⟨_, closeBytes (s.port p).frame e none 0 s.trig.clock, rfl, frameless_length _ _ _, Shows.ends ?_⟩
      rw [alertMessage_chain (counted.1.trans kept.1) (counted.2.trans kept.2), ← List.append_assoc, imageWrites,
        ← List.append_assoc] at noted
      exact noted.alertFirst (x := s.port p) (F := restartedPort) rfl fun _ _ h => (congrArg restartedPort h :)
    refine ⟨fun ps hphase hph hps hlen => ?_, fun ph hphase hph htr hts => ?_⟩
    · have idle : s.port p = unphased (s.port p) := by rw [unphased, ← hph]
      have settled : Shows s (settleTargets p .cut s) (atPort p (unphased (s.port p)) s.cable s) [] := by
        rw [settleTargets_idle _ hph]
        exact here.port_eq idle
      have done := settled.lensRecordDone .headRestart e .none 0 (ts := waitingTargets ps)
        (fun _ => by rwa [waitingTargets, List.length_map]) 0 0
      rw [List.append_nil, ← closeLensShare_waiting hphase hps] at done
      exact concluded (lensRecordEnds_alerts ..) settled.frame_atPort done
    · have settled := here.settles hph (lensUnitInProgress_none fun t m ht => absurd (htxn.symm.trans ht) nofun) .cut
      have done := (settled.atLens fun l => { l with phase := none }).lensRecordDone .headRestart e .none ph.flags
        (ts := Machine.settled none .cut ph.targets) (fun _ => by rwa [Machine.settled, List.length_map]) ph.started 0
      rw [List.append_nil] at done
      refine concluded (lensRecordEnds_alerts ..) settled.frame_atPort ?_
      rw [closeLensShare_moving hphase (ph := { ph with targets := Machine.settled none .cut ph.targets }) (by rw [settled.lens_atPort])]
      exact done

end Sys2Proof.Machine
end

section
/-! PROOFS. What the operations outside the Trigger Sequencer, the Set Coordinator and the Cable Test Unit leave alone: the sources, the
sets, what each port has seen of its source, the order of its exposure list, and the sweeps. -/

namespace Sys2Proof.Machine

/-- The trigger numbers of a port's exposure entries, oldest first. -/
def entryTriggers (q : Port) : List U32 := q.frame.entries.map (·.trigger)

/-- From `s` to `t` the sources, the members of the sets and every port's last trigger number stay as they are; items of sets and
exposure entries may only go. -/
structure SameTriggers (s t : State) : Prop where
  sources : t.trig.sources = s.trig.sources
  formed : ∀ k : SetId, t.sets[k].formed = s.sets[k].formed
  members : ∀ k : SetId, t.sets[k].mask = s.sets[k].mask
  items : ∀ k : SetId, t.sets[k].items.length ≤ s.sets[k].items.length
  last : ∀ q, (t.port q).take.lastTrigger = (s.port q).take.lastTrigger
  entries : ∀ q, (entryTriggers (t.port q)).Sublist (entryTriggers (s.port q))

/-- A port in OFF or TRIPPED, in which alone it may be under test (R142). -/
abbrev AtRest (p : PortId) (s : State) : Prop := powerOf p s = .off ∨ powerOf p s = .tripped

/-- From `s` to `t` the sweeps and every port's sweep state stay as they are, and a port under test stays OFF or TRIPPED. -/
structure SameSweeps (s t : State) : Prop where
  unit : t.sweeps = s.sweeps
  state : ∀ q, (t.port q).sweep.state = (s.port q).sweep.state
  rest : ∀ q, (s.port q).sweep.state ≠ .none → AtRest q s → AtRest q t

/-- From `s` to `t` nothing has happened to triggers, sets and sweeps. -/
structure Calm (s t : State) : Prop where
  triggers : SameTriggers s t
  sweeps : SameSweeps s t

section
variable {s t u : State}

theorem SameTriggers.refl (s : State) : SameTriggers s s :=
  ⟨rfl, fun _ => rfl, fun _ => rfl, fun _ => le_refl _, fun _ => rfl, fun _ => List.Sublist.refl _⟩

theorem SameTriggers.trans (h : SameTriggers s t) (g : SameTriggers t u) : SameTriggers s u where
  sources := g.sources.trans h.sources
  formed k := (g.formed k).trans (h.formed k)
  members k := (g.members k).trans (h.members k)
  items k := (g.items k).trans (h.items k)
  last q := (g.last q).trans (h.last q)
  entries q := (g.entries q).trans (h.entries q)

theorem SameSweeps.refl (s : State) : SameSweeps s s := ⟨rfl, fun _ => rfl, fun _ _ => id⟩

theorem SameSweeps.trans (h : SameSweeps s t) (g : SameSweeps t u) : SameSweeps s u where
  unit := g.unit.trans h.unit
  state q := (g.state q).trans (h.state q)
  rest q hq := g.rest q (by rwa [h.state q]) ∘ h.rest q hq

theorem Calm.refl (s : State) : Calm s s := ⟨.refl s, .refl s⟩

theorem Calm.trans (h : Calm s t) (g : Calm t u) : Calm s u := ⟨h.triggers.trans g.triggers, h.sweeps.trans g.sweeps⟩

/-- Blocks other than sources, sets, sweeps and ports may change freely. -/
theorem SameTriggers.of_ports (hsources : t.trig.sources = s.trig.sources) (hsets : t.sets = s.sets)
    (hports : ∀ q, t.port q = s.port q) : SameTriggers s t where
  sources := hsources
  formed k := by rw [hsets]
  members k := by rw [hsets]
  items k := by rw [hsets]
  last q := by rw [hports]
  entries q := by rw [hports]

theorem SameSweeps.of_ports (hsweeps : t.sweeps = s.sweeps) (hports : ∀ q, t.port q = s.port q) : SameSweeps s t where
  unit := hsweeps
  state q := by rw [hports]
  rest q _ h := by unfold AtRest powerOf; rw [hports]; exact h

theorem Calm.of_ports (hsources : t.trig.sources = s.trig.sources) (hsets : t.sets = s.sets) (hsweeps : t.sweeps = s.sweeps)
    (hports : ∀ q, t.port q = s.port q) : Calm s t := ⟨.of_ports hsources hsets hports, .of_ports hsweeps hports⟩

theorem CardKept.calm (h : CardKept s t) : Calm s t := .of_ports (by rw [h.trig]) h.sets h.sweeps h.port

/-- The bookkeeping of the mirrors is nothing to triggers, sets and sweeps. -/
theorem Calm.of_portView (hsources : t.trig.sources = s.trig.sources) (hsets : t.sets = s.sets) (hsweeps : t.sweeps = s.sweeps)
    (h : ∀ q, portView (t.port q) = portView (s.port q)) : Calm s t where
  triggers :=
    { sources := hsources
      formed := fun k => by rw [hsets]
      members := fun k => by rw [hsets]
      items := fun k => by rw [hsets]
      last := fun q => show (portView (t.port q)).take.lastTrigger = (portView (s.port q)).take.lastTrigger by rw [h q]
      entries := fun q => by
        show (entryTriggers (portView (t.port q))).Sublist (entryTriggers (portView (s.port q)))
        rw [h q] }
  sweeps :=
    { unit := hsweeps
      state := fun q => show (portView (t.port q)).sweep.state = (portView (s.port q)).sweep.state by rw [h q]
      rest := fun q _ hq => by
        show (portView (t.port q)).power.state = .off ∨ (portView (t.port q)).power.state = .tripped
        rw [h q]; exact hq }

theorem calm_ite (c : Prop) [Decidable c] (ht : c → Calm s t) (hu : ¬ c → Calm s u) : Calm s (if c then t else u) := by
  split
  · exact ht ‹_›
  · exact hu ‹_›

theorem calm_foldl {α : Type} {f : State → α → State} (l : List α) (hf : ∀ s x, Calm s (f s x)) (s : State) :
    Calm s (l.foldl f s) := by
  induction l generalizing s with
  | nil => exact .refl s
  | cons x l ih => exact (hf s x).trans (ih _)

theorem calm_forPorts {f : PortId → State → State} (ps : List PortId) (hf : ∀ s p, Calm s (f p s)) (s : State) :
    Calm s (forPorts ps f s) := calm_foldl ps hf s

end

variable (p : PortId)

/-! ## Updates of the state -/

theorem sameTriggers_modPort (f : Port → Port) (s : State) (hlast : (f (s.port p)).take.lastTrigger = (s.port p).take.lastTrigger)
    (hentries : (entryTriggers (f (s.port p))).Sublist (entryTriggers (s.port p))) : SameTriggers s (modPort p f s) where
  sources := rfl
  formed _ := rfl
  members _ := rfl
  items _ := le_refl _
  last q := by
    rw [modPort_port]
    split
    · rename_i hq; rw [hq]; exact hlast
    · rfl
  entries q := by
    rw [modPort_port]
    split
    · rename_i hq; rw [hq]; exact hentries
    · exact List.Sublist.refl _

theorem sameSweeps_modPort (f : Port → Port) (s : State) (hstate : (f (s.port p)).sweep.state = (s.port p).sweep.state)
    (hrest : (s.port p).sweep.state ≠ .none → AtRest p s →
      (f (s.port p)).power.state = .off ∨ (f (s.port p)).power.state = .tripped) : SameSweeps s (modPort p f s) where
  unit := rfl
  state q := by
    rw [modPort_port]
    split
    · rename_i hq; rw [hq]; exact hstate
    · rfl
  rest q hq h := by
    unfold AtRest powerOf
    rw [modPort_port]
    split
    · rename_i e; rw [e] at hq h; exact hrest hq h
    · exact h

/-- A change of a port that leaves its power, its sweep, its last trigger number and its exposure list alone. -/
theorem calm_modPort (f : Port → Port) (s : State) (hpower : (f (s.port p)).power.state = (s.port p).power.state)
    (hsweep : (f (s.port p)).sweep.state = (s.port p).sweep.state)
    (hlast : (f (s.port p)).take.lastTrigger = (s.port p).take.lastTrigger)
    (hentries : (entryTriggers (f (s.port p))).Sublist (entryTriggers (s.port p))) : Calm s (modPort p f s) :=
  ⟨sameTriggers_modPort p f s hlast hentries, sameSweeps_modPort p f s hsweep fun _ h => by rw [hpower]; exact h⟩

/-- A change of a port's power that leaves it OFF or TRIPPED while it is under test. -/
theorem calm_modPower (f : PortPower → PortPower) (s : State)
    (h : (s.port p).sweep.state ≠ .none → AtRest p s →
      (f (s.port p).power).state = .off ∨ (f (s.port p).power).state = .tripped) : Calm s (modPower p f s) :=
  ⟨sameTriggers_modPort p _ s rfl (List.Sublist.refl _), sameSweeps_modPort p _ s rfl h⟩

/-- A change of a port's power that leaves its state alone. -/
theorem calm_modPower_same (f : PortPower → PortPower) (s : State)
    (h : (f (s.port p).power).state = (s.port p).power.state := by rfl) :
    Calm s (modPower p f s) := calm_modPower p f s fun _ hr => by rw [h]; exact hr

theorem calm_modLink (f : LinkRx → LinkRx) (s : State) : Calm s (modLink p f s) :=
  calm_modPort p _ s rfl rfl rfl (List.Sublist.refl _)

theorem calm_modCtl (f : Channel → Channel) (s : State) : Calm s (modCtl p f s) :=
  calm_modPort p _ s rfl rfl rfl (List.Sublist.refl _)

theorem calm_modLens (f : LensState → LensState) (s : State) : Calm s (modLens p f s) :=
  calm_modPort p _ s rfl rfl rfl (List.Sublist.refl _)

theorem calm_modFlex (f : FlexMap → FlexMap) (s : State) : Calm s (modFlex p f s) :=
  calm_modPort p _ s rfl rfl rfl (List.Sublist.refl _)

theorem calm_modTake (f : Taker → Taker) (s : State) (h : (f (s.port p).take).lastTrigger = (s.port p).take.lastTrigger) :
    Calm s (modTake p f s) := calm_modPort p _ s rfl rfl h (List.Sublist.refl _)

theorem calm_modFrame (f : FrameRx → FrameRx) (s : State)
    (h : ((f (s.port p).frame).entries.map (·.trigger)).Sublist ((s.port p).frame.entries.map (·.trigger))) :
    Calm s (modFrame p f s) := calm_modPort p _ s rfl rfl rfl h

/-- A change of a port's share of the Frame Writer that leaves its exposure list alone. -/
theorem calm_modFrame_same (f : FrameRx → FrameRx) (s : State)
    (h : (f (s.port p).frame).entries = (s.port p).frame.entries := by rfl) :
    Calm s (modFrame p f s) := calm_modFrame p f s (by rw [h])

theorem sameTriggers_modSweep (f : PortSweep → PortSweep) (s : State) : SameTriggers s (modSweep p f s) :=
  sameTriggers_modPort p _ s rfl (List.Sublist.refl _)

theorem sameTriggers_modSweeps (f : SweepUnit → SweepUnit) (s : State) : SameTriggers s (modSweeps f s) :=
  .of_ports rfl rfl fun _ => rfl

theorem calm_touchPort (s : State) : Calm s (touchPort p s) :=
  .of_portView rfl rfl rfl fun q => by
    rw [touchPort_port]
    split
    · rename_i hq; rw [hq]; rfl
    · rfl

theorem calm_modChain (f : ChainEngine → ChainEngine) (s : State) : Calm s (modChain f s) := .of_ports rfl rfl rfl fun _ => rfl
theorem calm_modPowerCell (f : PowerCell → PowerCell) (s : State) : Calm s (modPowerCell f s) := .of_ports rfl rfl rfl fun _ => rfl
theorem calm_dmaWrite (a : Addr) (bs : List Byte) (s : State) : Calm s (dmaWrite a bs s) := .of_ports rfl rfl rfl fun _ => rfl
theorem calm_sendMessage (g : Group) (s : State) : Calm s (sendMessage g s) := .of_ports rfl rfl rfl fun _ => rfl
theorem calm_sendSymbol (y : Symbol) (s : State) : Calm s (sendSymbol p y s) := .of_ports rfl rfl rfl fun _ => rfl
theorem calm_takeRecord (ch : ChainId) (a : Addr) (s : State) : Calm s (takeRecord ch a s) := calm_modChain _ s
theorem calm_writeRecordState (a : Addr) (st : RecordState) (s : State) : Calm s (writeRecordState a st s) := calm_dmaWrite _ _ s

/-- The clock, the axes and the inputs may change without the sources. -/
theorem calm_modTrig (f : TriggerCell → TriggerCell) (s : State) (h : (f s.trig).sources = s.trig.sources) : Calm s (modTrig f s) :=
  .of_ports h rfl rfl fun _ => rfl

/-- One frame set after an update. -/
theorem modSet_sets (k j : SetId) (f : FrameSet → FrameSet) (s : State) :
    (modSet k f s).sets[j] = if j = k then f s.sets[k] else s.sets[j] := by
  show (s.sets.set k (f s.sets[k]))[j] = _
  rcases eq_or_ne j k with rfl | h
  · simp
  · have : k.val ≠ j.val := fun e => h (Fin.ext e.symm)
    simp [h, this]

/-- A change of a set that keeps its members and brings in no item. -/
theorem calm_modSet (k : SetId) (f : FrameSet → FrameSet) (s : State) (hformed : (f s.sets[k]).formed = s.sets[k].formed)
    (hmask : (f s.sets[k]).mask = s.sets[k].mask) (hitems : (f s.sets[k]).items.length ≤ s.sets[k].items.length) :
    Calm s (modSet k f s) where
  triggers :=
    { sources := rfl
      formed := fun j => by
        rw [modSet_sets]
        split
        · rename_i e; rw [e]; exact hformed
        · rfl
      members := fun j => by
        rw [modSet_sets]
        split
        · rename_i e; rw [e]; exact hmask
        · rfl
      items := fun j => by
        rw [modSet_sets]
        split
        · rename_i e; rw [e]; exact hitems
        · exact le_refl _
      last := fun _ => rfl
      entries := fun _ => List.Sublist.refl _ }
  sweeps := .of_ports rfl fun _ => rfl

/-! ## Causes, alerts, completions and mirrors -/

theorem calm_setCause (g : Group) (s : State) : Calm s (setCause g s) := (cardKept_setCause g s).calm

theorem calm_setPortAlert (bit : Nat) (s : State) : Calm s (setPortAlert p bit s) :=
  calm_ite _ (fun _ => .refl s) fun _ => (calm_modPort p _ s rfl rfl rfl (List.Sublist.refl _)).trans (calm_setCause _ _)

theorem calm_setCellAlert (bit : Nat) (s : State) : Calm s (setCellAlert bit s) :=
  calm_ite _ (fun _ => .refl s) fun _ => (calm_modChain _ s).trans (calm_setCause _ _)

theorem calm_completeCommand (a : Addr) (c : Code) (r : List Byte) (s : State) : Calm s (completeCommand a c r s) :=
  (cardKept_completeCommand a c r s).calm

theorem calm_completeLens (a : Addr) (c : Code) (source : SourceId) (trigger : U32) (o : LensOutcome) (fl : BitVec 4)
    (ts : List Target) (b e : U64) (s : State) : Calm s (completeLens p a c source trigger o fl ts b e s) :=
  (cardKept_completeLens ..).calm

theorem calm_writePortMirror (s : State) : Calm s (writePortMirror p s) :=
  .of_portView (by unfold writePortMirror; rw [dmaWrite_trig]) (by unfold writePortMirror; rw [dmaWrite_sets])
    (by unfold writePortMirror; rw [dmaWrite_sweeps]) fun q => by
      rw [writePortMirror_port]
      split
      · rename_i hq; rw [hq]; rfl
      · rfl

theorem calm_writeCellMirror (s : State) : Calm s (writeCellMirror s) := by
  unfold writeCellMirror
  exact (calm_modChain _ s).trans (calm_dmaWrite _ _ _)

theorem calm_dropPortDue (s : State) : Calm s (dropPortDue p s) :=
  .of_portView rfl rfl rfl fun q => by
    rw [dropPortDue_port]
    split
    · rename_i hq; rw [hq]; rfl
    · rfl

theorem calm_flushPort (s : State) : Calm s (flushPort p s) := by
  rcases flushPort_cases p s with ⟨-, -, h⟩ | ⟨-, -, h⟩ | ⟨-, h⟩ <;> rw [h]
  · exact calm_writePortMirror p s
  · exact calm_dropPortDue p s
  · exact .refl s

theorem calm_flushMirrors (s : State) : Calm s (flushMirrors s) := by
  have h : Calm s (forPorts allPorts flushPort s) := calm_forPorts _ (fun s p => calm_flushPort p s) s
  rcases flushMirrors_cases s with e | e | ⟨-, e⟩ <;> rw [e]
  · exact h.trans (calm_writeCellMirror _)
  · exact h.trans (calm_modChain _ _)
  · exact h

/-! ## Exposure entries -/

theorem calm_completeItem (k : SetId) (i : SetItem) (s : State) : Calm s (completeItem k i s) := by
  unfold completeItem
  refine .trans (.trans (.trans (calm_foldl _ ?_ _) (calm_foldl _ ?_ _)) (calm_foldl _ ?_ _))
    (calm_modSet k _ _ rfl rfl (List.length_filter_le ..))
  · exact fun s x => calm_dmaWrite _ _ s
  · exact fun s x => (cardKept_finishState ..).calm
  · exact fun s x => (cardKept_finishCount ..).calm

theorem calm_closeSlot (k : SetId) (n : U32) (c : Code) (s : State) : Calm s (closeSlot k n p c s) := by
  unfold closeSlot
  split
  · exact .refl s
  · dsimp only
    split
    · exact (calm_modSet k _ s rfl rfl (List.length_map _).le).trans (calm_completeItem k _ _)
    · exact calm_modSet k _ s rfl rfl (List.length_map _).le

theorem calm_completeImage (e : Entry) (f : Option Filling) (sent : Nat) (c : Code) (s : State) :
    Calm s (completeImage p e f sent c s) := by
  unfold completeImage
  dsimp only
  split
  · exact (calm_dmaWrite _ _ s).trans (cardKept_completeRecord ..).calm
  · exact (((calm_dmaWrite _ _ s).trans (calm_dmaWrite _ _ _)).trans (calm_dmaWrite _ _ _)).trans (calm_closeSlot ..)

theorem calm_closeLensShare (e : Entry) (c : Code) (s : State) : Calm s (closeLensShare p e c s) := by
  unfold closeLensShare
  split
  · split
    · exact calm_completeLens ..
    · exact .refl s
  · split
    · exact .refl s
    · dsimp only
      split
      · exact (calm_modLens p _ s).trans (calm_completeLens ..)
      · exact calm_modLens p _ s
  · exact .refl s

/-- A close takes one entry out of a port's list and leaves the others in their order (R121, R122). -/
theorem calm_closeEntry (n : U32) (c : Code) (sent : Nat) (s : State) : Calm s (closeEntry p n c sent s) := by
  unfold closeEntry
  split
  · exact .refl s
  · exact ((((calm_closeLensShare p _ c s).trans (calm_modCtl p _ _)).trans
      (calm_modFrame p _ _ (List.filter_sublist.map _))).trans (calm_completeImage ..)).trans (calm_touchPort p _)

theorem calm_closeEntries (c : Code) (xs : List (PortId × U32)) (s : State) : Calm s (closeEntries c xs s) :=
  calm_foldl xs (fun t x => calm_closeEntry x.1 x.2 c 0 t) s

/-- A change of the entry of a trigger number that keeps the number. -/
theorem calm_modEntry (n : U32) (f : Entry → Entry) (s : State) (h : ∀ e, (f e).trigger = e.trigger := by intro _; rfl) :
    Calm s (modEntry p n f s) := by
  refine calm_modFrame p _ s (show List.Sublist _ _ from ?_)
  rw [List.map_map, List.map_congr_left (g := (·.trigger)) fun e _ => ?_]
  dsimp only [Function.comp]
  split
  · exact h e
  · rfl

theorem calm_applyTable (h : HeldTable) (s : State) : Calm s (applyTable p h s) :=
  (calm_modLens p _ s).trans (calm_completeCommand ..)

theorem calm_applyHeld (s : State) : Calm s (applyHeld p s) :=
  (calm_modLens p _ s).trans (calm_foldl _ (fun s h => calm_applyTable p h s) _)

theorem calm_settleTargets (r : UnitResult) (s : State) : Calm s (settleTargets p r s) := by
  unfold settleTargets
  split
  · exact .refl s
  · dsimp only
    split
    · exact calm_modLens p _ s
    · exact (calm_modLens p _ s).trans (calm_modLens p _ _)

theorem calm_afterCloses (s : State) : Calm s (afterCloses p s) :=
  ((calm_modLens p _ s).trans (calm_modFrame_same p _ _)).trans (calm_applyHeld p _)

theorem calm_closeAll (c : Code) (s : State) : Calm s (closeAll p c s) :=
  ((calm_settleTargets p _ s).trans (calm_closeEntries ..)).trans (calm_afterCloses p _)

end Sys2Proof.Machine
end

section
/-! PROOFS. The same for lens phases, the control channel, the link, bursts, and the commands of a port that touch no trigger. -/

namespace Sys2Proof.Machine

variable (p : PortId)

/-! ## Lens phases -/

theorem calm_queueExpose (n : U32) (s : State) : Calm s (queueExpose p n s) :=
  (calm_modCtl p _ s).trans (calm_modEntry p n _ _)

theorem calm_endPhase (fixed : Option LensOutcome) (late : Bool) (s : State) : Calm s (endPhase p fixed late s) := by
  unfold endPhase
  split
  · exact .refl s
  · rename_i ph _
    split
    · exact calm_modLens p _ s
    · dsimp only
      generalize h3 : applyHeld p _ = s3
      have ended : Calm s s3 := by
        rw [← h3]
        refine .trans ?_ (calm_applyHeld p _)
        split
        · exact ((calm_modLens p _ s).trans (calm_modEntry p _ _ _)).trans (calm_completeLens ..)
        · exact (calm_modLens p _ s).trans (calm_modEntry p _ _ _)
      refine ended.trans (calm_ite _ (fun _ => ?_) fun _ => calm_queueExpose p _ _)
      split
      · exact calm_queueExpose p _ _
      · exact (calm_modEntry p _ _ _).trans (calm_closeEntry p _ _ _ _)

theorem calm_startPhase (e : Entry) (s : State) : Calm s (startPhase p e s) := by
  unfold startPhase
  exact calm_ite _ (fun _ => (calm_modLens p _ s).trans (calm_endPhase p _ _ _)) fun _ =>
    ((calm_modLens p _ s).trans (calm_modCtl p _ _)).trans (calm_modEntry p _ _ _)

theorem calm_advancePhases (n : Nat) (s : State) : Calm s (advancePhases p n s) := by
  induction n generalizing s with
  | zero => exact .refl s
  | succ n ih =>
    unfold advancePhases
    split
    · exact .refl s
    · exact calm_ite _ (fun _ => (calm_startPhase p _ s).trans (ih _)) fun _ => .refl s

theorem calm_advanceLens (s : State) : Calm s (advanceLens p s) := calm_advancePhases p _ s

/-! ## The control channel -/

theorem calm_beginTxn (m : Message) (s : State) : Calm s (beginTxn p m s) := by
  have h : Calm s (sendSymbol p .startMark (modCtl p (fun c => { c with
      state := .sending, txn := some ⟨m, 0, .header, 0, []⟩, replyTimer := some replyMs }) s)) :=
    (calm_modCtl p _ s).trans (calm_sendSymbol p _ _)
  unfold beginTxn
  dsimp only
  split
  · exact h.trans (calm_sendSymbol p _ _)
  · exact h

theorem calm_arbitrate (s : State) : Calm s (arbitrate p s) := by
  refine calm_ite _ (fun _ => ?_) fun _ => .refl s
  split
  · exact (calm_modCtl p _ s).trans (calm_beginTxn p _ _)
  · exact (calm_modCtl p _ s).trans (calm_beginTxn p _ _)
  · exact (calm_modCtl p _ s).trans (calm_beginTxn p _ _)
  · exact .refl s

theorem calm_handEntry (s : State) : Calm s (handEntry p s) := (calm_advanceLens p s).trans (calm_arbitrate p _)

theorem calm_queuePing (s : State) : Calm s (queuePing p s) := calm_ite _ (fun _ => .refl s) fun _ => calm_modCtl p _ s

theorem calm_headRestart (s : State) : Calm s (headRestart p s) :=
  (((calm_closeAll p _ s).trans (calm_modLens p _ _)).trans (calm_modCtl p _ _)).trans (calm_setPortAlert p _ _)

theorem calm_takeIdentity (i : Identity) (s : State) : Calm s (takeIdentity p i s) := by
  unfold takeIdentity
  exact (calm_ite _ (fun _ => calm_headRestart p s) fun _ => .refl s).trans (calm_modCtl p _ _)

theorem calm_exposeResult (n : U32) (r : TxnEnd) (s : State) : Calm s (exposeResult p n r s) := by
  unfold exposeResult
  cases r
  · exact (calm_modEntry p _ _ s).trans (calm_advanceLens p _)
  · exact (calm_closeEntry p _ _ _ s).trans (calm_advanceLens p _)
  · exact (calm_closeEntry p _ _ _ s).trans (calm_advanceLens p _)

theorem calm_handResult (t : Txn) (r : TxnEnd) (s : State) : Calm s (handResult p t r s) := by
  unfold handResult
  split
  · exact calm_exposeResult p _ r s
  · exact (calm_endPhase p _ _ s).trans (calm_advanceLens p _)
  · split <;> exact calm_completeCommand _ _ _ s
  · split
    · exact calm_ite _ (fun _ => calm_takeIdentity p _ s) fun _ => calm_modCtl p _ s
    · exact calm_modCtl p _ s

theorem calm_finishTxn (r : TxnEnd) (s : State) : Calm s (finishTxn p r s) := by
  unfold finishTxn
  split
  · exact .refl s
  · exact ((((calm_ite _ (fun _ => calm_settleTargets p _ s) fun _ => .refl s).trans (calm_modCtl p _ _)).trans
      (calm_sendSymbol p _ _)).trans (calm_handResult p _ r _)).trans (calm_arbitrate p _)

theorem calm_lensPartDone (t : Txn) (s : State) : Calm s (lensPartDone p t s) := by
  unfold lensPartDone
  split
  · split
    · exact .refl s
    · exact (calm_modLens p _ s).trans (calm_modLens p _ _)
  · exact .refl s

theorem calm_partDone (t : Txn) (s : State) : Calm s (partDone p t s) := by
  unfold partDone
  dsimp only
  split
  · exact ((calm_lensPartDone p t s).trans (calm_modCtl p _ _)).trans (calm_finishTxn p _ _)
  · exact (((calm_lensPartDone p t s).trans (calm_modCtl p _ _)).trans (calm_sendSymbol p _ _)).trans (calm_sendSymbol p _ _)

theorem calm_headerAcked (t : Txn) (s : State) : Calm s (headerAcked p t s) := by
  unfold headerAcked
  split
  · exact .refl s
  · split <;> exact (calm_modCtl p _ s).trans (calm_sendSymbol p _ _)

theorem calm_wordAcked (t : Txn) (i : Nat) (s : State) : Calm s (wordAcked p t i s) := by
  unfold wordAcked
  split
  · exact .refl s
  · exact calm_ite _ (fun _ => (calm_modCtl p _ s).trans (calm_sendSymbol p _ _)) fun _ => calm_partDone p _ s

theorem calm_failHeadAccess (c : Code) (s : State) : Calm s (failHeadAccess p c s) := (cardKept_failHeadAccess p c s).calm

theorem calm_suspendChannel (c : Code) (clear : Bool) (s : State) : Calm s (suspendChannel p c clear s) :=
  (calm_failHeadAccess p c s).trans (calm_modCtl p _ _)

theorem calm_channelLocked (s : State) : Calm s (channelLocked p s) :=
  ((calm_modCtl p _ s).trans (calm_queuePing p _)).trans (calm_arbitrate p _)

theorem calm_stopChannel (s : State) : Calm s (stopChannel p s) :=
  (((calm_failHeadAccess p _ s).trans (calm_ite _ (fun _ => calm_sendSymbol p _ _) fun _ => .refl _)).trans
    (calm_modCtl p _ _)).trans (calm_arbitrate p _)

theorem calm_endNote (s : State) : Calm s (endNote p s) := (calm_modCtl p _ s).trans (calm_arbitrate p _)

/-! ## Events of the control channel -/

theorem calm_answered (ack : Bool) (s : State) : Calm s (answered p ack s) := by
  unfold answered
  split
  · exact .refl s
  · split
    · exact calm_ite _ (fun _ => calm_headerAcked p _ s) fun _ => calm_finishTxn p _ s
    · exact calm_ite _ (fun _ => calm_wordAcked p _ _ s) fun _ => calm_finishTxn p _ s
    · exact calm_ite _ (fun _ => calm_finishTxn p _ s) fun _ => .refl s
    · exact .refl s

theorem calm_holdSigned (s : State) : Calm s (holdSigned p s) := by
  unfold holdSigned
  split
  · exact .refl s
  · split
    · exact calm_ite _ (fun _ => calm_modCtl p _ s) fun _ => calm_finishTxn p _ s
    · exact calm_finishTxn p _ s
    · exact calm_finishTxn p _ s
    · exact .refl s

theorem calm_holdAnswered (ack : Bool) (s : State) : Calm s (holdAnswered p ack s) := by
  unfold holdAnswered
  split
  · exact .refl s
  · exact calm_ite _ (fun _ => calm_ite _ (fun _ => calm_partDone p _ s) fun _ => calm_finishTxn p _ s) fun _ => .refl s

theorem calm_dataWord (w : U16) (s : State) : Calm s (dataWord p w s) := by
  unfold dataWord
  split
  · exact .refl s
  · refine calm_ite _ (fun _ => ?_) fun _ => .refl s
    dsimp only
    split
    · exact .refl s
    · exact calm_ite _ (fun _ => calm_modCtl p _ s) fun _ => (calm_modCtl p _ s).trans (calm_finishTxn p _ _)

theorem calm_replyExpired (s : State) : Calm s (replyExpired p s) :=
  calm_ite _ (fun _ => calm_finishTxn p _ s) fun _ => .refl s

theorem calm_holdExpired (s : State) : Calm s (holdExpired p s) :=
  calm_ite _ (fun _ => calm_finishTxn p _ s) fun _ => .refl s

theorem calm_noteBegins (collides : Bool) (s : State) : Calm s (noteBegins p collides s) := by
  unfold noteBegins
  dsimp only
  split
  · exact calm_modCtl p _ s
  · refine calm_ite _ (fun _ => .trans ?_ (calm_modCtl p _ _)) fun _ => .refl s
    exact .of_ports rfl rfl rfl fun _ => rfl
  · exact .refl s

theorem calm_overtempTaken (s : State) : Calm s (overtempTaken p s) :=
  calm_ite _ (fun _ => (calm_setPortAlert p _ s).trans (calm_endNote p _)) fun _ => .refl s

theorem calm_lensFaultTaken (unit : Byte) (s : State) : Calm s (lensFaultTaken p unit s) := by
  refine calm_ite _ (fun _ => ?_) fun _ => .refl s
  split
  · exact ((calm_modLens p _ s).trans (calm_setPortAlert p _ _)).trans (calm_endNote p _)
  · exact calm_endNote p s

theorem calm_headRestartTaken (s : State) : Calm s (headRestartTaken p s) :=
  calm_ite _ (fun _ => (((calm_headRestart p s).trans (calm_modCtl p _ _)).trans (calm_queuePing p _)).trans
    (calm_endNote p _)) fun _ => .refl s

theorem calm_noteDropped (s : State) : Calm s (noteDropped p s) := calm_ite _ (fun _ => calm_endNote p s) fun _ => .refl s

theorem calm_noteExpired (s : State) : Calm s (noteExpired p s) := calm_ite _ (fun _ => calm_endNote p s) fun _ => .refl s

theorem calm_retryExpired (s : State) : Calm s (retryExpired p s) :=
  calm_ite _ (fun _ => ((calm_modCtl p _ s).trans (calm_queuePing p _)).trans (calm_arbitrate p _)) fun _ => .refl s

theorem calm_withdrawLens (s : State) : Calm s (withdrawLens p s) := by
  unfold withdrawLens
  split
  · exact calm_ite _ (fun _ => (calm_modCtl p _ s).trans (calm_sendSymbol p _ _)) fun _ => calm_modCtl p _ s
  · exact calm_modCtl p _ s

theorem calm_deadlineExpired (s : State) : Calm s (deadlineExpired p s) := by
  unfold deadlineExpired
  split
  · exact .refl s
  · exact calm_ite _ (fun _ => ((((calm_settleTargets p _ s).trans (calm_withdrawLens p _)).trans (calm_endPhase p _ _ _)).trans
      (calm_advanceLens p _)).trans (calm_arbitrate p _)) fun _ => .refl s

/-! ## Bursts -/

theorem calm_flexCharge (w : Nat) (s : State) : Calm s (flexCharge p w s) := by
  unfold flexCharge
  split
  · exact .refl s
  · exact calm_ite _ (fun _ => (calm_modFlex p _ s).trans (calm_ite _
      (fun _ => (calm_modFlex p _ _).trans (calm_setPortAlert p _ _)) fun _ => calm_modFlex p _ _)) fun _ => calm_modFlex p _ s

theorem calm_flexDrop (c : DropCause) (s : State) : Calm s (flexDrop p c s) := by
  unfold flexDrop
  dsimp only
  split
  · exact ((calm_flexCharge p 16 s).trans (calm_modFlex p _ _)).trans (calm_setPortAlert p _ _)
  · exact (calm_flexCharge p 16 s).trans (calm_modFlex p _ _)

theorem calm_setFilling (f : Filling) (s : State) : Calm s (setFilling p f s) := calm_modFrame_same p _ s

theorem calm_eraseNext (s : State) : Calm s (eraseNext p s) := by
  unfold eraseNext
  dsimp only
  split
  · exact .refl s
  · split
    · exact .refl s
    · exact (calm_ite _ (fun _ => calm_dmaWrite _ _ s) fun _ => .refl s).trans (calm_setFilling p _ _)

theorem calm_eraseLines (n : Nat) (s : State) : Calm s (eraseLines p n s) := by
  induction n generalizing s with
  | zero => exact .refl s
  | succ n ih => exact (calm_eraseNext p s).trans (ih _)

theorem calm_writeNext (data : List Byte) (s : State) : Calm s (writeNext p data s) := by
  unfold writeNext
  dsimp only
  split
  · exact .refl s
  · split
    · exact .refl s
    · exact calm_ite _ (fun _ => (calm_dmaWrite _ _ s).trans (calm_setFilling p _ _)) fun _ => calm_setFilling p _ s

theorem calm_takeDamaged (s : State) : Calm s (takeDamaged p s) := by
  unfold takeDamaged
  split
  · exact calm_ite _ (fun _ => calm_eraseNext p s) fun _ => .refl s
  · exact .refl s

theorem calm_eraseRest (s : State) : Calm s (eraseRest p s) := by
  unfold eraseRest
  split
  · exact calm_eraseLines p _ s
  · exact .refl s

theorem calm_takeLine (n : Nat) (data : List Byte) (s : State) : Calm s (takeLine p n data s) := by
  unfold takeLine
  split
  · exact .refl s
  · refine calm_ite _ (fun _ => ?_) fun _ => calm_ite _ (fun _ => ?_) fun _ => calm_ite _ (fun _ => ?_) fun _ => ?_
    · exact (calm_modFrame_same p _ s).trans (calm_takeDamaged p _)
    · exact calm_modFrame_same p _ s
    · exact calm_modFrame_same p _ s
    · exact (calm_eraseLines p _ s).trans (calm_writeNext p data _)

theorem calm_takeFrameClose (sent : Nat) (s : State) : Calm s (takeFrameClose p sent s) := by
  unfold takeFrameClose
  split
  · exact calm_modFrame_same p _ s
  · exact .refl s
  · dsimp only
    split
    · exact calm_eraseRest p s
    · exact (calm_eraseRest p s).trans (calm_closeEntry p _ _ _ _)

theorem calm_matchFrame (h : FrameHeader) (e : Entry) (s : State) : Calm s (matchFrame p h e s) := by
  have older (es : List Entry) : Calm s (es.foldl (fun t x => closeEntry p x.trigger .missed 0 t) s) :=
    calm_foldl es (fun t x => calm_closeEntry p x.trigger .missed 0 t) s
  unfold matchFrame
  dsimp only
  refine calm_ite _ (fun _ => ?_) fun _ => ?_
  · exact (((older _).trans (calm_modEntry p _ _ _)).trans (calm_closeEntry p _ _ _ _)).trans
      (calm_modFrame_same p _ _)
  · exact ((((((older _).trans (calm_modEntry p _ _ _)).trans (calm_setFilling p _ _)).trans
      (calm_dmaWrite _ _ _)).trans (calm_dmaWrite _ _ _)).trans (calm_dmaWrite _ _ _)).trans (calm_dmaWrite _ _ _)

theorem calm_closeLost (s : State) : Calm s (closeLost p s) := by
  unfold closeLost
  split
  · exact .refl s
  · exact (calm_eraseRest p s).trans (calm_closeEntry p _ _ _ _)

theorem calm_takeFrameOpen (h : FrameHeader) (s : State) : Calm s (takeFrameOpen p h s) := by
  unfold takeFrameOpen
  dsimp only
  split
  · exact (calm_closeLost p s).trans (calm_matchFrame p h _ _)
  · exact (calm_closeLost p s).trans (calm_modFrame_same p _ _)

theorem calm_lockedBurst (b : Burst) (exact : Bool) (s : State) : Calm s (lockedBurst p b exact s) := by
  refine .trans (t := recordBurst p b exact s) (calm_modLink p _ s) ?_
  cases b with
  | frameOpen h => exact calm_takeFrameOpen p h _
  | line n data => exact calm_takeLine p n data _
  | frameClose n => exact calm_takeFrameClose p n _
  | fill => exact .refl _
  | damaged => exact (calm_takeDamaged p _).trans (calm_flexCharge p 1 _)

theorem calm_endBurst (bytes : List Byte) (s : State) : Calm s (endBurst p bytes s) := by
  unfold endBurst
  dsimp only
  split
  · exact .refl s
  · refine calm_ite _ (fun _ => ?_) fun _ => .refl s
    split
    · exact calm_modLink p _ s
    · exact calm_lockedBurst p _ _ s
    · exact .refl s
  · exact calm_ite _ (fun _ => calm_lockedBurst p _ _ s) fun _ => .refl s

theorem calm_frameExpired (n : U32) (s : State) : Calm s (frameExpired p n s) := by
  unfold frameExpired
  split
  · exact .refl s
  · exact calm_ite _ (fun _ => calm_closeEntry p n _ _ s) fun _ => .refl s

/-! ## Marks and the carrier -/

theorem calm_linkDrop (c : DropCause) (s : State) : Calm s (linkDrop p c s) :=
  ((((calm_flexDrop p c s).trans (calm_modLink p _ _)).trans (calm_setPortAlert p _ _)).trans (calm_closeAll p _ _)).trans
    (calm_suspendChannel p _ _ _)

theorem calm_badLockedMark (s : State) : Calm s (badLockedMark p s) :=
  calm_ite _ (fun _ => calm_modLink p _ s) fun _ => calm_linkDrop p _ s

theorem calm_endBadBurst (s : State) : Calm s (endBadBurst p s) := calm_ite _ (fun _ => calm_endBurst p [] s) fun _ => .refl s

theorem calm_enterLocked (s : State) : Calm s (enterLocked p s) :=
  ((calm_modLink p _ s).trans (calm_modFlex p _ _)).trans (calm_channelLocked p _)

theorem calm_markInHunt (mark : U64) (s : State) : Calm s (markInHunt p mark s) := by
  unfold markInHunt
  dsimp only
  split
  · exact calm_ite _ (fun _ => calm_modLink p _ s) fun _ => .refl s
  · exact .refl s

theorem calm_markInConfirm (mark : U64) (s : State) : Calm s (markInConfirm p mark s) := by
  refine calm_ite _ (fun _ => ?_) fun _ => .refl s
  split
  · exact calm_ite _ (fun _ => calm_modLink p _ s) fun _ => (calm_modLink p _ s).trans (calm_enterLocked p _)
  · exact calm_modLink p _ s

theorem calm_markInLocked (mark : U64) (s : State) : Calm s (markInLocked p mark s) := by
  unfold markInLocked
  dsimp only
  refine calm_ite _ (fun _ => ?_) fun _ => .refl s
  split
  · exact (calm_endBadBurst p s).trans (calm_modLink p _ _)
  · exact (calm_endBadBurst p s).trans (calm_badLockedMark p _)

theorem calm_windowCloses (s : State) : Calm s (windowCloses p s) :=
  calm_ite _ (fun _ => (calm_endBadBurst p s).trans (calm_badLockedMark p _)) fun _ => .refl s

theorem calm_carrierLost (s : State) : Calm s (carrierLost p s) := by
  unfold carrierLost
  split
  · exact .refl s
  · exact calm_modLink p _ s
  · exact calm_modLink p _ s
  · exact (calm_modLink p _ s).trans (calm_linkDrop p _ _)

theorem calm_carrierBack (s : State) : Calm s (carrierBack p s) := by
  unfold carrierBack
  split
  · exact .refl s
  · exact calm_modLink p _ s

/-! ## Commands of a port and of the Chain Engine -/

theorem calm_patternPositions (f : Taker → Taker) (ps : List PortId) (s : State)
    (h : ∀ t, (f t).lastTrigger = t.lastTrigger := by intro _; rfl) :
    Calm s (forPorts ps (fun q => modTake q f) s) := calm_forPorts ps (fun s q => calm_modTake q f s (h _)) s

theorem calm_takeResetPort (a : Addr) (s : State) : Calm s (takeResetPort a p s) := by
  have link : ∀ s, Calm s (resetLink p s) := by
    intro s
    unfold resetLink
    split
    · exact (calm_suspendChannel p _ _ s).trans (calm_modLink p _ _)
    · exact (calm_suspendChannel p _ _ s).trans (calm_modLink p _ _)
    · exact .refl s
  exact ((((calm_closeAll p _ s).trans (link _)).trans (calm_modLens p _ _)).trans
    (calm_patternPositions _ _ _)).trans (calm_completeCommand ..)

/-- A port's settings are nothing to its sweep state and its trigger counters (R194). -/
theorem configured_calm {x : ConfigArgs} {q q' : Port} (h : configured x q = some q') :
    q'.sweep.state = q.sweep.state ∧ q'.take = q.take := by
  unfold configured at h
  split at h
  · rename_i w l r v _ _ _ hv
    cases h
    refine ⟨?_, rfl⟩
    unfold ifNamed at hv
    split at hv <;> cases hv <;> rfl
  · cases h

theorem calm_takeConfigurePort (a : Addr) (x : ConfigArgs) (s : State) : Calm s (takeConfigurePort a p x s) := by
  refine calm_ite _ (fun _ => calm_completeCommand ..) fun _ => ?_
  split
  · exact calm_completeCommand ..
  · rename_i q hq
    obtain ⟨hstate, -, -, -, hentries⟩ := configured_keeps hq
    obtain ⟨hsweep, htake⟩ := configured_calm hq
    refine (calm_modPort p _ s hstate hsweep (by rw [htake]) ?_).trans (calm_completeCommand ..)
    unfold entryTriggers
    rw [hentries]

theorem calm_takeClearAlerts (a : Addr) (ports cellFlags : Byte) (portFlags : U16) (s : State) :
    Calm s (takeClearAlerts a ports cellFlags portFlags s) :=
  calm_ite _ (fun _ => calm_completeCommand ..) fun _ =>
    ((calm_forPorts _ (fun s p => calm_modPort p _ s rfl rfl rfl (List.Sublist.refl _)) s).trans
      (calm_ite _ (fun _ => .refl _) fun _ => calm_modChain _ _)).trans (calm_completeCommand ..)

theorem calm_takeSetGather (a : Addr) (group count : Byte) (time : U16) (s : State) :
    Calm s (takeSetGather a group count time s) := by
  unfold takeSetGather
  split
  · exact calm_completeCommand ..
  · exact ((calm_ite _ (fun _ => calm_setCause _ s) fun _ => .refl s).trans (calm_modChain _ _)).trans (calm_completeCommand ..)

theorem calm_takeHeadAccess (a : Addr) (x : HeadArgs) (s : State) : Calm s (takeHeadAccess a p x s) := by
  unfold takeHeadAccess
  split
  · exact calm_completeCommand ..
  · exact calm_ite _ (fun _ => calm_completeCommand ..) fun _ => calm_ite _ (fun _ => calm_completeCommand ..) fun _ =>
      (calm_modCtl p _ s).trans (calm_arbitrate p _)

theorem calm_takeSetPattern (a : Addr) (length : Byte) (bits : U16) (s : State) : Calm s (takeSetPattern a p length bits s) :=
  calm_ite _ (fun _ => calm_completeCommand ..) fun _ =>
    (calm_patternPositions _ _ s).trans (calm_completeCommand ..)

theorem calm_takeSetLensTable (a : Addr) (x : TableArgs) (s : State) : Calm s (takeSetLensTable a p x s) := by
  unfold takeSetLensTable
  split
  · exact calm_ite _ (fun _ => calm_modLens p _ s) fun _ => calm_applyTable p _ s
  · exact calm_completeCommand ..

theorem calm_takeSetFlexAxis (a : Addr) (axis : Byte) (threshold : U16) (low high : U32) (s : State) :
    Calm s (takeSetFlexAxis a p axis threshold low high s) := by
  unfold takeSetFlexAxis
  split
  · exact calm_completeCommand ..
  · exact (calm_modFlex p _ s).trans (calm_completeCommand ..)

theorem calm_takeReleaseSnapshot (a : Addr) (s : State) : Calm s (takeReleaseSnapshot a p s) := by
  unfold takeReleaseSnapshot
  refine .trans ?_ (calm_completeCommand ..)
  split
  · exact .refl s
  · exact calm_modFlex p _ s

theorem calm_takeCommand (a : Addr) (s : State) : Calm s (takeCommand a s) :=
  (calm_takeRecord _ a s).trans (calm_writeRecordState _ _ _)

/-! ## Registers -/

theorem calm_writeBlockHalf (high : Bool) (v : U32) (s : State) : Calm s (writeBlockHalf high v s) := by
  unfold writeBlockHalf
  split
  · exact calm_modChain _ s
  · exact calm_modChain _ s
  · exact .refl s

theorem calm_writeEnable (v : U32) (s : State) : Calm s (writeEnable v s) := by
  have message : ∀ old g s, Calm s (enableMessage old g s) := fun old g s =>
    calm_ite _ (fun _ => calm_sendMessage g s) fun _ => .refl s
  exact (((calm_modChain _ s).trans (message _ _ _)).trans (message _ _ _)).trans (message _ _ _)

theorem calm_hostPost (ws : List HostWrite) (s : State) : Calm s (hostPost ws s) := .of_ports rfl rfl rfl fun _ => rfl

theorem calm_gatherExpires (g : GatherGroup) (s : State) : Calm s (gatherExpires g s) :=
  calm_ite _ (fun _ => calm_ite _ (fun _ => (calm_modChain _ s).trans (calm_setCause _ _)) fun _ => calm_modChain _ s)
    fun _ => .refl s

theorem calm_setAxis (ax : Axis) (x : AxisState) (s : State) : Calm s (setAxis ax x s) := by
  cases ax <;> exact calm_modTrig _ s rfl

theorem calm_modDebouncer (i : Input) (f : Debouncer → Debouncer) (s : State) : Calm s (modDebouncer i f s) := by
  cases i <;> exact calm_modTrig _ s rfl

end Sys2Proof.Machine
end

section
/-! PROOFS. The laws of masks, sets, trigger numbers and sweeps are kept where nothing happens to them, and the sweep front end keeps the
law of the sweeps (R141 to R146, R158, R161). -/

namespace Sys2Proof.Machine

/-- From `s` to `t` every law of the device is kept. -/
structure Lawful (s t : State) : Prop where
  laws : KeepsLaws s t
  masks : MaskLaw s → SetLaw s → MaskLaw t ∧ SetLaw t
  triggers : MaskLaw s → SetLaw s → TriggerLaw s → TriggerLaw t
  sweeps : PowerLaw s → SweepLaw s → SweepLaw t

section
variable {s t u : State}

theorem Lawful.refl (s : State) : Lawful s s := ⟨.refl s, fun h g => ⟨h, g⟩, fun _ _ => id, fun _ => id⟩

theorem Lawful.trans (h : Lawful s t) (g : Lawful t u) : Lawful s u where
  laws := h.laws.trans g.laws
  masks hm hs := g.masks (h.masks hm hs).1 (h.masks hm hs).2
  triggers hm hs ht := g.triggers (h.masks hm hs).1 (h.masks hm hs).2 (h.triggers hm hs ht)
  sweeps hp hw := g.sweeps (h.laws.budget hp) (h.sweeps hp hw)

theorem lawful_ite (c : Prop) [Decidable c] (ht : c → Lawful s t) (hu : ¬ c → Lawful s u) :
    Lawful s (if c then t else u) := by
  split
  · exact ht ‹_›
  · exact hu ‹_›

theorem Lawful.foldl {α : Type} {f : State → α → State} (l : List α) (hf : ∀ s x, Lawful s (f s x)) (s : State) :
    Lawful s (l.foldl f s) := by
  induction l generalizing s with
  | nil => exact .refl s
  | cons x l ih => exact (hf s x).trans (ih _)

/-! ## Where nothing happens to triggers, sets and sweeps -/

theorem maskLaw_of_masks (h : ∀ k, (t.source k).mask = (s.source k).mask) (hs : MaskLaw s) : MaskLaw t := by
  intro j k p
  rw [h, h]
  exact hs j k p

theorem setLaw_of_masks (h : ∀ k, (t.source k).mask = (s.source k).mask) (hformed : ∀ k : SetId, t.sets[k].formed = s.sets[k].formed)
    (hmembers : ∀ k : SetId, t.sets[k].mask = s.sets[k].mask) (hs : SetLaw s) : SetLaw t := by
  refine ⟨fun j k p => ?_, fun k hk => ?_⟩
  · rw [hformed, hformed, hmembers, hmembers]
    exact hs.1 j k p
  · rw [hformed] at hk
    obtain ⟨j, hj⟩ := hs.2 k hk
    exact ⟨j, fun p hp => by rw [h]; rw [hmembers] at hp; exact hj p hp⟩

theorem SameTriggers.source (h : SameTriggers s t) (k : SourceId) : t.source k = s.source k := by
  unfold State.source
  rw [h.sources]

theorem SameTriggers.setLaw (h : SameTriggers s t) (hs : SetLaw s) : SetLaw t :=
  setLaw_of_masks (fun k => by rw [h.source]) h.formed h.members hs

/-- The entries' part of the law of the trigger numbers, by the trigger numbers of the list. -/
theorem entryTriggers_rise (q : Port) : (q.frame.entries.map (·.trigger.toNat)) = (entryTriggers q).map (·.toNat) := by
  rw [entryTriggers, List.map_map]
  rfl

theorem entryTriggers_forall {q : Port} {P : U32 → Prop} : (∀ e ∈ q.frame.entries, P e.trigger) ↔ ∀ n ∈ entryTriggers q, P n := by
  simp [entryTriggers]

theorem entryTriggers_length (q : Port) : (entryTriggers q).length = q.frame.entries.length := List.length_map _

theorem SameTriggers.triggerLaw (h : SameTriggers s t) (hs : TriggerLaw s) : TriggerLaw t where
  activeBelow k := by rw [h.source]; exact hs.activeBelow k
  maskBelow k p := by rw [h.source, h.last]; exact hs.maskBelow k p
  entriesRise p := by
    rw [entryTriggers_rise]
    exact (entryTriggers_rise (s.port p) ▸ hs.entriesRise p).sublist ((h.entries p).map _)
  entriesSeen p := by
    rw [h.last]
    have seen := entryTriggers_forall (P := fun n => n.toNat ≤ (s.port p).take.lastTrigger.toNat).mp (hs.entriesSeen p)
    exact entryTriggers_forall (P := fun n => n.toNat ≤ _).mpr fun n hn => seen n ((h.entries p).subset hn)
  entriesRoom p := by
    rw [← entryTriggers_length]
    exact (h.entries p).length_le.trans (entryTriggers_length _ ▸ hs.entriesRoom p)
  itemsRoom k := (h.items k).trans (hs.itemsRoom k)

/-- What touches no trigger keeps the laws, if it keeps those of power, links and sweeps. -/
theorem SameTriggers.lawful (h : SameTriggers s t) (hlaws : KeepsLaws s t) (hsweeps : PowerLaw s → SweepLaw s → SweepLaw t) :
    Lawful s t where
  laws := hlaws
  masks hm hs := ⟨maskLaw_of_masks (fun k => by rw [h.source]) hm, h.setLaw hs⟩
  triggers _ _ := h.triggerLaw
  sweeps := hsweeps

/-- The law of the sweep front end but for the examination that is due when the front end comes free (R141, R142). -/
structure Sweeping (s : State) : Prop where
  once : ((allSweeps s.sweeps).map (·.port)).Nodup
  measuring : ∀ p, (s.port p).sweep.state = .measuring ↔ (s.sweeps.front.map (·.entry.port)) = some p
  queued : ∀ p, (s.port p).sweep.state = .queued ↔ p ∈ s.sweeps.queue.map (·.port)
  inactive : ∀ p, (s.port p).sweep.state ≠ .none → AtRest p s

theorem SweepLaw.sweeping (h : SweepLaw s) : Sweeping s := ⟨h.once, h.measuring, h.queued, h.inactive⟩

theorem Sweeping.sweepLaw (h : Sweeping s) (hfree : s.sweeps.front = none → s.sweeps.queue = []) : SweepLaw s :=
  ⟨h.once, h.measuring, h.queued, h.inactive, hfree⟩

theorem SameSweeps.sweeping (h : SameSweeps s t) (hs : Sweeping s) : Sweeping t where
  once := h.unit ▸ hs.once
  measuring p := by rw [h.state, h.unit]; exact hs.measuring p
  queued p := by rw [h.state, h.unit]; exact hs.queued p
  inactive p hp := by
    rw [h.state] at hp
    exact h.rest p hp (hs.inactive p hp)

theorem SameSweeps.sweepLaw (h : SameSweeps s t) (hs : SweepLaw s) : SweepLaw t :=
  (h.sweeping hs.sweeping).sweepLaw (by rw [h.unit]; exact hs.freeEmpty)

theorem Calm.lawful (h : Calm s t) (hlaws : KeepsLaws s t) : Lawful s t :=
  h.triggers.lawful hlaws fun _ => h.sweeps.sweepLaw

/-! ## The front end and its queue -/

/-- What changes of the ports are the sweep states alone, and no port comes under test that is powered. -/
theorem Sweeping.inactive_of (hs : Sweeping s) {p : PortId} (hpower : ∀ q, powerOf q t = powerOf q s) (hp : AtRest p s)
    (hothers : ∀ q, q ≠ p → (t.port q).sweep.state = (s.port q).sweep.state) (q : PortId) (hq : (t.port q).sweep.state ≠ .none) :
    AtRest q t := by
  unfold AtRest
  rw [hpower]
  rcases eq_or_ne q p with rfl | h
  · exact hp
  · rw [hothers q h] at hq
    exact hs.inactive q hq

theorem setSweepState_state (p q : PortId) (x : SweepState) (s : State) :
    ((setSweepState p x s).port q).sweep.state = if q = p then x else (s.port q).sweep.state := by
  unfold setSweepState
  split
  · rename_i h; rw [h, modSweep_port_self]
  · rename_i h; rw [modSweep_port_other s p q _ h]

theorem powerOf_setSweepState (p q : PortId) (x : SweepState) (s : State) : powerOf q (setSweepState p x s) = powerOf q s := by
  unfold powerOf setSweepState
  rw [modSweep_port_power]

/-- An examination of the sweep queue makes good what the front end's coming free left open (R141, R146). -/
theorem Sweeping.examined (hs : Sweeping s) : SweepLaw (examineSweeps s) := by
  unfold examineSweeps
  split
  · rename_i e rest hfront hqueue
    have honce : (e.port :: rest.map (·.port)).Nodup := by simpa [allSweeps, hfront, hqueue] using hs.once
    have hport : (s.port e.port).sweep.state = .queued := (hs.queued _).mpr (by simp [hqueue])
    refine ⟨by simpa [allSweeps, setSweepState, measuringOf] using honce, fun p => ?_, fun p => ?_,
      hs.inactive_of (fun q => powerOf_setSweepState ..) (hs.inactive _ (by rw [hport]; decide)) fun q hq => ?_, nofun⟩
    · have hm := hs.measuring p
      rw [hfront] at hm
      rw [setSweepState_state, modSweeps_port]
      show _ ↔ some e.port = some p
      split
      · rename_i h; simp [h]
      · rename_i h; simpa [Ne.symm h] using hm
    · have hq := hs.queued p
      rw [hqueue] at hq
      rw [setSweepState_state, modSweeps_port]
      show _ ↔ p ∈ rest.map (·.port)
      split
      · rename_i h; rw [h]; simpa using (List.nodup_cons.mp honce).1
      · rename_i h; simpa [h] using hq
    · rw [setSweepState_state, if_neg hq, modSweeps_port]
  · rename_i hnone
    refine ⟨hs.once, hs.measuring, hs.queued, hs.inactive, fun hfront => ?_⟩
    cases hqueue : s.sweeps.queue with
    | nil => rfl
    | cons e rest => exact (hnone e rest hfront hqueue).elim

/-- A sweep joins the queue: its port is OFF or TRIPPED and not under test (R141, R143, R144). -/
theorem SweepLaw.joined (hs : SweepLaw s) (e : SweepEntry) (hnone : (s.port e.port).sweep.state = .none) (hrest : AtRest e.port s) :
    SweepLaw (joinSweeps e s) := by
  have hfresh : e.port ∉ (allSweeps s.sweeps).map (·.port) := by
    intro h
    simp only [allSweeps, List.map_append, List.mem_append] at h
    rcases h with h | h
    · have := (hs.measuring e.port).mpr (by cases hf : s.sweeps.front <;> simp_all)
      rw [hnone] at this
      cases this
    · have := (hs.queued e.port).mpr h
      rw [hnone] at this
      cases this
  refine Sweeping.examined ⟨?_, fun p => ?_, fun p => ?_,
    hs.sweeping.inactive_of (fun q => powerOf_setSweepState ..) hrest fun q hq => ?_⟩
  · show ((allSweeps { s.sweeps with queue := s.sweeps.queue ++ [e] }).map (·.port)).Nodup
    have : allSweeps { s.sweeps with queue := s.sweeps.queue ++ [e] } = allSweeps s.sweeps ++ [e] := by simp [allSweeps]
    rw [this, List.map_append]
    exact List.nodup_append.mpr ⟨hs.once, List.nodup_singleton _, fun a ha b hb => by
      rw [List.map_singleton, List.mem_singleton] at hb
      rintro rfl
      exact hfresh (hb ▸ ha)⟩
  · rw [setSweepState_state, modSweeps_port]
    show _ ↔ s.sweeps.front.map (·.entry.port) = some p
    rw [← hs.measuring]
    split
    · rename_i h; simp [h, hnone]
    · rfl
  · rw [setSweepState_state, modSweeps_port]
    show _ ↔ p ∈ (s.sweeps.queue ++ [e]).map (·.port)
    rw [List.map_append, List.mem_append, ← hs.queued]
    split
    · rename_i h; simp [h]
    · rename_i h; simp [h]
  · rw [setSweepState_state, if_neg hq, modSweeps_port]

theorem sameTriggers_examineSweeps (s : State) : SameTriggers s (examineSweeps s) := by
  unfold examineSweeps
  split
  · exact (sameTriggers_modSweeps _ s).trans (sameTriggers_modSweep _ _ _)
  · exact .refl s

theorem sameTriggers_joinSweeps (e : SweepEntry) (s : State) : SameTriggers s (joinSweeps e s) :=
  ((sameTriggers_modSweeps _ s).trans (sameTriggers_modSweep _ _ _)).trans (sameTriggers_examineSweeps _)

theorem underTest_eq_false {p : PortId} : underTest p s = false ↔ (s.port p).sweep.state = .none := by
  simp [underTest]

end

variable (p : PortId)

theorem lawful_joinSweeps (e : SweepEntry) {s : State} (hnone : underTest e.port s = false) (hrest : AtRest e.port s) :
    Lawful s (joinSweeps e s) :=
  (sameTriggers_joinSweeps e s).lawful (keepsLaws_of_keeps fun _ _ => keeps_joinSweeps e s) fun _ hs =>
    hs.joined e (underTest_eq_false.mp hnone) hrest

theorem lawful_requestAutoSweep (c : Code) {s : State} (hrest : AtRest p s) : Lawful s (requestAutoSweep p c s) := by
  refine lawful_ite _ (fun h => ?_) fun _ => .refl s
  simp only [Bool.and_eq_true, Bool.not_eq_true'] at h
  exact lawful_joinSweeps _ h.2 hrest

theorem lawful_completeCommand (a : Addr) (c : Code) (r : List Byte) (s : State) : Lawful s (completeCommand a c r s) :=
  (calm_completeCommand a c r s).lawful (keepsLaws_completeCommand a c r s)

theorem lawful_takeCableSweep (a : Addr) (averages : Byte) (s : State) : Lawful s (takeCableSweep a p averages s) := by
  unfold takeCableSweep
  split
  · exact lawful_ite _ (fun _ => lawful_completeCommand ..) fun h => lawful_joinSweeps _ (by simpa using h) (.inl ‹_›)
  · exact lawful_ite _ (fun _ => lawful_completeCommand ..) fun h => lawful_joinSweeps _ (by simpa using h) (.inr ‹_›)
  · exact lawful_completeCommand ..

/-! ## The end of a sweep -/

theorem calm_completeOn (c : Code) (s : State) : Calm s (completeOn p c s) := by
  unfold completeOn
  split
  · exact .refl s
  · exact (calm_modPower_same p _ s).trans (calm_completeCommand ..)

theorem calm_acceptOn (a : Addr) (s : State) : Calm s (acceptOn p a s) := calm_modPower_same p _ s

/-- A port not under test may change its power. -/
theorem calm_modPower_free (f : PortPower → PortPower) {s : State} (h : underTest p s = false) : Calm s (modPower p f s) :=
  calm_modPower p f s fun hn _ => absurd (underTest_eq_false.mp h) hn

theorem underTest_modPower (f : PortPower → PortPower) (s : State) : underTest p (modPower p f s) = underTest p s := by
  unfold underTest
  rw [modPower_port_sweep]

/-- The decision at the end of a cooldown, at a port not under test (R13). -/
theorem calm_decideCooldown {s : State} (h : underTest p s = false) : Calm s (decideCooldown p s) := by
  have h1 : Calm s (modPower p (fun w => { w with expired := false }) s) := calm_modPower_same p _ s
  have free : underTest p (modPower p (fun w => { w with expired := false }) s) = false := (underTest_modPower p _ s).trans h
  have probe : ∀ f, Calm s (enterDetect p (modPower p f (modPower p (fun w => { w with expired := false }) s))) := fun f =>
    (h1.trans (calm_modPower_free p f free)).trans (calm_modPower_free p _ ((underTest_modPower p f _).trans free))
  unfold decideCooldown
  exact calm_ite _ (fun _ => h1.trans (calm_modPower_free p _ free)) fun _ => calm_ite _ (fun _ => probe _) fun _ =>
    calm_ite _ (fun _ => probe _) fun _ => h1.trans (calm_modPower_free p _ free)

theorem calm_cooldownExpired (s : State) : Calm s (cooldownExpired p s) := by
  unfold cooldownExpired
  refine calm_ite _ (fun _ => ?_) fun _ => .refl s
  have h1 : Calm s (modPower p (fun w => { w with cooldown := none }) s) := calm_modPower_same p _ s
  refine calm_ite _ (fun _ => h1.trans (calm_modPower_same p _ _)) fun hfree => h1.trans (calm_decideCooldown p ?_)
  rw [underTest_modPower]
  simpa using hfree

theorem calm_sweepEnded {s : State} (h : underTest p s = false) : Calm s (sweepEnded p s) := by
  unfold sweepEnded
  refine calm_ite _ (fun _ => ?_) fun _ => calm_ite _ (fun _ => calm_decideCooldown p h) fun _ => .refl s
  exact (calm_modPower_same p _ s).trans (calm_modPower_free p _ ((underTest_modPower p _ s).trans h))

theorem calm_deliverSweep (m : Measuring) (r : SweepResult) (s : State) : Calm s (deliverSweep m r s) := by
  unfold deliverSweep
  dsimp only
  generalize hd : dmaWrite (blockAt (breakRecordOffset m.entry.port) s) _ _ = d
  have written : Calm s d := by rw [← hd]; exact (calm_dmaWrite _ _ s).trans (calm_dmaWrite _ _ _)
  have answered : ∀ b, Calm s (match m.entry.recAt with | some a => completeCommand a .ok b d | none => d) := by
    intro b
    split
    · exact written.trans (calm_completeCommand ..)
    · exact written
  split
  · exact (answered _).trans (calm_setPortAlert _ _ _)
  · exact answered _

/-- A change of the sweep unit that two states share. -/
theorem SameSweeps.modSweeps {s t : State} (h : SameSweeps s t) (f : SweepUnit → SweepUnit) :
    SameSweeps (modSweeps f s) (modSweeps f t) :=
  ⟨congrArg f h.unit, h.state, h.rest⟩

/-- The measurement leaves the front end, and its port is no longer under test (R142, R158). -/
theorem SweepLaw.measured {s : State} (hs : SweepLaw s) {m : Measuring} (hm : s.sweeps.front = some m)
    (f : PortSweep → PortSweep) (hf : ∀ w, (f w).state = .none) :
    Sweeping (modSweeps (fun w => { w with front := none }) (modSweep m.entry.port f s)) := by
  have state : ∀ q, ((modSweep m.entry.port f s).port q).sweep.state =
      if q = m.entry.port then .none else (s.port q).sweep.state := by
    intro q
    split
    · rename_i h; rw [h, modSweep_port_self, hf]
    · rename_i h; rw [modSweep_port_other s _ q _ h]
  have honce : (m.entry.port :: s.sweeps.queue.map (·.port)).Nodup := by simpa [allSweeps, hm] using hs.once
  refine ⟨by simpa [allSweeps] using (List.nodup_cons.mp honce).2, fun p => ?_, fun p => ?_, fun p hp => ?_⟩
  · rw [modSweeps_port, state]
    have := hs.measuring p
    rw [hm] at this
    show _ ↔ none = some p
    split
    · simp
    · rename_i h; simpa [Ne.symm h] using this
  · rw [modSweeps_port, state]
    show _ ↔ p ∈ s.sweeps.queue.map (·.port)
    rw [← hs.queued]
    split
    · rename_i h
      rw [(hs.measuring p).mpr (by rw [hm, h]; rfl)]
      decide
    · rfl
  · rw [modSweeps_port, state] at hp
    unfold AtRest powerOf
    rw [modSweeps_port, modSweep_port_power]
    exact hs.inactive p (by split at hp <;> simp_all)

/-- A measurement completes: its sweep is delivered, and the next is measured (R146, R158, R160). -/
theorem lawful_sweepDone (samples : List (List (BitVec 14))) (s : State) : Lawful s (sweepDone samples s) := by
  have laws := keepsLaws_sweepDone samples s
  unfold sweepDone at laws ⊢
  split
  · exact .refl s
  · rename_i m hm
    rw [hm] at laws
    dsimp only at laws ⊢
    have delivered := calm_deliverSweep m (analyseSweep m.settings
      (averagedSamples m.entry.averages (sumSamples m.sums samples))) s
    generalize deliverSweep m _ s = s1 at delivered laws ⊢
    have free : underTest m.entry.port (modSweep m.entry.port (fun w => { w with state := .none, count := w.count + 1 }) s1)
        = false := by
      rw [underTest_eq_false, modSweep_port_self]
    have ended := calm_sweepEnded m.entry.port free
    refine SameTriggers.lawful ?_ laws fun _ hs => ?_
    · exact ((delivered.triggers.trans (sameTriggers_modSweep _ _ _)).trans ended.triggers).trans
        ((sameTriggers_modSweeps _ _).trans (sameTriggers_examineSweeps _))
    · have gone := (delivered.sweeps.sweepLaw hs).measured (m := m) (by rw [delivered.sweeps.unit]; exact hm)
        (fun w => { w with state := .none, count := w.count + 1 }) fun _ => rfl
      exact ((ended.sweeps.modSweeps fun w => { w with front := none }).sweeping gone).examined

/-! ## Sweeps at a cell stop -/

/-- No sweep is under way or waiting, and no port is under test. -/
structure NoSweeps (s : State) : Prop where
  unit : s.sweeps = { front := none, queue := [] }
  state : ∀ p, (s.port p).sweep.state = .none

theorem NoSweeps.sweepLaw {s : State} (h : NoSweeps s) : SweepLaw s where
  once := by rw [h.unit]; exact List.nodup_nil
  measuring p := by simp [h.state, h.unit]
  queued p := by simp [h.state, h.unit]
  inactive p hp := absurd (h.state p) hp
  freeEmpty _ := by rw [h.unit]

theorem Calm.noSweeps {s t : State} (h : Calm s t) (hs : NoSweeps s) : NoSweeps t :=
  ⟨h.sweeps.unit.trans hs.unit, fun p => (h.sweeps.state p).trans (hs.state p)⟩

theorem sameTriggers_abandonSweep (e : SweepEntry) (s : State) : SameTriggers s (abandonSweep e s) := by
  unfold abandonSweep
  dsimp only
  split
  · exact (sameTriggers_modSweep _ _ s).trans (calm_completeCommand ..).triggers
  · exact sameTriggers_modSweep _ _ s

theorem abandonSweep_sweeps (e : SweepEntry) (s : State) : (abandonSweep e s).sweeps = s.sweeps := by
  unfold abandonSweep
  dsimp only
  split
  · exact (cardKept_completeCommand ..).sweeps
  · rfl

theorem abandonSweep_state (e : SweepEntry) (q : PortId) (s : State) :
    ((abandonSweep e s).port q).sweep.state = if q = e.port then .none else (s.port q).sweep.state := by
  rw [← setSweepState_state]
  unfold abandonSweep
  dsimp only
  split
  · rw [(cardKept_completeCommand ..).port]
  · rfl

/-- The sweeps abandoned one after the other: no port of theirs is under test (R161). -/
theorem abandonSweeps_state (es : List SweepEntry) (q : PortId) (s : State) :
    ((es.foldl (fun t e => abandonSweep e t) s).port q).sweep.state =
      if q ∈ es.map (·.port) then .none else (s.port q).sweep.state := by
  induction es generalizing s with
  | nil => simp
  | cons e es ih =>
    rw [List.foldl_cons, ih, abandonSweep_state, List.map_cons]
    by_cases h : q ∈ es.map (·.port) <;> by_cases h' : q = e.port <;> simp_all

theorem abandonSweeps_sweeps (es : List SweepEntry) (s : State) :
    (es.foldl (fun t e => abandonSweep e t) s).sweeps = s.sweeps := by
  induction es generalizing s with
  | nil => rfl
  | cons e es ih => rw [List.foldl_cons, ih, abandonSweep_sweeps]

theorem sameTriggers_foldl {α : Type} {f : State → α → State} (l : List α) (hf : ∀ s x, SameTriggers s (f s x)) (s : State) :
    SameTriggers s (l.foldl f s) := by
  induction l generalizing s with
  | nil => exact .refl s
  | cons x l ih => exact (hf s x).trans (ih _)

/-- The notices that the sweeps have ended, with no port under test any more. -/
theorem calm_sweepsEnded (es : List SweepEntry) {s : State} (hs : NoSweeps s) :
    Calm s (es.foldl (fun t e => sweepEnded e.port t) s) := by
  induction es generalizing s with
  | nil => exact .refl s
  | cons e es ih =>
    have h := calm_sweepEnded e.port (underTest_eq_false.mpr (hs.state e.port))
    exact h.trans (ih (h.noSweeps hs))

theorem sameTriggers_modPower (f : PortPower → PortPower) (s : State) : SameTriggers s (modPower p f s) :=
  sameTriggers_modPort p _ s rfl (List.Sublist.refl _)

theorem sameTriggers_decideCooldown (s : State) : SameTriggers s (decideCooldown p s) := by
  have h := sameTriggers_modPower p (fun w => { w with expired := false }) s
  unfold decideCooldown
  dsimp only
  split
  · exact h.trans (sameTriggers_modPower p _ _)
  · split
    · exact (h.trans (sameTriggers_modPower p _ _)).trans (sameTriggers_modPower p _ _)
    · split
      · exact (h.trans (sameTriggers_modPower p _ _)).trans (sameTriggers_modPower p _ _)
      · exact h.trans (sameTriggers_modPower p _ _)

theorem sameTriggers_sweepEnded (s : State) : SameTriggers s (sweepEnded p s) := by
  unfold sweepEnded
  dsimp only
  split
  · exact (sameTriggers_modPower p _ s).trans (sameTriggers_modPower p _ _)
  · split
    · exact sameTriggers_decideCooldown p s
    · exact .refl s

/-- Every sweep is abandoned (R161). -/
theorem SweepLaw.abandoned {s : State} (hs : SweepLaw s) : NoSweeps ((allSweeps s.sweeps).foldl (fun t e => abandonSweep e t)
    (modSweeps (fun _ => { front := none, queue := [] }) s)) := by
  refine ⟨abandonSweeps_sweeps _ _, fun p => ?_⟩
  rw [abandonSweeps_state, modSweeps_port]
  split
  · rfl
  · rename_i h
    simp only [allSweeps, List.map_append, List.mem_append, not_or] at h
    cases hst : (s.port p).sweep.state with
    | none => rfl
    | queued => exact absurd ((hs.queued p).mp hst) h.2
    | measuring =>
      have hm := (hs.measuring p).mp hst
      refine absurd ?_ h.1
      cases hf : s.sweeps.front <;> simp_all

theorem lawful_stopSweeps (s : State) : Lawful s (stopSweeps s) := by
  have laws : KeepsLaws s (stopSweeps s) :=
    (keepsLaws_of_keeps fun A _ => (keeps_modSweeps _ s).trans (keeps_foldl' _ (fun t e => keeps_abandonSweep e t) _)).trans
      (Frees.foldl _ (fun t e => frees_sweepEnded _ t) _).keepsLaws
  refine SameTriggers.lawful ?_ laws fun _ hs => ((calm_sweepsEnded _ hs.abandoned).noSweeps hs.abandoned).sweepLaw
  exact ((sameTriggers_modSweeps _ s).trans (sameTriggers_foldl _ (fun t e => sameTriggers_abandonSweep e t) _)).trans
    (sameTriggers_foldl _ (fun t (e : SweepEntry) => sameTriggers_sweepEnded e.port t) _)

end Sys2Proof.Machine
end

section
/-! PROOFS. The Power Controller keeps the laws of triggers, sets and sweeps (R3 to R22). -/

namespace Sys2Proof.Machine

variable (p : PortId)

/-! ## Power removal -/

theorem calm_powerRemoved (s : State) : Calm s (powerRemoved p s) := by
  unfold powerRemoved linkDown forgetCodes
  exact (((calm_modLink p _ s).trans (calm_closeAll p _ _)).trans (calm_suspendChannel p _ _ _)).trans (calm_modLens p _ _)

theorem calm_enterOff (c : Code) (s : State) : Calm s (enterOff p c s) := calm_modPower p _ s fun _ _ => .inl rfl

theorem calm_turnOff (c : Code) (s : State) : Calm s (turnOff p c s) := by
  have removed : Calm s (powerRemoved p (enterOff p c (releaseGrant p s))) :=
    ((calm_modPowerCell _ s).trans (calm_enterOff p c _)).trans (calm_powerRemoved p _)
  unfold turnOff
  split
  · exact calm_enterOff p c s
  · exact (calm_modPowerCell _ s).trans (calm_enterOff p c _)
  · exact removed
  · exact removed
  · exact removed
  · exact .refl s
  · exact .refl s

/-- A port that is neither OFF nor TRIPPED may change its power. -/
theorem calm_modPower_awake (f : PortPower → PortPower) {s : State} (h : ¬ AtRest p s) : Calm s (modPower p f s) :=
  calm_modPower p f s fun _ hr => absurd hr h

/-! ## The queue of the budget -/

/-- The ports of the budget queue are QUEUED (R7). -/
abbrev QueueSound (s : State) : Prop := ∀ q ∈ s.power.queue, powerOf q s = .queued

theorem Ledger.queueSound {s : State} (h : Ledger s) : QueueSound s := fun q => (h.queueQueued q).mp

theorem sameTriggers_examineBudget (s : State) : SameTriggers s (examineBudget s) := by
  rcases examineBudget_cases s with e | ⟨q, rest, -, -, e⟩ <;> rw [e]
  · exact .refl s
  · exact (calm_modPowerCell _ s).triggers.trans (sameTriggers_modPower q _ _)

/-- A grant goes to a QUEUED port, which is not under test. -/
theorem sameSweeps_examineBudget {s : State} (h : QueueSound s) : SameSweeps s (examineBudget s) := by
  rcases examineBudget_cases s with e | ⟨q, rest, hq, -, e⟩ <;> rw [e]
  · exact .refl s
  · have hqueued : powerOf q s = .queued := h q (by rw [hq]; exact List.mem_cons_self)
    refine ((calm_modPowerCell _ s).trans (calm_modPower_awake q _ ?_)).sweeps
    unfold AtRest
    rw [powerOf_modPowerCell, hqueued]
    decide

theorem lawful_examineBudget (s : State) : Lawful s (examineBudget s) :=
  (sameTriggers_examineBudget s).lawful (keepsLaws_examineBudget s) fun hp =>
    (sameSweeps_examineBudget hp.ledger.queueSound).sweepLaw

/-! ## Trips -/

theorem lawful_trip (c : Code) {s : State} (hq : powerOf p s ≠ .queued) : Lawful s (trip p c s) := by
  have tripped : ∀ t : State, Calm t (setPortAlert p alertTrip (completeOn p c (modPower p (trippedPower c) t))) := fun t =>
    ((calm_modPower p _ t fun _ _ => .inr rfl).trans (calm_completeOn p c _)).trans (calm_setPortAlert p _ _)
  cases h : isPowered (powerOf p s)
  · rw [trip_unpowered p c h]
    refine ((tripped s).lawful (Frees.keepsLaws ?_)).trans (lawful_requestAutoSweep p c ?_)
    · exact ((frees_modPower_idle p _ h hq rfl (show PowerState.tripped ≠ .queued by decide)).trans (frees_completeOn p c _)).trans
        (frees_setPortAlert p _ _)
    · right
      rw [powerOf_eq, setPortAlert_portPower, completeOn_portPower, modPower_port_self]
  · rw [trip_powered p c h]
    refine Lawful.trans (.trans (Calm.lawful ?_ (frees_tripFromPower p c h).keepsLaws) (lawful_requestAutoSweep p c ?_))
      (lawful_examineBudget _)
    · exact ((calm_modPowerCell _ s).trans (tripped _)).trans (calm_powerRemoved p _)
    · right
      rw [powerOf_eq, tripFromPower_portPower]

/-! ## Commands and events -/

theorem calm_takePowerOn (a : Addr) (s : State) : Calm s (takePowerOn a p s) := by
  have pending : Calm s (modPower p (fun w => { w with pendingOn := true }) (acceptOn p a s)) :=
    (calm_acceptOn p a s).trans (calm_modPower_same p _ _)
  unfold takePowerOn
  dsimp only
  refine calm_ite _ (fun _ => calm_completeCommand ..) fun _ => ?_
  split
  · exact calm_completeCommand ..
  · exact calm_completeCommand ..
  · refine calm_ite _ (fun _ => calm_completeCommand ..) fun _ => calm_ite _ (fun _ => pending) fun hfree => ?_
    refine (calm_acceptOn p a s).trans (calm_modPower_free p _ ?_)
    rw [acceptOn, underTest_modPower]
    simpa using hfree
  · exact calm_ite _ (fun _ => calm_completeCommand ..) fun _ => calm_acceptOn p a s
  · exact calm_ite _ (fun _ => calm_completeCommand ..) fun _ => calm_acceptOn p a s
  · exact calm_ite _ (fun _ => calm_completeCommand ..) fun _ => calm_acceptOn p a s
  · exact calm_ite _ (fun _ => calm_completeCommand ..) fun _ => pending

theorem lawful_hostOff (s : State) : Lawful s (hostOff p s) := by
  have idle : Lawful s (modPower p (fun w => { w with retries := 0, pendingOn := false }) (completeOn p .cancelled s)) :=
    ((calm_completeOn p _ s).trans (calm_modPower_same p _ _)).lawful
      ((frees_completeOn p _ s).trans (frees_modPower_same p _ _ rfl rfl)).keepsLaws
  have off : Lawful s (turnOff p .hostOff (completeOn p .cancelled s)) :=
    ((calm_completeOn p _ s).trans (calm_turnOff p _ _)).lawful ((frees_completeOn p _ s).trans (frees_turnOff p _ _)).keepsLaws
  unfold hostOff
  dsimp only
  split
  · exact idle
  · exact idle
  · exact off
  · exact off.trans (lawful_examineBudget _)
  · exact off.trans (lawful_examineBudget _)
  · exact off.trans (lawful_examineBudget _)
  · exact off.trans (lawful_examineBudget _)

theorem lawful_takePowerOff (a : Addr) (s : State) : Lawful s (takePowerOff a p s) :=
  (lawful_hostOff p s).trans (lawful_completeCommand ..)

theorem calm_detectFailed (c : Code) (s : State) : Calm s (detectFailed p c s) :=
  (calm_enterOff p c s).trans (calm_completeOn p c _)

theorem lawful_detectDone (ohms : Nat) (s : State) : Lawful s (detectDone p ohms s) := by
  have laws := keepsLaws_detectDone p ohms s
  unfold detectDone at laws ⊢
  refine lawful_ite _ (fun h => ?_) fun _ => .refl s
  rw [if_pos h] at laws
  split at laws
  · exact lawful_trip p _ (by rw [h]; decide)
  · have awake : ¬ AtRest p s := by unfold AtRest; rw [h]; decide
    have joined : Calm s (modPowerCell (fun c => { c with queue := c.queue ++ [p] })
        (modPower p (fun w => { stopTimers w with state := .queued }) s)) :=
      (calm_modPower_awake p _ awake).trans (calm_modPowerCell _ _)
    refine (joined.triggers.trans (sameTriggers_examineBudget _)).lawful laws fun hp hs => ?_
    refine (sameSweeps_examineBudget fun q hq => ?_).sweepLaw (joined.sweeps.sweepLaw hs)
    rw [powerOf_modPowerCell]
    rcases eq_or_ne q p with rfl | hne
    · rw [powerOf_modPower]
    · unfold powerOf
      rw [modPower_port_other s p q _ hne]
      refine hp.ledger.queueSound q ?_
      rcases List.mem_append.mp hq with hq | hq
      · exact hq
      · exact absurd (List.mem_singleton.mp hq) hne
  · refine ((calm_detectFailed p _ s).lawful (frees_detectFailed p _ h).keepsLaws).trans (lawful_requestAutoSweep p _ (.inl ?_))
    unfold detectFailed enterOff
    rw [powerOf_eq, completeOn_portPower, modPower_port_self]
  · exact (calm_detectFailed p _ s).lawful (frees_detectFailed p _ h).keepsLaws

theorem lawful_inrushDone (s : State) : Lawful s (inrushDone p s) := by
  have laws := keepsLaws_inrushDone p s
  unfold inrushDone at laws ⊢
  refine lawful_ite _ (fun h => ?_) fun _ => .refl s
  rw [if_pos h] at laws
  have awake : ¬ AtRest p s := by unfold AtRest; rw [h]; decide
  have up : Calm s (linkUp p (completeOn p .ok (modPower p (fun w => { stopTimers w with state := .on, cause := .ok }) s))) :=
    ((calm_modPower_awake p _ awake).trans (calm_completeOn p _ _)).trans (calm_modLink p _ _)
  refine (up.triggers.trans (sameTriggers_examineBudget _)).lawful laws fun hp hs => ?_
  refine (sameSweeps_examineBudget fun q hq => ?_).sweepLaw (up.sweeps.sweepLaw hs)
  unfold linkUp at hq ⊢
  rw [modLink_power, completeOn_power, modPower_power] at hq
  have hqueued := hp.ledger.queueSound q hq
  have hne : q ≠ p := by rintro rfl; rw [h] at hqueued; cases hqueued
  unfold powerOf
  rw [modLink_port_power, (powerOnly_completeOn p .ok _).others q hne, modPower_port_other s p q _ hne]
  exact hqueued

theorem lawful_currentSampled (ma : U16) (s : State) : Lawful s (currentSampled p ma s) := by
  have laws := keepsLaws_currentSampled p ma s
  unfold currentSampled at laws ⊢
  dsimp only at laws ⊢
  refine lawful_ite _ (fun hp => ?_) fun _ => .refl s
  rw [if_pos hp] at laws
  have awake : ¬ AtRest p s := by rintro (e | e) <;> rw [powerOf_eq] at e <;> rw [e] at hp <;> exact absurd hp (by decide)
  have read : Calm s (modPower p (fun w => { w with loadMa := ma }) s) := calm_modPower_same p _ s
  have hst : powerOf p (modPower p (fun w => { w with loadMa := ma }) s) = powerOf p s := powerOf_modPower ..
  have still : ¬ AtRest p (modPower p (fun w => { w with loadMa := ma }) s) := by unfold AtRest; rw [hst]; exact awake
  have readLaws : KeepsLaws s (modPower p (fun w => { w with loadMa := ma }) s) := (frees_modPower_same p _ s rfl rfl).keepsLaws
  split
  · refine (read.lawful readLaws).trans (lawful_trip p _ ?_)
    rw [hst]; intro e; rw [← powerOf_eq, e] at hp; exact absurd hp (by decide)
  · rename_i hshort
    rw [if_neg hshort] at laws
    refine Calm.lawful ?_ laws
    exact calm_ite _ (fun _ => read.trans (calm_modPower_awake p _ still)) fun _ =>
      calm_ite _ (fun _ => read.trans (calm_modPower_awake p _ still)) fun _ => read

theorem lawful_inrushExpired (s : State) : Lawful s (inrushExpired p s) :=
  lawful_ite _ (fun h => lawful_trip p _ (by rw [h]; decide)) fun _ => .refl s

theorem lawful_foldbackExpired (s : State) : Lawful s (foldbackExpired p s) :=
  lawful_ite _ (fun h => lawful_trip p _ (by rw [h]; decide)) fun _ => .refl s

/-! ## Budget, supply and stop -/

theorem calm_shedLoop (n : Nat) (s : State) (shed : List PortId) : Calm s (shedLoop n s shed).1 := by
  induction n generalizing s shed with
  | zero => exact .refl s
  | succ n ih =>
    unfold shedLoop
    split
    · exact .refl s
    · split
      · exact .refl s
      · exact .trans (((calm_turnOff _ _ s).trans (calm_completeOn _ _ _)).trans (calm_setPortAlert _ _ _)) (ih _ _)

theorem lawful_takeSetBudget (a : Addr) (budget : U32) (s : State) : Lawful s (takeSetBudget a budget s) := by
  have laws := keepsLaws_takeSetBudget a budget s
  unfold takeSetBudget at laws ⊢
  dsimp only at laws ⊢
  generalize hs1 : modPowerCell (fun c => { c with budget := min budget.toNat maxBudget }) s = s1 at laws ⊢
  have lowered : Calm s s1 := by rw [← hs1]; exact calm_modPowerCell _ s
  have ledger : Ledger s → Ledger s1 := by rw [← hs1]; exact ledger_modPowerCell _ rfl rfl rfl
  have shed := lowered.trans (calm_shedLoop s1.power.grants.length s1 [])
  have answered := shed.trans (calm_completeCommand a .ok (leBytes 4 (min budget.toNat maxBudget)
    ++ u8 (portsMask (shedLoop s1.power.grants.length s1 []).2).toNat) _)
  refine (answered.triggers.trans (sameTriggers_examineBudget _)).lawful laws fun hp hs => ?_
  refine (sameSweeps_examineBudget (Ledger.queueSound ?_)).sweepLaw (answered.sweeps.sweepLaw hs)
  exact (frees_completeCommand ..).ledger ((frees_shedLoop _ _ _).ledger (ledger hp.ledger))

theorem calm_supplyLowPort (s : State) : Calm s (supplyLowPort p s) :=
  (((calm_turnOff p _ s).trans (calm_ite _ (fun _ => calm_setPortAlert p _ _) fun _ => .refl _)).trans
    (calm_modPower_same p _ _)).trans (calm_completeOn p _ _)

theorem calm_supplySampled (mv : U32) (s : State) : Calm s (supplySampled mv s) := by
  have h : Calm s (modPowerCell (fun c => { c with supplyMv := mv }) s) := calm_modPowerCell _ s
  unfold supplySampled
  refine calm_ite _ (fun _ => h.trans ?_) fun _ => calm_ite _ (fun _ => h.trans (calm_modPowerCell _ _)) fun _ => h
  exact ((calm_modPowerCell _ _).trans (calm_forPorts _ (fun s p => calm_supplyLowPort p s) _)).trans (calm_setCellAlert _ _)

theorem calm_stopPortPower (s : State) : Calm s (stopPortPower p s) := by
  unfold stopPortPower
  dsimp only
  refine .trans (.trans ?_ (calm_completeOn p _ _)) (calm_modPower_same p _ _)
  split
  · exact calm_turnOff p _ s
  · exact calm_turnOff p _ s
  · exact .refl s

theorem lawful_stopCell (s : State) : Lawful s (stopCell s) := by
  have power : ∀ s, Lawful s (stopPower s) := fun s => .foldl _ (fun s p => (calm_stopPortPower p s).lawful
    (frees_stopPortPower p s).keepsLaws) s
  have entries : ∀ s, Lawful s (stopEntries s) := fun s =>
    ((calm_forPorts _ (fun s p => calm_settleTargets p .cut s) s).trans (calm_closeEntries ..)).lawful
      (keepsLaws_of_keeps fun A _ => (keeps_forPorts' _ (fun s p => keeps_settleTargets p .cut s) s).trans
        (keeps_closeEntries _ _ _))
  have ports : ∀ s, Lawful s (forPorts allPorts stopPort s) := fun s => .foldl _ (fun s p =>
    ((calm_afterCloses p s).trans (calm_stopChannel p _)).lawful
      (keepsLaws_of_keeps fun A _ => (closes_afterCloses p s).keeps.trans (keeps_stopChannel p _))) s
  unfold stopCell
  refine Lawful.trans (Lawful.trans (Lawful.trans (Calm.lawful ?_ ?_) (entries _)) (ports _))
    ((power _).trans (lawful_stopSweeps _))
  · exact (calm_modChain _ s).trans (calm_writeCellMirror _)
  · exact (keepsLaws_modChain _ s).trans (keepsLaws_writeCellMirror _)

end Sys2Proof.Machine
end

section
/-! PROOFS. A fire reaches single ports and whole sets, each once, and keeps the law of the trigger numbers (R67, R69, R74, R76 to R80,
R105, R130 to R133). -/

namespace Sys2Proof.Machine

/-! ## Ports of a mask and sets of ports -/

theorem mem_maskPorts {m : BitVec 8} {p : PortId} : p ∈ maskPorts m ↔ m.getLsbD p.val = true := by
  simp [maskPorts, mem_allPorts]

theorem nodup_maskPorts (m : BitVec 8) : (maskPorts m).Nodup := List.Nodup.filter _ (by decide)

theorem setOf_eq_some {s : State} {p : PortId} {k : SetId} (h : s.setOf p = some k) :
    s.sets[k].formed = true ∧ p ∈ maskPorts s.sets[k].mask := by
  have found := List.find?_some h
  rw [Bool.and_eq_true] at found
  exact ⟨found.1, mem_maskPorts.mpr found.2⟩

theorem mem_allSets (k : SetId) : k ∈ ([0, 1, 2, 3] : List SetId) := by revert k; decide

/-- A member of a formed set is a member of no other (R127). -/
theorem SetLaw.setOf_member {s : State} (hs : SetLaw s) {k : SetId} (hk : s.sets[k].formed = true) {p : PortId}
    (hp : p ∈ maskPorts s.sets[k].mask) : s.setOf p = some k := by
  cases h : s.setOf p with
  | none =>
    have hno := List.find?_eq_none.mp h k (mem_allSets k)
    rw [hk, mem_maskPorts.mp hp] at hno
    exact absurd rfl hno
  | some j =>
    obtain ⟨hj, hpj⟩ := setOf_eq_some h
    rw [hs.1 j k p hj hk (mem_maskPorts.mp hpj) (mem_maskPorts.mp hp)]

theorem setOf_eq_of_members {s t : State} (hformed : ∀ k : SetId, t.sets[k].formed = s.sets[k].formed)
    (hmembers : ∀ k : SetId, t.sets[k].mask = s.sets[k].mask) (p : PortId) : t.setOf p = s.setOf p := by
  unfold State.setOf
  simp only [hformed, hmembers]

/-- One source after an update. -/
theorem modSource_source (k j : SourceId) (f : Source → Source) (s : State) :
    (modSource k f s).source j = if j = k then f (s.source k) else s.source j := by
  show (s.trig.sources.set k (f s.trig.sources[k]))[j] = _
  rcases eq_or_ne j k with rfl | h
  · simp [State.source]
  · have : k.val ≠ j.val := fun e => h (Fin.ext e.symm)
    simp [h, this, State.source]

/-! ## What a fire leaves alone -/

/-- From `s` to `t` a fire has reached no port but those of `P`: the sources and the members of the sets stay as they are, the sweeps
too, and every other port's last trigger number. -/
structure FireKeeps (P : PortId → Prop) (s t : State) : Prop where
  sweeps : SameSweeps s t
  sources : t.trig.sources = s.trig.sources
  formed : ∀ k : SetId, t.sets[k].formed = s.sets[k].formed
  members : ∀ k : SetId, t.sets[k].mask = s.sets[k].mask
  last : ∀ q, ¬ P q → (t.port q).take.lastTrigger = (s.port q).take.lastTrigger

section
variable {P : PortId → Prop} {s t u : State} {n : U32} {p : PortId}

theorem FireKeeps.trans (h : FireKeeps P s t) (g : FireKeeps P t u) : FireKeeps P s u where
  sweeps := h.sweeps.trans g.sweeps
  sources := g.sources.trans h.sources
  formed k := (g.formed k).trans (h.formed k)
  members k := (g.members k).trans (h.members k)
  last q hq := (g.last q hq).trans (h.last q hq)

theorem Calm.fireKeeps (h : Calm s t) : FireKeeps P s t :=
  ⟨h.sweeps, h.triggers.sources, h.triggers.formed, h.triggers.members, fun q _ => h.triggers.last q⟩

theorem FireKeeps.refl (P : PortId → Prop) (s : State) : FireKeeps P s s := (Calm.refl s).fireKeeps

theorem FireKeeps.foldl {α : Type} {f : State → α → State} (l : List α) (hf : ∀ s, ∀ x ∈ l, FireKeeps P s (f s x)) (s : State) :
    FireKeeps P s (l.foldl f s) := by
  induction l generalizing s with
  | nil => exact .refl P s
  | cons x l ih => exact (hf s x List.mem_cons_self).trans (ih (fun s y hy => hf s y (List.mem_cons_of_mem x hy)) _)

theorem FireKeeps.setOf (h : FireKeeps P s t) (p : PortId) : t.setOf p = s.setOf p := setOf_eq_of_members h.formed h.members p

theorem FireKeeps.source (h : FireKeeps P s t) (k : SourceId) : t.source k = s.source k := by
  unfold State.source
  rw [h.sources]

theorem fireKeeps_modTake (f : Taker → Taker) (s : State) (hp : P p) : FireKeeps P s (modTake p f s) where
  sweeps := sameSweeps_modPort p _ s rfl fun _ h => h
  sources := rfl
  formed _ := rfl
  members _ := rfl
  last q hq := by
    have hne : q ≠ p := by rintro rfl; exact hq hp
    rw [modTake_port_other s p q f hne]

theorem fireKeeps_modFrame (f : FrameRx → FrameRx) (s : State) : FireKeeps P s (modFrame p f s) where
  sweeps := sameSweeps_modPort p _ s rfl fun _ h => h
  sources := rfl
  formed _ := rfl
  members _ := rfl
  last q _ := by rw [modFrame_port_take]

theorem fireKeeps_modSet (k : SetId) (f : FrameSet → FrameSet) (s : State) (hformed : (f s.sets[k]).formed = s.sets[k].formed)
    (hmask : (f s.sets[k]).mask = s.sets[k].mask) : FireKeeps P s (modSet k f s) where
  sweeps := .of_ports rfl fun _ => rfl
  sources := rfl
  formed j := by
    rw [modSet_sets]
    split
    · rename_i e; rw [e]; exact hformed
    · rfl
  members j := by
    rw [modSet_sets]
    split
    · rename_i e; rw [e]; exact hmask
    · rfl
  last _ _ := rfl

/-! ## Binding -/

/-- The lens record of an offer is taken, if there is one (R79, R89). -/
def takeOfferedLens (p : PortId) (x : Offer) (s : State) : State :=
  match x.lens with
  | some (l, _) => writeRecordState l .taken (takeRecord (.lens p) l s)
  | none => s

/-- A malformed lens record of an offer is completed (R89). -/
def failOfferedLens (p : PortId) (f : Fire) (x : Offer) (s : State) : State :=
  match x.lens with
  | some (l, none) => failMalformedLens p f l s
  | _ => s

/-- The share of the records in a bind: both are taken, the trigger fields and BOUND written, a malformed lens record completed. -/
def bindRecords (p : PortId) (f : Fire) (set : Option (SetId × U32)) (x : Offer) (s : State) : State :=
  failOfferedLens p f x (writeRecordState x.image .bound (dmaWrite (x.image + 0x21) (bindBytes f set (x.lens.map (·.1)))
    (takeOfferedLens p x (takeRecord (.image p) x.image s))))

/-- The exposure entry of a bind (R80). -/
def boundEntry (f : Fire) (set : Option (SetId × U32)) (x : Offer) : Entry :=
  { source := f.source, trigger := f.number, axisA := f.axisA, axisB := f.axisB, time := f.time, image := x.image
    bufAddr := x.buffer.1, bufSize := x.buffer.2.1, stride := x.buffer.2.2.1, format := x.buffer.2.2.2
    lensRec := x.lens.map (·.1), lensPairs := x.lens.bind (·.2), badLens := x.lens.isSome && (x.lens.bind (·.2)).isNone, set := set
    phase := .lensWait, outcome := .none, flags := 0, exposedAt := 0, timer := none, opened := none }

/-- A bind takes and writes records, appends one entry with the fire's number, and counts the take (R79, R80). -/
theorem bindTake_eq (p : PortId) (f : Fire) (set : Option (SetId × U32)) (x : Offer) (s : State) :
    bindTake p f set x s = modTake p (fun w => { w with takes := w.takes + 1 })
      (modFrame p (fun r => { r with entries := r.entries ++ [boundEntry f set x] }) (bindRecords p f set x s)) := rfl

theorem calm_takeOfferedLens (x : Offer) (s : State) : Calm s (takeOfferedLens p x s) := by
  unfold takeOfferedLens
  split
  · exact (calm_takeRecord _ _ s).trans (calm_writeRecordState _ _ _)
  · exact .refl s

theorem calm_failOfferedLens (f : Fire) (x : Offer) (s : State) : Calm s (failOfferedLens p f x s) := by
  unfold failOfferedLens
  split
  · exact calm_completeLens ..
  · exact .refl s

theorem calm_bindRecords (f : Fire) (set : Option (SetId × U32)) (x : Offer) (s : State) : Calm s (bindRecords p f set x s) :=
  ((((calm_takeRecord _ _ s).trans (calm_takeOfferedLens x _)).trans (calm_dmaWrite _ _ _)).trans
    (calm_writeRecordState _ _ _)).trans (calm_failOfferedLens f x _)

@[simp] theorem takeOfferedLens_ports (x : Offer) (s : State) : (takeOfferedLens p x s).ports = s.ports := by
  unfold takeOfferedLens
  split <;> rfl

@[simp] theorem takeOfferedLens_sets (x : Offer) (s : State) : (takeOfferedLens p x s).sets = s.sets := by
  unfold takeOfferedLens
  split <;> rfl

@[simp] theorem failOfferedLens_ports (f : Fire) (x : Offer) (s : State) : (failOfferedLens p f x s).ports = s.ports := by
  unfold failOfferedLens
  split
  · exact (cardKept_completeLens ..).ports
  · rfl

@[simp] theorem failOfferedLens_sets (f : Fire) (x : Offer) (s : State) : (failOfferedLens p f x s).sets = s.sets := by
  unfold failOfferedLens
  split
  · exact (cardKept_completeLens ..).sets
  · rfl

@[simp] theorem bindRecords_ports (f : Fire) (set : Option (SetId × U32)) (x : Offer) (s : State) :
    (bindRecords p f set x s).ports = s.ports := by
  simp [bindRecords, writeRecordState, takeRecord]

@[simp] theorem bindRecords_sets (f : Fire) (set : Option (SetId × U32)) (x : Offer) (s : State) :
    (bindRecords p f set x s).sets = s.sets := by
  simp [bindRecords, writeRecordState, takeRecord]

@[simp] theorem bindRecords_port (q : PortId) (f : Fire) (set : Option (SetId × U32)) (x : Offer) (s : State) :
    (bindRecords p f set x s).port q = s.port q := by
  simp [State.port]

theorem bindTake_sets (f : Fire) (set : Option (SetId × U32)) (x : Offer) (s : State) :
    (bindTake p f set x s).sets = s.sets := by
  rw [bindTake_eq, modTake_sets, modFrame_sets, bindRecords_sets]

theorem fireKeeps_bindTake (hp : P p) (f : Fire) (set : Option (SetId × U32)) (x : Offer) (s : State) :
    FireKeeps P s (bindTake p f set x s) := by
  rw [bindTake_eq]
  exact ((calm_bindRecords f set x s).fireKeeps.trans (fireKeeps_modFrame _ _)).trans (fireKeeps_modTake _ _ hp)

theorem bindTake_port_other (f : Fire) (set : Option (SetId × U32)) (x : Offer) (s : State) {q : PortId} (hq : q ≠ p) :
    (bindTake p f set x s).port q = s.port q := by
  rw [bindTake_eq, modTake_port_other _ p q _ hq, modFrame_port_other _ p q _ hq, bindRecords_port]

/-- A port whose last trigger number is that of the fire under way, with older entries only. -/
structure Fresh (n : U32) (p : PortId) (s : State) : Prop where
  last : (s.port p).take.lastTrigger = n
  older : ∀ m ∈ entryTriggers (s.port p), m.toNat < n.toNat

theorem SameTriggers.fresh (h : SameTriggers s t) (hs : Fresh n p s) : Fresh n p t :=
  ⟨(h.last p).trans hs.last, fun m hm => hs.older m ((h.entries p).subset hm)⟩

theorem Fresh.of_port (hs : Fresh n p s) (h : t.port p = s.port p) : Fresh n p t :=
  ⟨by rw [h]; exact hs.last, by rw [h]; exact hs.older⟩

/-- A new entry of the number just seen goes to the end of a list with room (R67, R105). -/
theorem TriggerLaw.appended (hs : TriggerLaw s) (hfresh : Fresh n p s) (hroom : (s.port p).frame.entries.length < 4) {e : Entry}
    (he : e.trigger = n) : TriggerLaw (modFrame p (fun r => { r with entries := r.entries ++ [e] }) s) := by
  have triggers : ∀ q, entryTriggers ((modFrame p (fun r => { r with entries := r.entries ++ [e] }) s).port q) =
      if q = p then entryTriggers (s.port p) ++ [n] else entryTriggers (s.port q) := by
    intro q
    unfold entryTriggers
    split
    · rename_i h; rw [h, modFrame_port_self, List.map_append, List.map_singleton, he]
    · rename_i h; rw [modFrame_port_other s p q _ h]
  refine ⟨hs.activeBelow, fun k q => ?_, fun q => ?_, fun q => ?_, fun q => ?_, hs.itemsRoom⟩
  · rw [modFrame_port_take]; exact hs.maskBelow k q
  · rw [entryTriggers_rise, triggers]
    have rise := hs.entriesRise q
    rw [entryTriggers_rise] at rise
    split
    · rename_i h
      subst h
      rw [List.map_append, List.pairwise_append]
      refine ⟨rise, List.pairwise_singleton _ _, fun a ha b hb => ?_⟩
      obtain ⟨m, hm, rfl⟩ := List.mem_map.mp ha
      rw [List.map_singleton, List.mem_singleton] at hb
      rw [hb]
      exact hfresh.older m hm
    · exact rise
  · rw [modFrame_port_take]
    refine (entryTriggers_forall (P := fun m => m.toNat ≤ (s.port q).take.lastTrigger.toNat)).mpr fun m hm => ?_
    have seen := (entryTriggers_forall (P := fun m => m.toNat ≤ (s.port q).take.lastTrigger.toNat)).mp (hs.entriesSeen q)
    rw [triggers] at hm
    split at hm
    · rename_i h
      subst h
      rcases List.mem_append.mp hm with hm | hm
      · exact seen m hm
      · rw [List.mem_singleton.mp hm, hfresh.last]
    · exact seen m hm
  · rw [← entryTriggers_length, triggers]
    split
    · rw [List.length_append, entryTriggers_length, List.length_singleton]
      exact hroom
    · rw [entryTriggers_length]
      exact hs.entriesRoom q

theorem TriggerLaw.bound (hs : TriggerLaw s) {f : Fire} (hfresh : Fresh f.number p s) (hroom : (s.port p).frame.entries.length < 4)
    (set : Option (SetId × U32)) (x : Offer) : TriggerLaw (bindTake p f set x s) := by
  have calm := calm_bindRecords (p := p) f set x s
  rw [bindTake_eq]
  refine (calm_modTake p _ _ rfl).triggers.triggerLaw ?_
  exact (calm.triggers.triggerLaw hs).appended (calm.triggers.fresh hfresh) (by rwa [bindRecords_port]) rfl

/-- A fire of a number above all that a port has seen reaches it (R67, R74, R76). -/
theorem TriggerLaw.stepped (hs : TriggerLaw s) (hlast : (s.port p).take.lastTrigger.toNat < n.toNat)
    (hmask : ∀ k, (s.source k).mask.getLsbD p.val = true → n.toNat ≤ (s.source k).number.toNat) :
    TriggerLaw (modTake p (stepPattern n) s) ∧ Fresh n p (modTake p (stepPattern n) s) := by
  have last : ∀ q, ((modTake p (stepPattern n) s).port q).take.lastTrigger = if q = p then n else (s.port q).take.lastTrigger := by
    intro q
    split
    · rename_i h; rw [h, modTake_port_self]; rfl
    · rename_i h; rw [modTake_port_other s p q _ h]
  refine ⟨⟨hs.activeBelow, fun k q hq => ?_, fun q => ?_, fun q e he => ?_, fun q => ?_, hs.itemsRoom⟩, ⟨?_, fun m hm => ?_⟩⟩
  · rw [last]
    split
    · rename_i h; exact hmask k (h ▸ hq)
    · exact hs.maskBelow k q hq
  · rw [modTake_port_frame]; exact hs.entriesRise q
  · rw [modTake_port_frame] at he
    have seen := hs.entriesSeen q e he
    rw [last]
    split
    · rename_i h; subst h; omega
    · exact seen
  · rw [modTake_port_frame]; exact hs.entriesRoom q
  · rw [last, if_pos rfl]
  · have seen := (entryTriggers_forall (P := fun m => m.toNat ≤ (s.port p).take.lastTrigger.toNat)).mp (hs.entriesSeen p) m
      (by unfold entryTriggers at hm ⊢; rwa [modTake_port_frame] at hm)
    omega

/-! ## Single ports -/

theorem calm_refuseNoBuffer (s : State) : Calm s (refuseNoBuffer p s) :=
  (calm_modTake p _ s rfl).trans (calm_setPortAlert p _ _)

theorem calm_failImageAtBind (a : Addr) (s : State) : Calm s (failImageAtBind p a s) :=
  ((cardKept_writeResult a _ _ s).trans (cardKept_completeRecord ..)).calm

/-- What a take attempt of a single port can do: a refusal, which is calm, or a take of a port with room (R77, R79). -/
theorem admitSingle_cases (p : PortId) (f : Fire) (s : State) :
    Calm s (admitSingle p f s) ∨ ((s.port p).frame.entries.length < 4 ∧
      ∃ x, admitSingle p f s = handEntry p (bindTake p f none x s)) := by
  unfold admitSingle
  dsimp only
  split
  · exact .inl (calm_modTake p _ s rfl)
  · split
    · exact .inl (calm_modTake p _ s rfl)
    · rename_i hroom
      split
      · exact .inl (calm_refuseNoBuffer s)
      · split
        · exact .inl (calm_modTake p _ s rfl)
        · split
          · exact .inr ⟨by omega, _, rfl⟩
          · exact .inl (((calm_takeRecord _ _ s).trans (calm_failImageAtBind _ _)).trans (calm_refuseNoBuffer _))

theorem fireKeeps_admitSingle (hp : P p) (f : Fire) (s : State) : FireKeeps P s (admitSingle p f s) := by
  rcases admitSingle_cases p f s with h | ⟨-, x, h⟩
  · exact h.fireKeeps
  · rw [h]
    exact (fireKeeps_bindTake hp f none x s).trans (calm_handEntry p _).fireKeeps

theorem fireKeeps_fireSingle (hp : P p) (f : Fire) (s : State) : FireKeeps P s (fireSingle p f s) := by
  have h := fireKeeps_modTake (p := p) (stepPattern f.number) s hp
  unfold fireSingle
  dsimp only
  split
  · exact h.trans (fireKeeps_admitSingle hp f _)
  · exact h.trans (fireKeeps_modTake _ _ hp)

theorem TriggerLaw.admitted (hs : TriggerLaw s) {f : Fire} (hfresh : Fresh f.number p s) : TriggerLaw (admitSingle p f s) := by
  rcases admitSingle_cases p f s with h | ⟨hroom, x, h⟩
  · exact h.triggers.triggerLaw hs
  · rw [h]
    exact (calm_handEntry p _).triggers.triggerLaw (hs.bound hfresh hroom none x)

theorem TriggerLaw.firedSingle (hs : TriggerLaw s) {f : Fire} (hlast : (s.port p).take.lastTrigger.toNat < f.number.toNat)
    (hmask : ∀ k, (s.source k).mask.getLsbD p.val = true → f.number.toNat ≤ (s.source k).number.toNat) :
    TriggerLaw (fireSingle p f s) := by
  obtain ⟨stepped, fresh⟩ := hs.stepped hlast hmask
  unfold fireSingle
  dsimp only
  split
  · exact stepped.admitted fresh
  · exact (calm_modTake p _ _ rfl).triggers.triggerLaw stepped

/-! ## Sets -/

/-- An admitted set has room for an item, and every member room for an entry (R131). -/
theorem room_of_setRefusal_none {z : FrameSet} (h : setRefusal z s = none) :
    z.items.length < 4 ∧ ∀ p ∈ maskPorts z.mask, (s.port p).frame.entries.length < 4 := by
  unfold setRefusal at h
  dsimp only at h
  split at h
  · cases h
  · split at h
    · cases h
    · rename_i hroom
      split at h
      · cases h
      · refine ⟨by omega, fun p hp => ?_⟩
        have := List.find?_eq_none.mp hroom p hp
        simpa using this

theorem calm_dropUnsound (x : PortId × Addr) (s : State) : Calm s (dropUnsound x s) :=
  (calm_takeRecord _ _ s).trans (calm_failImageAtBind _ _)

theorem calm_skipSet (k : SetId) (r : Code × Option PortId) (s : State) : Calm s (skipSet k r s) := by
  have skipped : Calm s (modSet k (fun z => { z with skips := z.skips + 1, reason := some r }) s) :=
    calm_modSet k _ s rfl rfl (le_refl _)
  unfold skipSet
  dsimp only
  split
  · exact skipped.trans (calm_forPorts _ (fun s p => calm_setPortAlert p _ s) _)
  · exact skipped.trans (calm_foldl _ (fun s x => calm_dropUnsound x s) _)
  · exact skipped

/-- What the members of a set offer to a take, in ascending port order (R133). -/
abbrev memberOffers (k : SetId) (s : State) : List (PortId × Offer) :=
  (maskPorts s.sets[k].mask).filterMap fun p => (soundOffer p s).map fun x => (p, x)

theorem memberOffers_ports (k : SetId) (s : State) :
    ((memberOffers k s).map (·.1)).Sublist (maskPorts s.sets[k].mask) := by
  unfold memberOffers
  induction maskPorts s.sets[k].mask with
  | nil => exact .slnil
  | cons p ps ih =>
    rw [List.filterMap_cons]
    cases soundOffer p s with
    | none => exact ih.cons p
    | some x => exact ih.cons_cons p

theorem fireKeeps_takeSet (k : SetId) (f : Fire) (s : State) (hP : ∀ p ∈ maskPorts s.sets[k].mask, P p) :
    FireKeeps P s (takeSet k f s) := by
  unfold takeSet
  dsimp only
  refine .trans (.trans (.foldl _ (fun t x hx => ?_) s) (fireKeeps_modSet k _ _ rfl rfl))
    (calm_forPorts _ (fun s p => calm_handEntry p s) _).fireKeeps
  exact fireKeeps_bindTake (hP x.1 ((memberOffers_ports k s).subset (List.mem_map_of_mem hx))) f _ _ t

/-- Every member of a set binds its own record. -/
theorem TriggerLaw.boundMembers {f : Fire} {k : SetId} {n : U32} (xs : List (PortId × Offer)) (hs : TriggerLaw s)
    (hnodup : (xs.map (·.1)).Nodup) (hfresh : ∀ x ∈ xs, Fresh f.number x.1 s)
    (hroom : ∀ x ∈ xs, (s.port x.1).frame.entries.length < 4) :
    TriggerLaw (xs.foldl (fun t x => bindMember f k n x t) s) := by
  induction xs generalizing s with
  | nil => exact hs
  | cons x xs ih =>
    rw [List.map_cons, List.nodup_cons] at hnodup
    have other : ∀ y ∈ xs, (bindMember f k n x s).port y.1 = s.port y.1 := fun y hy =>
      bindTake_port_other f _ _ s fun e => hnodup.1 (e ▸ List.mem_map_of_mem hy)
    refine ih (hs.bound (hfresh x List.mem_cons_self) (hroom x List.mem_cons_self) _ _) hnodup.2 (fun y hy => ?_) fun y hy => ?_
    · exact (hfresh y (List.mem_cons_of_mem x hy)).of_port (other y hy)
    · rw [other y hy]; exact hroom y (List.mem_cons_of_mem x hy)

/-- An item is appended to a set with room for it (R133). -/
theorem TriggerLaw.appendedItem (hs : TriggerLaw s) (k : SetId) (f : FrameSet → FrameSet) (h : (f s.sets[k]).items.length ≤ 4) :
    TriggerLaw (modSet k f s) :=
  ⟨hs.activeBelow, hs.maskBelow, hs.entriesRise, hs.entriesSeen, hs.entriesRoom, fun j => by
    rw [modSet_sets]
    split
    · exact h
    · exact hs.itemsRoom j⟩

theorem bindMembers_sets (f : Fire) (k : SetId) (n : U32) (xs : List (PortId × Offer)) (s : State) :
    (xs.foldl (fun t x => bindMember f k n x t) s).sets = s.sets := by
  induction xs generalizing s with
  | nil => rfl
  | cons x xs ih => rw [List.foldl_cons, ih]; exact bindTake_sets ..

theorem TriggerLaw.tookSet (hs : TriggerLaw s) {k : SetId} {f : Fire} (hadmitted : setRefusal s.sets[k] s = none)
    (hfresh : ∀ p ∈ maskPorts s.sets[k].mask, Fresh f.number p s) : TriggerLaw (takeSet k f s) := by
  obtain ⟨hitems, hroom⟩ := room_of_setRefusal_none hadmitted
  have member : ∀ x ∈ memberOffers k s, x.1 ∈ maskPorts s.sets[k].mask := fun x hx =>
    (memberOffers_ports k s).subset (List.mem_map_of_mem hx)
  have bound := hs.boundMembers (f := f) (k := k) (n := s.sets[k].number + 1) (memberOffers k s)
    ((memberOffers_ports k s).nodup (nodup_maskPorts _)) (fun x hx => hfresh x.1 (member x hx))
    fun x hx => hroom x.1 (member x hx)
  unfold takeSet
  dsimp only
  refine (calm_forPorts _ (fun s p => calm_handEntry p s) _).triggers.triggerLaw (bound.appendedItem k _ ?_)
  rw [bindMembers_sets, List.length_append, List.length_singleton]
  exact hitems

/-- The members' patterns step, one after the other. -/
theorem TriggerLaw.steppedMembers (ps : List PortId) (hs : TriggerLaw s) (hnodup : ps.Nodup)
    (hlast : ∀ p ∈ ps, (s.port p).take.lastTrigger.toNat < n.toNat)
    (hmask : ∀ p ∈ ps, ∀ k, (s.source k).mask.getLsbD p.val = true → n.toNat ≤ (s.source k).number.toNat) :
    TriggerLaw (forPorts ps (fun p => modTake p (stepPattern n)) s) ∧
      ∀ q, q ∈ ps ∨ Fresh n q s → Fresh n q (forPorts ps (fun p => modTake p (stepPattern n)) s) := by
  induction ps generalizing s with
  | nil => exact ⟨hs, fun q hq => hq.resolve_left List.not_mem_nil⟩
  | cons p ps ih =>
    rw [List.nodup_cons] at hnodup
    have other : ∀ q, q ≠ p → (modTake p (stepPattern n) s).port q = s.port q := fun q hq => modTake_port_other s p q _ hq
    obtain ⟨stepped, fresh⟩ := hs.stepped (hlast p List.mem_cons_self) (hmask p List.mem_cons_self)
    obtain ⟨law, freshness⟩ := ih stepped hnodup.2
      (fun q hq => by
        rw [other q fun e => hnodup.1 (e ▸ hq)]
        exact hlast q (List.mem_cons_of_mem p hq))
      fun q hq => hmask q (List.mem_cons_of_mem p hq)
    refine ⟨law, fun q hq => freshness q ?_⟩
    rcases eq_or_ne q p with rfl | hne
    · exact .inr fresh
    · rcases hq with hq | hq
      · exact .inl ((List.mem_cons.mp hq).resolve_left hne)
      · exact .inr (hq.of_port (other q hne))

theorem fireKeeps_fireSet (k : SetId) (f : Fire) (s : State) (hP : ∀ p ∈ maskPorts s.sets[k].mask, P p) :
    FireKeeps P s (fireSet k f s) := by
  have steps : ∀ (g : Taker → Taker) (t : State), FireKeeps P t (forPorts (maskPorts s.sets[k].mask) (fun p => modTake p g) t) :=
    fun g t => .foldl _ (fun t p hp => fireKeeps_modTake g t (hP p hp)) t
  unfold fireSet
  dsimp only
  split_ifs
  · split
    · exact (steps _ s).trans (calm_skipSet k _ _).fireKeeps
    · refine (steps _ s).trans (fireKeeps_takeSet k f _ fun p hp => hP p ?_)
      rwa [forPorts_modTake_sets] at hp
  · exact (steps _ s).trans (steps _ _)

theorem TriggerLaw.firedSet (hs : TriggerLaw s) {k : SetId} {f : Fire}
    (hlast : ∀ p ∈ maskPorts s.sets[k].mask, (s.port p).take.lastTrigger.toNat < f.number.toNat)
    (hmask : ∀ p ∈ maskPorts s.sets[k].mask, ∀ j, (s.source j).mask.getLsbD p.val = true →
      f.number.toNat ≤ (s.source j).number.toNat) : TriggerLaw (fireSet k f s) := by
  obtain ⟨stepped, fresh⟩ := hs.steppedMembers _ (nodup_maskPorts s.sets[k].mask) hlast hmask
  have sets : (forPorts (maskPorts s.sets[k].mask) (fun p => modTake p (stepPattern f.number)) s).sets = s.sets :=
    forPorts_modTake_sets ..
  unfold fireSet
  dsimp only
  split_ifs
  · split
    · exact (calm_skipSet k _ _).triggers.triggerLaw stepped
    · rename_i hadmitted
      exact stepped.tookSet (by rw [sets]; exact hadmitted) fun p hp => fresh p (.inl (by rwa [sets] at hp))
  · exact (calm_patternPositions _ _ _).triggers.triggerLaw stepped

end

end Sys2Proof.Machine
end

section
/-! PROOFS. Fires, counts of an axis, edges of an input, and the commands of the Trigger Sequencer and the Set Coordinator keep the laws of
masks, sets and trigger numbers (R65 to R74, R127 to R129). -/

namespace Sys2Proof.Machine

/-! ## A fire at every port of its mask -/

/-- The port at which a fire reaches a port: the lowest member of its set, or the port itself (R74, R130). -/
def reachedAt (s : State) (q : PortId) : PortId :=
  match s.setOf q with
  | none => q
  | some k => (maskPorts s.sets[k].mask).head?.getD q

section
variable {P : PortId → Prop} {s t u : State} {f : Fire}

theorem FireKeeps.reachedAt (h : FireKeeps P s t) (q : PortId) : Machine.reachedAt t q = Machine.reachedAt s q := by
  unfold Machine.reachedAt
  simp only [h.setOf, h.members]

theorem FireKeeps.setLaw (h : FireKeeps P s t) (hs : SetLaw s) : SetLaw t :=
  setLaw_of_masks (fun k => by rw [h.source]) h.formed h.members hs

/-- A set reached at its lowest member is reached at every member. -/
theorem SetLaw.reachedAt_member (hs : SetLaw s) {k : SetId} (hk : s.sets[k].formed = true) {p q : PortId}
    (hhead : (maskPorts s.sets[k].mask).head? = some p) (hq : q ∈ maskPorts s.sets[k].mask) : reachedAt s q = p := by
  unfold reachedAt
  rw [hs.setOf_member hk hq]
  dsimp only
  rw [hhead]
  rfl

theorem reachedAt_of_none {p : PortId} (h : s.setOf p = none) : reachedAt s p = p := by
  unfold reachedAt
  rw [h]

theorem fireKeeps_firePort (hs : SetLaw s) (f : Fire) (p : PortId) :
    FireKeeps (fun q => reachedAt s q = p) s (firePort f p s) := by
  unfold firePort
  split
  · rename_i h
    exact fireKeeps_fireSingle (P := fun q => reachedAt s q = p) (reachedAt_of_none h) f s
  · rename_i k hk
    split
    · rename_i hhead
      exact fireKeeps_fireSet k f s fun q => hs.reachedAt_member (setOf_eq_some hk).1 hhead
    · exact .refl _ s

theorem TriggerLaw.firedPort (ht : TriggerLaw s) (hs : SetLaw s) {p : PortId}
    (hlast : ∀ q, reachedAt s q = p → (s.port q).take.lastTrigger.toNat < f.number.toNat)
    (hmask : ∀ q, reachedAt s q = p → ∀ k, (s.source k).mask.getLsbD q.val = true → f.number.toNat ≤ (s.source k).number.toNat) :
    TriggerLaw (firePort f p s) := by
  unfold firePort
  split
  · rename_i h
    exact ht.firedSingle (hlast p (reachedAt_of_none h)) (hmask p (reachedAt_of_none h))
  · rename_i k hk
    split
    · rename_i hhead
      have reached : ∀ q ∈ maskPorts s.sets[k].mask, reachedAt s q = p := fun q =>
        hs.reachedAt_member (setOf_eq_some hk).1 hhead
      exact ht.firedSet (fun q hq => hlast q (reached q hq)) fun q hq => hmask q (reached q hq)
    · exact ht

/-- The ports of a mask are reached one after the other, single ports and sets once each. -/
theorem TriggerLaw.firedPorts (ps : List PortId) (ht : TriggerLaw s) (hs : SetLaw s) (hnodup : ps.Nodup)
    (hlast : ∀ q, reachedAt s q ∈ ps → (s.port q).take.lastTrigger.toNat < f.number.toNat)
    (hmask : ∀ q, reachedAt s q ∈ ps → ∀ k, (s.source k).mask.getLsbD q.val = true → f.number.toNat ≤ (s.source k).number.toNat) :
    TriggerLaw (forPorts ps (firePort f) s) := by
  induction ps generalizing s with
  | nil => exact ht
  | cons p ps ih =>
    rw [List.nodup_cons] at hnodup
    have kept := fireKeeps_firePort hs f p
    have later : ∀ {q}, reachedAt (firePort f p s) q ∈ ps → reachedAt s q ∈ p :: ps ∧ reachedAt s q ≠ p := by
      intro q hq
      rw [kept.reachedAt] at hq
      exact ⟨List.mem_cons_of_mem p hq, fun e => hnodup.1 (e ▸ hq)⟩
    have fired : TriggerLaw (firePort f p s) := ht.firedPort hs (fun q hq => hlast q (hq ▸ List.mem_cons_self))
      fun q hq => hmask q (hq ▸ List.mem_cons_self)
    refine ih fired (kept.setLaw hs) hnodup.2 (fun q hq => ?_) fun q hq => ?_
    · rw [kept.last q (later hq).2]
      exact hlast q (later hq).1
    · simp only [kept.source]
      exact hmask q (later hq).1

/-- The fire of a mask, seen from sweeps, sources and sets. -/
theorem fireKeeps_firePorts (ps : List PortId) (f : Fire) (s : State) :
    FireKeeps (fun _ => True) s (forPorts ps (firePort f) s) := by
  refine .foldl ps (fun t p _ => ?_) s
  unfold firePort
  split
  · exact fireKeeps_fireSingle trivial f t
  · split
    · exact fireKeeps_fireSet _ f t fun _ _ => trivial
    · exact .refl _ t

end

/-! ## Sources -/

/-- What a fire does to its source: number and fires-made count rise, the mask stays, and it is ACTIVE afterwards only if it was before and
its number is not the last (R67, R73, R74). -/
theorem countFire_cases (x : Source) :
    (countFire x).mask = x.mask ∧ (countFire x).number = x.number + 1 ∧
      ((countFire x).active = true → x.active = true ∧ (countFire x).number ≠ lastNumber) := by
  unfold countFire
  dsimp only
  split
  · exact ⟨rfl, rfl, nofun⟩
  · rename_i h
    simp only [Bool.or_eq_true, decide_eq_true_eq, not_or] at h
    exact ⟨rfl, rfl, fun ha => ⟨ha, h.1⟩⟩

theorem toNat_add_one_of_ne_last {n : U32} (h : n ≠ lastNumber) : (n + 1).toNat = n.toNat + 1 := by
  have hn : n.toNat ≠ 4294967295 := fun e => h (BitVec.eq_of_toNat_eq e)
  have := n.isLt
  rw [BitVec.toNat_add, Nat.mod_eq_of_lt (by simp; omega)]
  rfl

section
variable {s t : State}

/-- A source changes that keeps its mask, whose number does not fall, and that is ACTIVE below the last number only. -/
theorem TriggerLaw.changedSource (hs : TriggerLaw s) (k : SourceId) (f : Source → Source)
    (hmask : (f (s.source k)).mask = (s.source k).mask)
    (hnumber : (s.source k).number.toNat ≤ (f (s.source k)).number.toNat)
    (hactive : (f (s.source k)).active = true → (f (s.source k)).number ≠ lastNumber) : TriggerLaw (modSource k f s) := by
  refine ⟨fun j => ?_, fun j p => ?_, hs.entriesRise, hs.entriesSeen, hs.entriesRoom, hs.itemsRoom⟩
  · rw [modSource_source]
    split
    · exact hactive
    · exact hs.activeBelow j
  · rw [modSource_source]
    split
    · intro hp
      rw [hmask] at hp
      exact (hs.maskBelow k p hp).trans hnumber
    · exact hs.maskBelow j p

theorem modSource_mask (k : SourceId) (f : Source → Source) (s : State) (hmask : (f (s.source k)).mask = (s.source k).mask)
    (j : SourceId) : ((modSource k f s).source j).mask = (s.source j).mask := by
  rw [modSource_source]
  split
  · rename_i h; rw [h, hmask]
  · rfl

theorem lawful_modSource (k : SourceId) (f : Source → Source) (s : State) (hmask : (f (s.source k)).mask = (s.source k).mask)
    (hnumber : (f (s.source k)).number = (s.source k).number)
    (hactive : (f (s.source k)).active = true → (s.source k).active = true ∨ (s.source k).number ≠ lastNumber) :
    Lawful s (modSource k f s) where
  laws := keepsLaws_of_keeps fun _ _ => keeps_modSource k f s
  masks hm hs := ⟨maskLaw_of_masks (modSource_mask k f s hmask) hm,
    setLaw_of_masks (modSource_mask k f s hmask) (fun _ => rfl) (fun _ => rfl) hs⟩
  triggers _ _ ht := ht.changedSource k f hmask (by rw [hnumber]) fun ha => by
    rw [hnumber]
    exact (hactive ha).elim (ht.activeBelow k) id
  sweeps _ := (SameSweeps.of_ports (s := s) (t := modSource k f s) rfl fun _ => rfl).sweepLaw

/-- A fire of a source that has not reached the last number reaches each port of the mask after all that the port has seen (R67, R69). -/
theorem TriggerLaw.fired (ht : TriggerLaw s) (hm : MaskLaw s) (hs : SetLaw s) {k : SourceId} (hk : (s.source k).number ≠ lastNumber) :
    TriggerLaw (fire k s) := by
  obtain ⟨mask, number, active⟩ := countFire_cases (s.source k)
  have rise := toNat_add_one_of_ne_last hk
  have counted : TriggerLaw (modSource k countFire s) :=
    ht.changedSource k countFire mask (by rw [number, rise]; exact Nat.le_succ _) fun ha => (active ha).2
  have sets : SetLaw (modSource k countFire s) :=
    setLaw_of_masks (modSource_mask k countFire s mask) (fun _ => rfl) (fun _ => rfl) hs
  have self : (modSource k countFire s).source k = countFire (s.source k) := by rw [modSource_source, if_pos rfl]
  have inMask : ∀ q, reachedAt (modSource k countFire s) q ∈ maskPorts (s.source k).mask → (s.source k).mask.getLsbD q.val = true := by
    intro q hq
    have same : reachedAt (modSource k countFire s) q = reachedAt s q := rfl
    rw [same] at hq
    unfold reachedAt at hq
    split at hq
    · exact mem_maskPorts.mp hq
    · rename_i j hj
      obtain ⟨formed, member⟩ := setOf_eq_some hj
      obtain ⟨i, hi⟩ := hs.2 j formed
      cases hhead : (maskPorts s.sets[j].mask).head? with
      | none => rw [List.head?_eq_none_iff.mp hhead] at member; cases member
      | some p =>
        rw [hhead] at hq
        have hp := hi p (mem_maskPorts.mp (List.mem_of_head? hhead))
        rw [← hm i k p hp (mem_maskPorts.mp hq)]
        exact hi q (mem_maskPorts.mp member)
  unfold fire
  refine counted.firedPorts _ sets (nodup_maskPorts _) (fun q hq => ?_) fun q hq j hj => ?_
  · dsimp only
    rw [self, number, rise]
    exact Nat.lt_succ_of_le (ht.maskBelow k q (inMask q hq))
  · rw [modSource_mask k countFire s mask] at hj
    rw [hm j k q hj (inMask q hq)]

theorem lawful_fire (k : SourceId) (s : State) (hk : TriggerLaw s → (s.source k).number ≠ lastNumber) : Lawful s (fire k s) := by
  have kept : FireKeeps (fun _ => True) (modSource k countFire s) (fire k s) := fireKeeps_firePorts _ _ _
  have mask : ∀ j, ((fire k s).source j).mask = (s.source j).mask := fun j => by
    rw [← modSource_mask k countFire s (countFire_cases _).1 j]
    exact congrArg Source.mask (kept.source j)
  have sweeps : SameSweeps s (fire k s) :=
    (SameSweeps.of_ports (s := s) (t := modSource k countFire s) rfl fun _ => rfl).trans kept.sweeps
  exact
    { laws := keepsLaws_of_keeps fun A hs => keeps_fire k s hs
      masks := fun hm hs => ⟨maskLaw_of_masks mask hm, setLaw_of_masks mask kept.formed kept.members hs⟩
      triggers := fun hm hs ht => ht.fired hm hs (hk ht)
      sweeps := fun _ => sweeps.sweepLaw }

/-! ## Axes and inputs -/

theorem movePoint_cases (g : PitchProgramme) (x : Source) :
    (movePoint g x).mask = x.mask ∧ (movePoint g x).number = x.number ∧ ((movePoint g x).active = true → x.active = true) := by
  unfold movePoint
  split
  · exact ⟨rfl, rfl, id⟩
  · split
    · exact ⟨rfl, rfl, id⟩
    · exact ⟨rfl, rfl, nofun⟩

/-- Arming keeps mask and number, and makes ACTIVE below the last number only (R67, R70). -/
theorem armPitch_cases (g : PitchProgramme) (pos : U32) (x : Source) :
    (armPitch g pos x).mask = x.mask ∧ (armPitch g pos x).number = x.number ∧
      ((armPitch g pos x).active = true → x.number ≠ lastNumber) := by
  unfold armPitch
  split
  · exact ⟨rfl, rfl, nofun⟩
  · rename_i h
    rw [not_or] at h
    split
    · exact ⟨rfl, rfl, fun _ => h.1⟩
    · exact ⟨rfl, rfl, nofun⟩

theorem lawful_pitchCount (ax : Axis) (up : Bool) (pos : U32) (k : SourceId) (s : State) : Lawful s (pitchCount ax up pos k s) := by
  have moved : ∀ g t, Lawful t (modSource k (movePoint g) t) := fun g t =>
    lawful_modSource k _ t (movePoint_cases g _).1 (movePoint_cases g _).2.1 fun ha => .inl ((movePoint_cases g _).2.2 ha)
  unfold pitchCount
  dsimp only
  split
  · refine lawful_ite _ (fun h => .trans ?_ (moved _ _)) fun _ => .refl s
    exact lawful_ite _ (fun _ => lawful_fire k s fun ht => ht.activeBelow k h.2.1) fun _ => .refl s
  · exact .refl s

theorem lawful_sampleAxis (ax : Axis) (ch1 ch2 : Bool) (s : State) : Lawful s (sampleAxis ax ch1 ch2 s) := by
  have set : ∀ x, Lawful s (setAxis ax x s) := fun x =>
    (calm_setAxis ax x s).lawful (keepsLaws_of_keeps fun _ _ => keeps_setAxis ax x s)
  unfold sampleAxis
  dsimp only
  split
  · exact set _
  · exact (set _).trans (.foldl _ (fun t k => lawful_pitchCount ax _ _ k t) _)

theorem lawful_modDebouncer (i : Input) (f : Debouncer → Debouncer) (s : State) : Lawful s (modDebouncer i f s) :=
  (calm_modDebouncer i f s).lawful (keepsLaws_of_keeps fun _ _ => by unfold modDebouncer; exact keeps_modTrig _ s)

theorem lawful_countEdge (i : Input) (s : State) : Lawful s (countEdge i s) :=
  lawful_ite _ (fun _ => .foldl _ (fun t k => lawful_ite _ (fun h => lawful_fire k t fun ht => ht.activeBelow k h.2)
    fun _ => .refl t) s) fun _ => .refl s

theorem lawful_lineRises (i : Input) (s : State) : Lawful s (lineRises i s) :=
  lawful_ite _ (fun _ => lawful_ite _ (fun _ => (lawful_modDebouncer i _ s).trans (lawful_countEdge i _))
    fun _ => lawful_modDebouncer i _ s) fun _ => .refl s

theorem lawful_debounceExpires (i : Input) (s : State) : Lawful s (debounceExpires i s) :=
  lawful_ite _ (fun _ => (lawful_modDebouncer i _ s).trans (lawful_countEdge i _)) fun _ => .refl s

/-! ## SOFT_TRIGGER and SET_AXIS_POSITION -/

theorem lawful_takeSoftTrigger (a : Addr) (source : Byte) (s : State) : Lawful s (takeSoftTrigger a source s) := by
  unfold takeSoftTrigger
  split
  · exact lawful_completeCommand ..
  · exact lawful_ite _ (fun _ => lawful_completeCommand ..) fun h =>
      (lawful_fire _ s fun _ => h).trans (lawful_completeCommand ..)

theorem rearm_cases (ax : Axis) (pos : U32) (x : Source) :
    (rearm ax pos x).mask = x.mask ∧ (rearm ax pos x).number = x.number ∧
      ((rearm ax pos x).active = true → x.active = true ∨ x.number ≠ lastNumber) := by
  unfold rearm
  split
  · split
    · obtain ⟨mask, number, active⟩ := armPitch_cases _ pos x
      exact ⟨mask, number, fun ha => .inr (active ha)⟩
    · exact ⟨rfl, rfl, .inl⟩
  · exact ⟨rfl, rfl, .inl⟩

theorem lawful_takeSetAxisPosition (a : Addr) (axis : Byte) (value : U32) (s : State) :
    Lawful s (takeSetAxisPosition a axis value s) := by
  unfold takeSetAxisPosition
  split
  · exact lawful_completeCommand ..
  · rename_i ax _
    have armed : ∀ t k, Lawful t (modSource k (rearm ax value) t) := fun t k =>
      lawful_modSource k _ t (rearm_cases ax value _).1 (rearm_cases ax value _).2.1 (rearm_cases ax value _).2.2
    refine .trans (.trans (Calm.lawful (calm_setAxis ax _ s) ?_) (.foldl _ armed _)) (lawful_completeCommand ..)
    exact keepsLaws_of_keeps fun _ _ => keeps_setAxis ax _ s

end

end Sys2Proof.Machine
end

section
/-! PROOFS. SET_SOURCE, FORM_SET and DISSOLVE_SET keep the laws of masks, sets and trigger numbers (R67 to R69, R127 to R129). -/

namespace Sys2Proof.Machine

section
variable {s t : State} {k : SourceId}

/-! ## SET_SOURCE -/

theorem mem_allSources (i : SourceId) : i ∈ allSources := by revert i; decide

/-- Every source changes, one after the other. -/
theorem foldl_modSource (f : SourceId → Source → Source) (s : State) : allSources.foldl (fun t k => modSource k (f k) t) s =
    { s with trig := { s.trig with sources := Vector.ofFn fun k => f k (s.source k) } } := by
  have sources : (allSources.foldl (fun t k => modSource k (f k) t) s).trig.sources = Vector.ofFn fun k => f k (s.source k) := by
    ext1 i hi
    show (allSources.foldl (fun t k => modSource k (f k) t) s).source ⟨i, hi⟩ = _
    simp only [allSources, List.foldl_cons, List.foldl_nil, modSource_source, Vector.getElem_ofFn]
    interval_cases i <;> rfl
  rw [← sources]
  rfl

theorem modSource_of_eq {f : Source → Source} (h : f (s.source k) = s.source k) : modSource k f s = s := by
  have same : s.trig.sources.set k (f s.trig.sources[k]) = s.trig.sources := by
    rw [show f s.trig.sources[k] = s.trig.sources[k] from h]
    exact Vector.set_getElem_self _
  unfold modSource modTrig
  dsimp only
  rw [same]

/-- Ports leave the masks of the other sources, and nothing else changes (R69). -/
theorem takeFromOthers_eq (k : SourceId) (mask : BitVec 8) (s : State) : takeFromOthers k mask s =
    { s with trig := { s.trig with sources := Vector.ofFn fun j =>
      (if j = k then s.source j else { s.source j with mask := (s.source j).mask &&& ~~~mask }) } } := by
  have each : (fun (t : State) (j : SourceId) => if j = k then t else modSource j (fun x => { x with mask := x.mask &&& ~~~mask }) t) =
      fun t j => modSource j (fun x => if j = k then x else { x with mask := x.mask &&& ~~~mask }) t := by
    funext t j
    by_cases h : j = k
    · simp only [h, if_true]
      exact (modSource_of_eq rfl).symm
    · simp only [h, if_false]
  unfold takeFromOthers
  rw [each]
  exact foldl_modSource (fun j x => if j = k then x else { x with mask := x.mask &&& ~~~mask }) s

theorem takeFromOthers_source (mask : BitVec 8) (s : State) (i : SourceId) :
    (takeFromOthers k mask s).source i = if i = k then s.source i else { s.source i with mask := (s.source i).mask &&& ~~~mask } := by
  rw [takeFromOthers_eq]
  simp [State.source]

/-- A SET_SOURCE changes the sources alone, and it may be the debounce of an input. -/
theorem applySource_source (k i : SourceId) (kind : SourceKind) (x : SourceArgs) (s : State) :
    (applySource k kind x s).source i =
      if i = k then newSource kind x.mask (raisedNumber k x.mask s) s.trig
      else { s.source i with mask := (s.source i).mask &&& ~~~x.mask } := by
  have h : (applySource k kind x s).source i =
      (modSource k (fun _ => newSource kind x.mask (raisedNumber k x.mask s) s.trig) (takeFromOthers k x.mask s)).source i := by
    unfold applySource
    dsimp only
    split
    · exact (calm_modDebouncer _ _ _).triggers.source i
    · rfl
  rw [h, modSource_source, takeFromOthers_source]
  split <;> rfl

theorem applySource_fields (k : SourceId) (kind : SourceKind) (x : SourceArgs) (s : State) :
    (applySource k kind x s).ports = s.ports ∧ (applySource k kind x s).sets = s.sets ∧
      (applySource k kind x s).sweeps = s.sweeps := by
  unfold applySource
  rw [takeFromOthers_eq]
  dsimp only
  split
  · unfold modDebouncer
    exact ⟨rfl, rfl, rfl⟩
  · exact ⟨rfl, rfl, rfl⟩

/-- A programmed source has the mask and the number given, and is ACTIVE below the last number only (R67). -/
theorem newSource_cases (kind : SourceKind) (mask : BitVec 8) (number : U32) (c : TriggerCell) :
    (newSource kind mask number c).mask = mask ∧ (newSource kind mask number c).number = number ∧
      ((newSource kind mask number c).active = true → number ≠ lastNumber) := by
  unfold newSource
  dsimp only
  split
  · exact ⟨rfl, rfl, nofun⟩
  · exact ⟨rfl, rfl, of_decide_eq_true⟩
  · exact armPitch_cases ..

/-- The highest of a number and of the last trigger numbers of some ports. -/
theorem le_foldl_raise (ps : List PortId) (n : U32) :
    let top := ps.foldl (fun n p => if n.toNat < (s.port p).take.lastTrigger.toNat then (s.port p).take.lastTrigger else n) n
    n.toNat ≤ top.toNat ∧ ∀ p ∈ ps, (s.port p).take.lastTrigger.toNat ≤ top.toNat := by
  induction ps generalizing n with
  | nil => exact ⟨le_refl _, nofun⟩
  | cons p ps ih =>
    obtain ⟨hn, hps⟩ := ih (if n.toNat < (s.port p).take.lastTrigger.toNat then (s.port p).take.lastTrigger else n)
    have top : n.toNat ≤ (if n.toNat < (s.port p).take.lastTrigger.toNat then (s.port p).take.lastTrigger else n).toNat ∧
        (s.port p).take.lastTrigger.toNat ≤
          (if n.toNat < (s.port p).take.lastTrigger.toNat then (s.port p).take.lastTrigger else n).toNat := by
      split <;> omega
    refine ⟨top.1.trans hn, fun q hq => ?_⟩
    rcases List.mem_cons.mp hq with rfl | hq
    · exact top.2.trans hn
    · exact hps q hq

/-- No port of the new mask has seen a number above the raised one (R69). -/
theorem TriggerLaw.le_raisedNumber (hs : TriggerLaw s) {mask : BitVec 8} {p : PortId} (hp : mask.getLsbD p.val = true) :
    (s.port p).take.lastTrigger.toNat ≤ (raisedNumber k mask s).toNat := by
  obtain ⟨own, received⟩ := le_foldl_raise (s := s) (receivedPorts k mask s) (s.source k).number
  cases hown : (s.source k).mask.getLsbD p.val
  · exact received p (List.mem_filter.mpr ⟨mem_maskPorts.mpr hp, by rw [hown]; rfl⟩)
  · exact (hs.maskBelow k p hown).trans own

theorem getLsbD_taken {m mask : BitVec 8} {p : PortId} :
    (m &&& ~~~mask).getLsbD p.val = true ↔ m.getLsbD p.val = true ∧ mask.getLsbD p.val = false := by
  simp [p.isLt]

theorem MaskLaw.appliedSource (hs : MaskLaw s) (kind : SourceKind) (x : SourceArgs) : MaskLaw (applySource k kind x s) := by
  have mine : ∀ j, ((applySource k kind x s).source j).mask = if j = k then x.mask else (s.source j).mask &&& ~~~x.mask := by
    intro j
    rw [applySource_source]
    split
    · exact (newSource_cases ..).1
    · rfl
  intro i j p hi hj
  rw [mine] at hi hj
  split at hi <;> split at hj
  · subst_vars; rfl
  · rw [getLsbD_taken, hi] at hj; cases hj.2
  · rw [getLsbD_taken, hj] at hi; cases hi.2
  · exact hs i j p (getLsbD_taken.mp hi).1 (getLsbD_taken.mp hj).1

theorem sourceOf_eq_some (hs : MaskLaw s) {p : PortId} {j : SourceId} (hj : (s.source j).mask.getLsbD p.val = true) :
    s.sourceOf p = some j := by
  unfold State.sourceOf
  cases h : List.find? _ _ with
  | none =>
    exact absurd hj (List.find?_eq_none.mp h j (mem_allSources j))
  | some i =>
    have hi : (s.source i).mask.getLsbD p.val = true := List.find?_some (p := fun k => (s.source k).mask.getLsbD p.val) h
    rw [hs i j p hi hj]

/-- A mask that splits no formed set leaves every set within one source's mask (R68, log 31). -/
theorem SetLaw.appliedSource (hs : SetLaw s) (hm : MaskLaw s) (kind : SourceKind) {x : SourceArgs}
    (hsplit : ∀ p, splitsSet k x.mask p s = false) : SetLaw (applySource k kind x s) := by
  obtain ⟨-, sets, -⟩ := applySource_fields k kind x s
  refine ⟨fun (i j : SetId) (p : PortId) => by rw [sets]; exact hs.1 i j p, fun (z : SetId) hz => ?_⟩
  rw [sets] at hz ⊢
  obtain ⟨j, hj⟩ := hs.2 z hz
  have stays : ∀ p : PortId, s.sets[z].mask.getLsbD p.val = true →
      (if j = k then !x.mask.getLsbD p.val else x.mask.getLsbD p.val) = false := by
    intro p hp
    have := hsplit p
    rwa [splitsSet, hs.setOf_member hz (mem_maskPorts.mpr hp), sourceOf_eq_some hm (hj p hp), Option.isSome_some, Bool.true_and] at this
  refine ⟨j, fun p hp => ?_⟩
  have := stays p hp
  rw [applySource_source]
  split
  · rename_i h
    rw [(newSource_cases ..).1]
    simpa [h] using this
  · rename_i h
    exact getLsbD_taken.mpr ⟨hj p hp, by simpa [h] using this⟩

theorem TriggerLaw.appliedSource (hs : TriggerLaw s) (kind : SourceKind) (x : SourceArgs) :
    TriggerLaw (applySource k kind x s) := by
  obtain ⟨ports, sets, -⟩ := applySource_fields k kind x s
  have port : ∀ p, (applySource k kind x s).port p = s.port p := fun p => by unfold State.port; rw [ports]
  refine ⟨fun j => ?_, fun j p => ?_, fun p => by rw [port]; exact hs.entriesRise p, fun p => by rw [port]; exact hs.entriesSeen p,
    fun p => by rw [port]; exact hs.entriesRoom p, fun z => by rw [sets]; exact hs.itemsRoom z⟩
  · rw [applySource_source]
    split
    · rw [(newSource_cases ..).2.1]; exact (newSource_cases ..).2.2
    · exact hs.activeBelow j
  · rw [applySource_source, port]
    split
    · rw [(newSource_cases ..).1, (newSource_cases ..).2.1]; exact hs.le_raisedNumber
    · exact fun hp => hs.maskBelow j p (getLsbD_taken.mp hp).1

theorem keeps_applySource {A : PortId → Prop} (k : SourceId) (kind : SourceKind) (x : SourceArgs) (s : State) :
    Keeps A s (applySource k kind x s) := by
  have h : Keeps A s (takeFromOthers k x.mask s) := keeps_foldl' _ (fun t j => keeps_ite _ (.refl A t) (keeps_modSource j _ t)) s
  unfold applySource
  dsimp only
  split
  · exact (h.trans (keeps_modSource k _ _)).trans (keeps_modTrig _ _)
  · exact h.trans (keeps_modSource k _ _)

theorem lawful_applySource (kind : SourceKind) {x : SourceArgs} (hsplit : ∀ p, splitsSet k x.mask p s = false) :
    Lawful s (applySource k kind x s) where
  laws := keepsLaws_of_keeps fun _ _ => keeps_applySource k kind x s
  masks hm hs := ⟨hm.appliedSource kind x, hs.appliedSource hm kind hsplit⟩
  triggers _ _ ht := ht.appliedSource kind x
  sweeps _ := by
    obtain ⟨ports, -, sweeps⟩ := applySource_fields k kind x s
    exact (SameSweeps.of_ports sweeps fun p => by unfold State.port; rw [ports]).sweepLaw

theorem lawful_takeSetSource (a : Addr) (x : SourceArgs) (s : State) : Lawful s (takeSetSource a x s) := by
  unfold takeSetSource
  split
  · refine lawful_ite _ (fun _ => lawful_completeCommand ..) fun _ => lawful_ite _ (fun _ => lawful_completeCommand ..) fun h => ?_
    refine (lawful_applySource _ fun p => ?_).trans (lawful_completeCommand ..)
    exact Bool.eq_false_iff.mpr fun hp => h (List.any_eq_true.mpr ⟨p, mem_allPorts p, hp⟩)
  · exact lawful_completeCommand ..

/-! ## FORM_SET and DISSOLVE_SET -/

theorem setOf_eq_none {p : PortId} : s.setOf p = none ↔ ∀ k : SetId, s.sets[k].formed = true → s.sets[k].mask.getLsbD p.val = false := by
  unfold State.setOf
  rw [List.find?_eq_none]
  simp only [Bool.and_eq_true, not_and, Bool.not_eq_true]
  exact ⟨fun h k => h k (mem_allSets k), fun h k _ => h k⟩

/-- One set changes its members and not its items. -/
theorem lawful_modSet (z : SetId) (f : FrameSet → FrameSet) (hitems : (f s.sets[z]).items = s.sets[z].items)
    (hsets : SetLaw s → SetLaw (modSet z f s)) : Lawful s (modSet z f s) where
  laws := keepsLaws_of_keeps fun _ _ => keeps_modSet z f s
  masks hm hs := ⟨hm, hsets hs⟩
  triggers _ _ ht := ht.appendedItem z f (hitems ▸ ht.itemsRoom z)
  sweeps _ := (SameSweeps.of_ports (s := s) (t := modSet z f s) rfl fun _ => rfl).sweepLaw

theorem lawful_touchPorts (ps : List PortId) (s : State) : Lawful s (forPorts ps touchPort s) :=
  .foldl ps (fun t p => (calm_touchPort p t).lawful (keepsLaws_of_keeps fun _ _ => keeps_touchPort p t)) s

theorem SetLaw.dissolved (hs : SetLaw s) (z : SetId) (f : FrameSet → FrameSet) (hf : (f s.sets[z]).formed = false) :
    SetLaw (modSet z f s) := by
  have others : ∀ j : SetId, (modSet z f s).sets[j].formed = true → (modSet z f s).sets[j] = s.sets[j] := by
    intro j hj
    rw [modSet_sets] at hj ⊢
    split at hj
    · rw [hf] at hj; cases hj
    · rw [if_neg ‹_›]
  refine ⟨fun i j p hi hj => ?_, fun j hj => ?_⟩
  · rw [others i hi, others j hj]
    rw [others i hi] at hi
    rw [others j hj] at hj
    exact hs.1 i j p hi hj
  · rw [others j hj]
    rw [others j hj] at hj
    exact hs.2 j hj

theorem lawful_dissolve (z : SetId) (s : State) : Lawful s (dissolve z s) :=
  (lawful_modSet z _ rfl fun hs => hs.dissolved z _ rfl).trans (lawful_touchPorts _ _)

theorem lawful_takeDissolveSet (a : Addr) (set : Byte) (s : State) : Lawful s (takeDissolveSet a set s) := by
  unfold takeDissolveSet
  split
  · exact lawful_completeCommand ..
  · exact lawful_ite _ (fun _ => lawful_completeCommand ..) fun _ => lawful_ite _ (fun _ => lawful_completeCommand ..) fun _ =>
      (lawful_dissolve _ s).trans (lawful_completeCommand ..)

/-- A set is formed of ports in no set that share one source (R128). -/
theorem SetLaw.formedSet (hs : SetLaw s) (z : SetId) (f : FrameSet → FrameSet) {mask : BitVec 8} (hmask : (f s.sets[z]).mask = mask)
    (hfree : ∀ p ∈ maskPorts mask, s.setOf p = none)
    (hsource : ∃ j, ∀ p ∈ maskPorts mask, (s.source j).mask.getLsbD p.val = true) : SetLaw (modSet z f s) := by
  have new : (modSet z f s).sets[z].mask = mask := by rw [modSet_sets, if_pos rfl, hmask]
  have old : ∀ j : SetId, j ≠ z → (modSet z f s).sets[j] = s.sets[j] := fun j hj => by rw [modSet_sets, if_neg hj]
  have apart : ∀ (j : SetId) (p : PortId), j ≠ z → (modSet z f s).sets[j].formed = true → (modSet z f s).sets[j].mask.getLsbD p.val = true →
      (modSet z f s).sets[z].mask.getLsbD p.val = true → False := by
    intro j p hj formed hp hz
    rw [old j hj] at formed hp
    rw [new] at hz
    rw [setOf_eq_none.mp (hfree p (mem_maskPorts.mpr hz)) j formed] at hp
    cases hp
  refine ⟨fun i j p hi hj hpi hpj => ?_, fun j hj => ?_⟩
  · rcases eq_or_ne i z with rfl | hi' <;> rcases eq_or_ne j i with rfl | hj'
    · rfl
    · exact (apart j p hj' hj hpj hpi).elim
    · rfl
    · rcases eq_or_ne j z with rfl | hj''
      · exact (apart i p hi' hi hpi hpj).elim
      · rw [old i hi'] at hi hpi
        rw [old j hj''] at hj hpj
        exact hs.1 i j p hi hj hpi hpj
  · rcases eq_or_ne j z with rfl | hj'
    · obtain ⟨i, hi⟩ := hsource
      exact ⟨i, fun p hp => hi p (mem_maskPorts.mpr (new ▸ hp))⟩
    · rw [old j hj'] at hj ⊢
      exact hs.2 j hj

theorem formRefusal_none {z : SetId} {mask : BitVec 8} (h : formRefusal z mask s = none) :
    (∀ p ∈ maskPorts mask, s.setOf p = none) ∧ ∃ j, ∀ p ∈ maskPorts mask, (s.source j).mask.getLsbD p.val = true := by
  unfold formRefusal at h
  dsimp only at h
  split at h
  · cases h
  split at h
  · cases h
  rename_i hfree
  split at h
  · cases h
  rename_i hsource
  refine ⟨fun p hp => ?_, ?_⟩
  · simp only [List.any_eq_true, not_exists, not_and] at hfree
    exact Option.not_isSome_iff_eq_none.mp (hfree p hp)
  · simp only [Bool.not_eq_true', Bool.not_eq_false, List.any_eq_true, List.all_eq_true] at hsource
    obtain ⟨j, -, hj⟩ := hsource
    exact ⟨j, hj⟩

theorem lawful_formSetNow {z : SetId} {mask : BitVec 8} (h : formRefusal z mask s = none) (lead : Taker) :
    Lawful s (formSetNow z mask lead s) := by
  obtain ⟨free, j, hj⟩ := formRefusal_none h
  have copied := calm_patternPositions (fun w => { w with length := lead.length, bits := lead.bits, position := 0 }) (maskPorts mask) s
  refine .trans (.trans (copied.lawful (keepsLaws_of_keeps fun _ _ => keeps_patternPositions _ _ s)) (lawful_modSet z _ rfl fun hs => ?_))
    (lawful_touchPorts _ _)
  refine hs.formedSet z _ rfl (fun p hp => ?_) ⟨j, fun p hp => ?_⟩
  · rw [setOf_eq_of_members copied.triggers.formed copied.triggers.members]; exact free p hp
  · rw [copied.triggers.source]; exact hj p hp

theorem lawful_takeFormSet (a : Addr) (set members : Byte) (s : State) : Lawful s (takeFormSet a set members s) := by
  unfold takeFormSet
  split
  · refine lawful_ite _ (fun _ => lawful_completeCommand ..) fun _ => ?_
    split
    · exact lawful_completeCommand ..
    · exact (lawful_formSetNow ‹_› _).trans (lawful_completeCommand ..)
  · exact lawful_completeCommand ..

end

end Sys2Proof.Machine
end

section
/-! PROOFS. Every command and every step keeps the laws of masks, sets, trigger numbers and sweeps. -/

namespace Sys2Proof.Machine

variable (p : PortId) {s t u : State}

/-! ## Command records -/

theorem Calm.withPort (a : Addr) (port : Byte) (f : PortId → State → State) (r : List Byte) (h : ∀ p, Calm s (f p s)) :
    Calm s (withPort a port f s r) := by
  unfold Machine.withPort
  split
  · exact h _
  · exact calm_completeCommand ..

theorem lawful_withPort (a : Addr) (port : Byte) (f : PortId → State → State) (r : List Byte) (h : ∀ p, Lawful s (f p s)) :
    Lawful s (withPort a port f s r) := by
  unfold withPort
  split
  · exact h _
  · exact lawful_completeCommand ..

theorem lawful_takePortPower (a : Addr) (action : Byte) (s : State) : Lawful s (takePortPower a action p s) :=
  lawful_ite _ (fun _ => (calm_takePowerOn p a s).lawful (keepsLaws_takePowerOn p a s)) fun _ =>
    lawful_ite _ (fun _ => lawful_takePowerOff p a s) fun _ => lawful_completeCommand ..

theorem calm_takeClearFlexMap (a : Addr) (s : State) : Calm s (takeClearFlexMap a p s) := by
  unfold takeClearFlexMap
  exact (calm_modFlex p _ s).trans (calm_completeCommand ..)

theorem lawful_ownCommand (a : Addr) (c : Command) (s : State) : Lawful s (ownCommand a c s) := by
  have laws := keepsLaws_ownCommand a c s
  cases c with
  | portPower port action => exact lawful_withPort a port _ _ fun p => lawful_takePortPower p a action s
  | setBudget n => exact lawful_takeSetBudget a n s
  | configurePort port x => exact (Calm.withPort a port _ _ fun p => calm_takeConfigurePort p a x s).lawful laws
  | resetPort port => exact (Calm.withPort a port _ _ fun p => calm_takeResetPort p a s).lawful laws
  | clearAlerts ports cellFlags portFlags => exact (calm_takeClearAlerts a ports cellFlags portFlags s).lawful laws
  | setGather group count time => exact (calm_takeSetGather a group count time s).lawful laws
  | headAccess port x => exact (Calm.withPort a port _ _ fun p => calm_takeHeadAccess p a x s).lawful laws
  | setSource x => exact lawful_takeSetSource a x s
  | setPattern port length bits => exact (Calm.withPort a port _ _ fun p => calm_takeSetPattern p a length bits s).lawful laws
  | softTrigger source => exact lawful_takeSoftTrigger a source s
  | setAxisPosition axis value => exact lawful_takeSetAxisPosition a axis value s
  | setLensTable port x => exact (Calm.withPort a port _ _ fun p => calm_takeSetLensTable p a x s).lawful laws
  | formSet set members => exact lawful_takeFormSet a set members s
  | dissolveSet set => exact lawful_takeDissolveSet a set s
  | cableSweep port averages => exact lawful_withPort a port _ _ fun p => lawful_takeCableSweep p a averages s
  | setFlexAxis port axis threshold low high =>
    exact (Calm.withPort a port _ _ fun p => calm_takeSetFlexAxis p a axis threshold low high s).lawful laws
  | readFlexMap port => exact lawful_withPort a port _ _ fun p => lawful_completeCommand ..
  | clearFlexMap port =>
    exact (Calm.withPort a port _ _ fun p => calm_takeClearFlexMap p a s).lawful laws
  | releaseSnapshot port => exact (Calm.withPort a port _ _ fun p => calm_takeReleaseSnapshot p a s).lawful laws

theorem lawful_flushMirrors (s : State) : Lawful s (flushMirrors s) := (calm_flushMirrors s).lawful (keepsLaws_flushMirrors s)

theorem lawful_takeCommand (a : Addr) (s : State) : Lawful s (takeCommand a s) :=
  (calm_takeCommand a s).lawful (keepsLaws_takeCommand a s)

theorem lawful_startRecord (a : Addr) (s : State) : Lawful s (startRecord a s) := by
  have refused : ∀ c, Lawful s (flushMirrors (completeCommand a c [] (takeCommand a s))) := fun c =>
    ((lawful_takeCommand a s).trans (lawful_completeCommand ..)).trans (lawful_flushMirrors _)
  unfold startRecord
  refine lawful_ite _ (fun _ => refused _) fun _ => ?_
  split
  · exact refused _
  · exact ((lawful_takeCommand a s).trans (lawful_ownCommand ..)).trans (lawful_flushMirrors _)

theorem lawful_modChain (f : ChainEngine → ChainEngine) (s : State) : Lawful s (modChain f s) :=
  (calm_modChain f s).lawful (keepsLaws_modChain f s)

theorem lawful_walkSteps (n : Nat) (s : State) : Lawful s (walkSteps n s) := by
  induction n generalizing s with
  | zero => exact .refl s
  | succ n ih =>
    unfold walkSteps
    refine lawful_ite _ (fun _ => ?_) fun _ => .refl s
    split
    · exact (lawful_startRecord _ s).trans (ih _)
    · exact lawful_ite _ (fun _ => (lawful_modChain _ s).trans (ih _)) fun _ => lawful_modChain _ s

theorem lawful_beginWalk (s : State) : Lawful s (beginWalk s) := (lawful_modChain _ s).trans (lawful_walkSteps _ _)

/-! ## Start of the cell (R179) -/

theorem SameTriggers.setOf (h : SameTriggers s t) (q : PortId) : t.setOf q = s.setOf q :=
  setOf_eq_of_members h.formed h.members q

theorem sameTriggers_hostOff (s : State) : SameTriggers s (hostOff p s) := by
  have idle : SameTriggers s (modPower p (fun w => { w with retries := 0, pendingOn := false }) (completeOn p .cancelled s)) :=
    (calm_completeOn p _ s).triggers.trans (sameTriggers_modPower p _ _)
  have off : SameTriggers s (turnOff p .hostOff (completeOn p .cancelled s)) :=
    ((calm_completeOn p _ s).trans (calm_turnOff p _ _)).triggers
  unfold hostOff
  dsimp only
  split
  · exact idle
  · exact idle
  · exact off
  all_goals exact off.trans (sameTriggers_examineBudget _)

/-- A port leaves the mask of a source (R179). -/
abbrev unmask (x : Source) : Source := { x with mask := x.mask &&& ~~~BitVec.twoPow 8 p.val }

theorem unmask_getLsbD (q : PortId) (x : Source) : (unmask p x).mask.getLsbD q.val = true ↔ x.mask.getLsbD q.val = true ∧ q ≠ p := by
  rw [getLsbD_taken, BitVec.getLsbD_twoPow, ne_eq, Fin.ext_iff, eq_comm (a := q.val), decide_eq_true p.isLt, Bool.true_and,
    decide_eq_false_iff_not]

theorem unmasked_mem {k j : SourceId} {q : PortId} (h : ((modSource k (unmask p) s).source j).mask.getLsbD q.val = true) :
    (s.source j).mask.getLsbD q.val = true := by
  rw [modSource_source] at h
  split at h
  · rename_i e; rw [e]; exact ((unmask_getLsbD p q _).mp h).1
  · exact h

/-- A port outside every set leaves the mask of a source. -/
theorem lawful_unmask (k : SourceId) (hp : s.setOf p = none) : Lawful s (modSource k (unmask p) s) where
  laws := keepsLaws_of_keeps fun _ _ => keeps_modSource k _ s
  masks hm hs := by
    refine ⟨fun i j q hi hj => hm i j q (unmasked_mem p hi) (unmasked_mem p hj), hs.1, fun z (hz : s.sets[z].formed = true) => ?_⟩
    obtain ⟨j, hj⟩ := hs.2 z hz
    refine ⟨j, fun q (hq : s.sets[z].mask.getLsbD q.val = true) => ?_⟩
    have hne : q ≠ p := by
      rintro rfl
      rw [setOf_eq_none.mp hp z hz] at hq
      cases hq
    rw [modSource_source]
    split
    · rename_i e; exact (unmask_getLsbD p q _).mpr ⟨e ▸ hj q hq, hne⟩
    · exact hj q hq
  triggers _ _ ht := by
    refine ⟨fun j => ?_, fun j q hq => (ht.maskBelow j q (unmasked_mem p hq)).trans (le_of_eq ?_), ht.entriesRise, ht.entriesSeen,
      ht.entriesRoom, ht.itemsRoom⟩
    · rw [modSource_source]
      split
      · exact ht.activeBelow k
      · exact ht.activeBelow j
    · rw [modSource_source]
      split
      · rename_i e; rw [e]
      · rfl
  sweeps _ := (SameSweeps.of_ports (s := s) (t := modSource k (unmask p) s) rfl fun _ => rfl).sweepLaw

theorem lawful_excludePort (hp : s.setOf p = none) :
    Lawful s (excludePort p s) ∧ ∀ q, (excludePort p s).setOf q = s.setOf q := by
  have unmasked : ∀ (l : List SourceId) {s : State}, s.setOf p = none →
      Lawful s (l.foldl (fun t k => modSource k (unmask p) t) s) ∧
        ∀ q, (l.foldl (fun t k => modSource k (unmask p) t) s).setOf q = s.setOf q := by
    intro l
    induction l with
    | nil => exact fun _ => ⟨.refl _, fun _ => rfl⟩
    | cons k l ih =>
      intro s hp
      obtain ⟨law, sets⟩ := ih (s := modSource k (unmask p) s) hp
      exact ⟨(lawful_unmask p k hp).trans law, sets⟩
  obtain ⟨law, sets⟩ := unmasked allSources hp
  unfold excludePort
  dsimp only
  split
  · exact ⟨law.trans (lawful_hostOff p _), fun q => ((sameTriggers_hostOff p _).setOf q).trans (sets q)⟩
  · exact ⟨law, sets⟩

theorem lawful_excludePorts (ps : List PortId) (h : ∀ p ∈ ps, s.setOf p = none) : Lawful s (forPorts ps excludePort s) := by
  induction ps generalizing s with
  | nil => exact .refl s
  | cons p ps ih =>
    obtain ⟨law, sets⟩ := lawful_excludePort p (h p List.mem_cons_self)
    exact law.trans (ih fun q hq => (sets q).trans (h q (List.mem_cons_of_mem p hq)))

theorem dissolve_sets (z j : SetId) (s : State) :
    (dissolve z s).sets[j] = if j = z then { s.sets[z] with formed := false, mask := 0 } else s.sets[j] := by
  have h : ∀ (ps : List PortId) (s : State), (forPorts ps touchPort s).sets = s.sets := by
    intro ps
    induction ps with
    | nil => exact fun _ => rfl
    | cons p ps ih => exact fun s => ih (touchPort p s)
  unfold dissolve
  simp only [h]
  exact modSet_sets z j _ s

/-- After the dissolutions of a start no set named has a member at or beyond the port count (R179). -/
theorem setBeyond_dissolved (n : Nat) (l : List SetId) (s : State) (j : SetId) (h : j ∈ l ∨ setBeyond n s.sets[j] = false) :
    setBeyond n (l.foldl (fun t k => if setBeyond n t.sets[k] then dissolve k t else t) s).sets[j] = false := by
  induction l generalizing s with
  | nil => exact h.resolve_left List.not_mem_nil
  | cons k l ih =>
    refine ih _ (h.elim (fun hj => ?_) fun hj => .inr ?_)
    · rcases List.mem_cons.mp hj with rfl | hj
      · right
        dsimp only
        split
        · rw [dissolve_sets, if_pos rfl]; rfl
        · exact Bool.eq_false_iff.mpr ‹_›
      · exact .inl hj
    · dsimp only
      split
      · rw [dissolve_sets]
        split
        · rfl
        · exact hj
      · exact hj

theorem within_of_not_setBeyond {n : Nat} {z : FrameSet} (h : setBeyond n z = false) (hz : z.formed = true) (hp : n ≤ p.val) :
    z.mask.getLsbD p.val = false := by
  rw [setBeyond, hz, Bool.true_and, List.any_eq_false] at h
  exact Bool.eq_false_iff.mpr fun hm => h p (mem_maskPorts.mpr hm) (decide_eq_true hp)

theorem lawful_applyPortCount (n : Nat) (s : State) : Lawful s (applyPortCount n s) := by
  unfold applyPortCount
  have dissolved := Lawful.foldl [0, 1, 2, 3]
    (fun t k => lawful_ite (setBeyond n t.sets[k] = true) (fun _ => lawful_dissolve k t) fun _ => .refl t) s
  refine dissolved.trans (lawful_excludePorts _ fun p hp => setOf_eq_none.mpr fun k hk => ?_)
  have beyond : n ≤ p.val := by simpa using (List.mem_filter.mp hp).2
  exact within_of_not_setBeyond p (setBeyond_dissolved n [0, 1, 2, 3] s k (.inl (mem_allSets k))) hk beyond

theorem lawful_writeCellMirror (s : State) : Lawful s (writeCellMirror s) :=
  (calm_writeCellMirror s).lawful (keepsLaws_writeCellMirror s)

theorem lawful_clearProgress (s : State) : Lawful s (clearProgress s) :=
  ((calm_modChain _ s).trans (calm_dmaWrite _ _ _)).lawful (keepsLaws_clearProgress s)

theorem lawful_startRun (n : Nat) (s : State) : Lawful s (startRun n s) := by
  have mirrors : ∀ s, Lawful s (forPorts allPorts writePortMirror s) :=
    .foldl _ fun t p => (calm_writePortMirror p t).lawful (keepsLaws_of_keeps fun _ _ => keeps_writePortMirror p t)
  unfold startRun
  dsimp only
  exact .trans (.trans (.trans (.trans (.trans (.trans (.trans (lawful_modChain _ s) (lawful_applyPortCount n _)) (lawful_clearProgress _))
    (lawful_writeCellMirror _)) (mirrors _)) (lawful_modChain _ _)) (lawful_writeCellMirror _)) (lawful_beginWalk _)

theorem lawful_startCell (s : State) : Lawful s (startCell s) := by
  unfold startCell
  split
  · exact ((calm_modChain _ s).trans (calm_setCause _ _)).lawful
      (keepsLaws_of_keeps fun _ _ => (keeps_modChain _ s).trans (keeps_setCause _ _))
  · exact lawful_startRun _ s

theorem lawful_enterStopped (s : State) : Lawful s (enterStopped s) := by
  have stopped : Lawful s (writeCellMirror (modChain (fun c => { c with cell := .stopped }) s)) :=
    (lawful_modChain _ s).trans (lawful_writeCellMirror _)
  exact lawful_ite _ (fun _ => lawful_ite _ (fun _ => stopped.trans (lawful_startCell _)) fun _ => stopped) fun _ => .refl s

/-! ## Registers and hard reset -/

theorem lawful_writeControl (v : U32) (s : State) : Lawful s (writeControl v s) := by
  unfold writeControl
  dsimp only
  refine lawful_ite _ (fun _ => .refl s) fun _ => (lawful_modChain (fun c => { c with run := v.getLsbD 0 }) s).trans ?_
  split
  · exact lawful_startCell _
  · exact lawful_startCell _
  · exact lawful_stopCell _
  · exact .refl _

theorem lawful_writeTap (s : State) : Lawful s (writeTap s) :=
  lawful_ite _ (fun _ => lawful_ite _ (fun _ => lawful_modChain _ s) fun _ => lawful_beginWalk s) fun _ => .refl s

theorem lawful_accessRegister (x : RegAccess) (s : State) : Lawful s (accessRegister x s) := by
  have block : ∀ high v, Lawful s (writeBlockHalf high v s) := fun high v =>
    (calm_writeBlockHalf high v s).lawful (keepsLaws_writeBlockHalf high v s)
  unfold accessRegister
  refine lawful_ite _ (fun _ => .refl s) fun _ => ?_
  dsimp only
  split
  · exact lawful_writeControl _ s
  · exact block _ _
  · exact block _ _
  · exact lawful_writeTap s
  · exact lawful_modChain _ s
  · exact (calm_writeEnable _ s).lawful (keepsLaws_writeEnable _ s)
  · exact .refl s

theorem lawful_hostPost (ws : List HostWrite) (s : State) : Lawful s (hostPost ws s) :=
  (calm_hostPost ws s).lawful (keepsLaws_hostPost ws s)

/-- The blocks of a card after hard reset that the laws of masks, sets, triggers and sweeps speak of. -/
structure Fallow (s : State) : Prop where
  ports : ∀ p, s.port p = {}
  sources : ∀ k, s.source k = {}
  sets : ∀ k : SetId, s.sets[k] = {}
  sweeps : s.sweeps = {}

theorem Fallow.laws (h : Fallow s) : MaskLaw s ∧ SetLaw s ∧ TriggerLaw s ∧ SweepLaw s := by
  have idle : NoSweeps s := ⟨h.sweeps, fun p => by rw [h.ports]⟩
  refine ⟨fun j k p => by rw [h.sources]; simp, ⟨fun j k p => by rw [h.sets]; simp, fun k => by rw [h.sets]; simp⟩,
    ⟨fun k => by rw [h.sources]; simp, fun k p => by rw [h.sources]; simp, fun p => by rw [h.ports]; exact .nil,
      fun p => by rw [h.ports]; simp,
      fun p => by rw [h.ports]; simp, fun k => by rw [h.sets]; simp⟩, idle.sweepLaw⟩

theorem lawful_hardReset (x : ResetInputs) (s : State) : Lawful s (hardReset x s) := by
  have fallow : Fallow { pending := s.pending, mem := s.mem, bus := s.bus, cable := s.cable
                         power := { supplyMv := x.supplyMv, supplyLow := decide (x.supplyMv.toNat < supplyLowMv) }
                         trig := { axisA := { ch1 := x.a1, ch2 := x.a2 }, axisB := { ch1 := x.b1, ch2 := x.b2 }
                                   in0 := resetDebouncer x.in0, in1 := resetDebouncer x.in1 } } :=
    ⟨fun p => by simp [State.port], fun k => by simp [State.source], fun k => by simp, rfl⟩
  obtain ⟨masks, sets, triggers, sweeps⟩ := fallow.laws
  have laws := keepsLaws_hardReset x s
  unfold hardReset at laws ⊢
  dsimp only at laws ⊢
  split
  · rename_i h
    rw [if_pos h] at laws
    have alert := fun t => calm_setCellAlert cellAlertSupplyLow t
    exact ⟨laws, fun _ _ => ⟨maskLaw_of_masks (fun k => by rw [(alert _).triggers.source]) masks, (alert _).triggers.setLaw sets⟩,
      fun _ _ _ => (alert _).triggers.triggerLaw triggers, fun _ _ => (alert _).sweeps.sweepLaw sweeps⟩
  · rename_i h
    rw [if_neg h] at laws
    exact ⟨laws, fun _ _ => ⟨masks, sets⟩, fun _ _ _ => triggers, fun _ _ => sweeps⟩

/-! ## Every command and every step -/

theorem lawful_endCommand (h : endCommand u = .next t) (hu : Lawful s u) : Lawful s t := by
  injection h with h
  exact h ▸ hu.trans (lawful_flushMirrors u)

/-- A command that does nothing to triggers, sets and sweeps. -/
theorem Calm.endCommand (hu : Calm s u) (laws : KeepsLaws s t) (h : endCommand u = .next t) : Lawful s t := by
  injection h with h
  exact (h ▸ hu.trans (calm_flushMirrors u)).lawful laws

theorem lawful_execRecord {a : Addr} {c : Command} (h : execRecord a c s = .next t) : Lawful s t := by
  cases h
  exact lawful_ite _ (fun _ => ((lawful_takeCommand a s).trans (lawful_ownCommand a c _)).trans (lawful_flushMirrors _)) fun _ => .refl s

/-- Every command keeps every law. -/
theorem lawful_exec (c : Instr) (h : exec c s = .next t) : Lawful s t := by
  have laws := keepsLaws_exec c h
  cases c with
  | cellStart value posted => exact lawful_endCommand h ((lawful_hostPost posted s).trans (lawful_writeControl value _))
  | cellStop value => exact lawful_endCommand h (lawful_writeControl value s)
  | cellStopped => exact lawful_endCommand h (lawful_enterStopped s)
  | blockAddressWrite high value => exact (calm_writeBlockHalf high value s).endCommand laws h
  | tap value posted => exact lawful_endCommand h ((lawful_hostPost posted s).trans (lawful_writeTap _))
  | causeClear value => exact (calm_modChain _ s).endCommand laws h
  | causeEnableWrite value => exact (calm_writeEnable value s).endCommand laws h
  | registerWriteIgnored access => exact lawful_endCommand h (lawful_accessRegister access s)
  | hardReset inputs => exact lawful_endCommand h (lawful_hardReset inputs s)
  | detectComplete p ohms => exact lawful_endCommand h (lawful_detectDone p ohms s)
  | inrushComplete p => exact lawful_endCommand h (lawful_inrushDone p s)
  | inrushTimeout p => exact lawful_endCommand h (lawful_inrushExpired p s)
  | foldbackEntry p ma => exact lawful_endCommand h (lawful_currentSampled p ma s)
  | foldbackReturn p ma => exact lawful_endCommand h (lawful_currentSampled p ma s)
  | foldbackTimeout p => exact lawful_endCommand h (lawful_foldbackExpired p s)
  | shortThreshold p ma => exact lawful_endCommand h (lawful_currentSampled p ma s)
  | cooldownExpiry p => exact (calm_cooldownExpired p s).endCommand laws h
  | supplyLow mv => exact (calm_supplySampled mv s).endCommand laws h
  | supplyRestored mv => exact (calm_supplySampled mv s).endCommand laws h
  | huntExactMark p mark => exact (calm_markInHunt p mark s).endCommand laws h
  | confirmMark p mark => exact (calm_markInConfirm p mark s).endCommand laws h
  | lockedMark p mark => exact (calm_markInLocked p mark s).endCommand laws h
  | recoveryWindowClose p => exact (calm_windowCloses p s).endCommand laws h
  | carrierLoss p => exact (calm_carrierLost p s).endCommand laws h
  | carrierReturn p => exact (calm_carrierBack p s).endCommand laws h
  | confirmBurstEnd p burst => exact (calm_endBurst p burst s).endCommand laws h
  | frameOpen p burst => exact (calm_endBurst p burst s).endCommand laws h
  | line p burst => exact (calm_endBurst p burst s).endCommand laws h
  | frameClose p burst => exact (calm_endBurst p burst s).endCommand laws h
  | fillBurst p burst => exact (calm_endBurst p burst s).endCommand laws h
  | damagedBurst p burst => exact (calm_endBurst p burst s).endCommand laws h
  | frameTimeout p trigger => exact (calm_frameExpired p trigger s).endCommand laws h
  | unitAnswer p ack => exact (calm_answered p ack s).endCommand laws h
  | holdSign p => exact (calm_holdSigned p s).endCommand laws h
  | holdAnswer p ack => exact (calm_holdAnswered p ack s).endCommand laws h
  | readDataWord p word => exact (calm_dataWord p word s).endCommand laws h
  | replyTimeout p => exact (calm_replyExpired p s).endCommand laws h
  | holdLimit p => exact (calm_holdExpired p s).endCommand laws h
  | noteStart p collides => exact (calm_noteBegins p collides s).endCommand laws h
  | overtempNote p => exact (calm_overtempTaken p s).endCommand laws h
  | lensFaultNote p unit => exact (calm_lensFaultTaken p unit s).endCommand laws h
  | headRestartedNote p => exact (calm_headRestartTaken p s).endCommand laws h
  | noteDiscarded p => exact (calm_noteDropped p s).endCommand laws h
  | noteTimeout p => exact (calm_noteExpired p s).endCommand laws h
  | pingRetryTimeout p => exact (calm_retryExpired p s).endCommand laws h
  | axisCount axis ch1 ch2 => exact lawful_endCommand h (lawful_sampleAxis axis ch1 ch2 s)
  | inputRise input => exact lawful_endCommand h (lawful_lineRises input s)
  | inputFall input => exact (calm_modDebouncer input _ s).endCommand laws h
  | debounceExpiry input => exact lawful_endCommand h (lawful_debounceExpires input s)
  | lensDeadline p => exact (calm_deadlineExpired p s).endCommand laws h
  | sweepComplete samples => exact lawful_endCommand h (lawful_sweepDone samples s)
  | gatherTimeout group => exact (calm_gatherExpires group s).endCommand laws h
  | runChangeInStoppingOrFault value => exact lawful_endCommand h (lawful_writeControl value s)
  | _ => exact lawful_execRecord h

/-- Every step keeps every law. -/
theorem lawful_step (h : step s = .next t) : Lawful s t := by
  have laws := keepsLaws_step h
  unfold step at h
  split at h
  · cases h
    unfold idleStep at laws ⊢
    split_ifs at laws ⊢
    · exact (lawful_walkSteps _ s).trans (lawful_flushMirrors _)
    · exact (lawful_enterStopped s).trans (lawful_flushMirrors _)
    · exact (calm_modTrig _ s rfl).lawful laws
  · rename_i c rest _
    refine Lawful.trans (t := { s with pending := rest }) (Calm.lawful (.of_ports rfl rfl rfl fun _ => rfl) ?_) (lawful_exec c h)
    exact keepsLaws_of_keeps fun _ _ => .of_ports rfl fun _ => rfl

/-- Settles O6: masks, sets and sweeps, by the effect of each command on sources, sets and the sweep front end. -/
theorem stepKeepsMaskSetAndSweepLaws : Obligations.StepKeepsMaskSetAndSweepLaws :=
  ⟨fun _ _ hm hs h => (lawful_step h).masks hm hs, fun _ _ hp hw h => (lawful_step h).sweeps hp hw⟩

/-- Settles O7: triggers come from fires alone, and a fire reaches each port of its source's mask once, with a number above all that the
port has seen. -/
theorem stepKeepsTriggerLaw : Obligations.StepKeepsTriggerLaw :=
  fun _ _ hm hs ht h => (lawful_step h).triggers hm hs ht

end Sys2Proof.Machine
end

section
/-! PROOFS. An empty queue (R63, R180), where a PITCH source is armed (R70), and the commands SET_PATTERN (R75), SET_AXIS_POSITION (R65)
and SET_SOURCE (R67 to R69). -/

namespace Sys2Proof.Machine

variable {s v u : State} {w : List BusEvent} {p : PortId} {a : Addr}

/-! ## An empty queue -/

theorem step_idle (h : s.pending = []) : step s = .next (idleStep s) := by
  unfold step
  rw [h]

theorem running_of_cell {c : CellState} (h : s.chain.cell = c) : s.running = decide (c = .running) := by
  unfold State.running
  rw [h]

/-- Settles O2. -/
theorem idleCardKeepsTime : Obligations.IdleCardKeepsTime := by
  refine fun s empty => ⟨fun noWalk noStop => ?_, fun stopping free => ?_⟩
  · rw [step_idle empty, idleStep, if_neg (by simpa using noWalk), if_neg (by simpa using noStop)]
    rfl
  · rw [step_idle empty, idleStep, running_of_cell stopping, if_neg (by simp), if_pos (by simp [stopping, free])]
    rfl

/-! ## Where a PITCH source is armed -/

/-- The REVERSE grid is the FORWARD grid seen from the other side (R70). -/
theorem nextGridPoint_reverse (o p : Int) (q : Nat) : nextGridPoint .reverse o p q = -nextGridPoint .forward (-o) (-p) q := by
  unfold nextGridPoint
  dsimp only
  rw [show -p - -o = o - p by ring]
  by_cases h : o < p
  · rw [if_pos h, if_pos (by omega), neg_neg]
  · rw [if_neg h, if_neg (by omega)]
    ring

/-- The FORWARD point is on the grid, above the position, and the smallest of that kind (R70). -/
theorem nextGridPoint_forward (o p : Int) {q : Nat} (hq : 1 ≤ q) :
    (∃ k : Nat, nextGridPoint .forward o p q = o + k * q) ∧ p < nextGridPoint .forward o p q ∧
      ∀ k : Nat, p < o + k * q → nextGridPoint .forward o p q ≤ o + k * q := by
  have pos : (0 : Int) < q := by exact_mod_cast hq
  unfold nextGridPoint
  dsimp only
  split
  · rename_i below
    exact ⟨⟨0, by simp⟩, below, fun k _ => le_add_of_nonneg_right (by positivity)⟩
  · rename_i above
    have steps : 0 ≤ (p - o) / q := Int.ediv_nonneg (by omega) pos.le
    refine ⟨⟨((p - o) / q + 1).toNat, by rw [Int.toNat_of_nonneg (by omega)]⟩, ?_, fun k hk => ?_⟩
    · have := Int.lt_ediv_add_one_mul_self (p - o) pos
      omega
    · have fewer : (p - o) / q < k := Int.ediv_lt_of_lt_mul pos (by omega)
      have := mul_le_mul_of_nonneg_right (Int.add_one_le_iff.mpr fewer) pos.le
      omega

theorem pointInRange_some {n : Int} (h : ¬ (n < -2147483648 ∨ 2147483647 < n)) :
    pointInRange n = some (BitVec.ofInt 32 n) ∧ (BitVec.ofInt 32 n).toInt = n := by
  refine ⟨if_pos (by omega), ?_⟩
  rw [BitVec.toInt_ofInt]
  exact Int.bmod_eq_of_le (by norm_num; omega) (by norm_num; omega)

theorem pointInRange_none {n : Int} (h : n < -2147483648 ∨ 2147483647 < n) : pointInRange n = none := if_neg (by omega)

theorem limitReached_iff {limit made : U32} : limitReached limit made = true ↔ limit ≠ 0 ∧ limit.toNat ≤ made.toNat := by
  simp [limitReached]

/-- Settles O29. -/
theorem pitchArming : Obligations.PitchArming := by
  refine ⟨fun o p q hq => ?_, fun g pos x => ?_⟩
  · obtain ⟨grid, above, least⟩ := nextGridPoint_forward o p hq
    obtain ⟨⟨k, hk⟩, below, most⟩ := nextGridPoint_forward (-o) (-p) hq
    refine ⟨grid, above, least, ⟨k, ?_⟩, ?_, fun j hj => ?_⟩ <;> rw [nextGridPoint_reverse]
    · rw [hk]; ring
    · omega
    · have := most j (by omega)
      omega
  · intro n idle
    unfold armPitch
    simp only [limitReached_iff]
    by_cases spent : x.number = lastNumber ∨ g.limit ≠ 0 ∧ g.limit.toNat ≤ x.made.toNat
    · rw [if_pos spent]
      exact ⟨fun _ => rfl, fun h => absurd (spent.imp_right .inl) h⟩
    · rw [if_neg spent]
      by_cases range : n < -2147483648 ∨ 2147483647 < n
      · rw [pointInRange_none range]
        exact ⟨fun _ => rfl, fun h => absurd (.inr (.inr range)) h⟩
      · obtain ⟨some, value⟩ := pointInRange_some range
        rw [some]
        refine ⟨fun h => ?_, fun _ => ⟨_, value, rfl⟩⟩
        rcases h with h | h | h
        · exact absurd (.inl h) spent
        · exact absurd (.inr h) spent
        · exact absurd h range

/-! ## SET_PATTERN -/

/-- What some ports show after a change of each. -/
theorem forPorts_modPort_portView (f : PortId → Port → Port) {ps : List PortId} (h : ps.Nodup) (s : State) (q : PortId) :
    portView ((forPorts ps (fun p => modPort p (f p)) s).port q) = if q ∈ ps then portView (f q (s.port q)) else portView (s.port q) := by
  induction ps generalizing s with
  | nil => simp [forPorts]
  | cons p ps ih =>
    obtain ⟨hp, h⟩ := List.nodup_cons.mp h
    refine (ih h (modPort p (f p) s)).trans ?_
    have step := modPort_portView (p := p) (f p) s q
    rcases eq_or_ne q p with rfl | hne
    · rw [if_neg hp, if_pos List.mem_cons_self, step, if_pos rfl]
    · have same : (modPort p (f p) s).port q = s.port q := by rw [modPort_port, if_neg hne]
      simp only [same, List.mem_cons, hne, false_or]

theorem forPorts_modPort_fields (f : PortId → Port → Port) (ps : List PortId) (s : State) :
    forPorts ps (fun p => modPort p (f p)) s = { s with ports := (forPorts ps (fun p => modPort p (f p)) s).ports } := by
  induction ps generalizing s with
  | nil => rfl
  | cons p ps ih => exact (ih (modPort p (f p) s)).trans rfl

/-- Some ports, each changed once, as one change of all ports. -/
theorem sameDevice_forPorts (f : PortId → Port → Port) {ps : List PortId} (h : ps.Nodup) (s : State) :
    SameDevice (forPorts ps (fun p => modPort p (f p)) s)
      { s with ports := Vector.ofFn fun q => if q ∈ ps then f q (s.port q) else s.port q } := by
  rw [forPorts_modPort_fields]
  refine ⟨rfl, rfl, rfl, rfl, rfl, rfl, rfl, fun q => ?_⟩
  refine (forPorts_modPort_portView f h s q).trans ?_
  unfold State.port
  simp only [Fin.getElem_fin, Vector.getElem_ofFn, Fin.eta]
  split <;> rfl

theorem patternPorts_nodup (p : PortId) (s : State) : (patternPorts p s).Nodup := by
  unfold patternPorts
  split
  · exact nodup_maskPorts _
  · exact List.nodup_singleton p

theorem exec_setPattern {length : Byte} {bits : U16} (hr : s.running = true) (hp : p.val < s.chain.portCount.toNat) :
    exec (.setPattern a (BitVec.ofNat 8 p.val) length bits) s =
      .next (flushMirrors (takeSetPattern a p length bits (takeCommand a s))) := by
  refine (execRecord_running (c := .setPattern (BitVec.ofNat 8 p.val) length bits) hr).trans ?_
  unfold ownCommand
  dsimp only
  rw [withPort_named (s := takeCommand a s) hp]

/-- The bits of a pattern within its length (R75). -/
theorem getLsbD_pattern (bits : U16) (n i : Nat) :
    (bits &&& BitVec.ofNat 16 (2 ^ n - 1)).getLsbD i = (bits.getLsbD i && decide (i < n)) := by
  rw [BitVec.getLsbD_and, BitVec.getLsbD_ofNat, Nat.testBit_two_pow_sub_one]
  by_cases h : i < 16
  · simp [h]
  · simp [h, BitVec.getLsbD_of_ge bits i (by omega)]

/-- A pattern as SET_PATTERN sets it (R75). -/
abbrev patterned (n : Nat) (bits : U16) (x : Taker) : Taker := { x with length := n, bits := bits, position := 0 }

/-- Settles O30. -/
theorem setPattern : Obligations.SetPattern := by
  intro a p length bits s ⟨_, hr, hk⟩ hp
  refine ⟨fun bad => ?_, fun nonzero short => ?_⟩
  · refine ⟨_, exec_setPattern hr hp, ?_⟩
    rw [takeSetPattern, if_pos (bad.imp_left fun h => by rw [h]; rfl)]
    exact (shows_takeCommand a s).commandDone (u := s) hk (by simp)
  · intro members
    refine ⟨_, bits &&& BitVec.ofNat 16 (2 ^ length.toNat - 1), getLsbD_pattern bits _, exec_setPattern hr hp, ?_⟩
    have sound : ¬ (length.toNat = 0 ∨ 16 < length.toNat) := by
      rintro (h | h)
      · exact nonzero (BitVec.eq_of_toNat_eq h)
      · omega
    have ports : patternPorts p s = members := by
      unfold patternPorts
      cases h : s.setOf p with
      | none => simp only [members, h]
      | some k => simp only [members, h]; rfl
    rw [takeSetPattern, if_neg sound]
    dsimp only
    generalize hkept : bits &&& BitVec.ofNat 16 (2 ^ length.toNat - 1) = kept
    have shared : patternPorts p (takeCommand a s) = members := (patternPorts_congr rfl p).trans ports
    rw [shared]
    refine Shows.commandDone (((shows_takeCommand a s).modTakes members (patterned length.toNat kept)).to ?_) hk (by simp)
    rw [modTakes_afterTake]
    have changed := sameDevice_forPorts (fun _ q => { q with take := patterned length.toNat kept q.take })
      (ports ▸ patternPorts_nodup p s) s
    exact changed.withChain (congrArg (fun c => chainView (afterTake a c)) (modTakes_chain members (patterned length.toNat kept) s))

/-! ## SET_AXIS_POSITION -/

/-- One change of every source. -/
theorem map_eq_ofFn (f : Source → Source) (s : State) : (Vector.ofFn fun k => f (s.source k)) = s.trig.sources.map f := by
  ext1 i hi
  simp [State.source]

theorem modSources_all (f : Source → Source) (s : State) :
    allSources.foldl (fun t k => modSource k f t) s = { s with trig := { s.trig with sources := s.trig.sources.map f } } := by
  rw [← map_eq_ofFn]
  exact foldl_modSource (fun _ => f) s

theorem Shows.withTrig (h : Shows s v u w) {f : TriggerCell → TriggerCell} {c : TriggerCell} (hf : f u.trig = c) :
    Shows s (modTrig f v) { u with trig := c } w :=
  h.still ⟨h.device.pending, h.device.cable, h.device.chain, h.device.power, (congrArg f h.device.trig).trans hf, h.device.sets,
    h.device.sweeps, h.device.ports⟩ rfl rfl rfl

theorem exec_setAxisPosition {ax : Byte} {x : U32} (hr : s.running = true) :
    exec (.setAxisPosition a ax x) s = .next (flushMirrors (takeSetAxisPosition a ax x (takeCommand a s))) :=
  execRecord_running (c := .setAxisPosition ax x) hr

theorem takeSetAxisPosition_named {b : Byte} {ax : Axis} (h : axisNamed b = some ax) (x : U32) (s : State) :
    takeSetAxisPosition a b x s = completeCommand a .ok (u32 x)
      (allSources.foldl (fun t k => modSource k (rearm ax x) t) (setAxis ax { axisState ax s.trig with position := x } s)) := by
  unfold takeSetAxisPosition
  rw [h]

/-- The axis loaded and every source on it armed again (R65). -/
theorem Shows.loadsAxis (h : Shows s v u w) (ax : Axis) (pos : U32) :
    Shows s (allSources.foldl (fun t k => modSource k (rearm ax pos) t) (setAxis ax { axisState ax v.trig with position := pos } v))
      { u with trig := match ax with
        | .a => { u.trig with sources := u.trig.sources.map (rearm ax pos), axisA := { u.trig.axisA with position := pos } }
        | .b => { u.trig with sources := u.trig.sources.map (rearm ax pos), axisB := { u.trig.axisB with position := pos } } } w := by
  rw [modSources_all, h.device.trig]
  cases ax with
  | a =>
    exact h.withTrig (f := fun t => { t with sources := t.sources.map (rearm .a pos), axisA := { u.trig.axisA with position := pos } }) rfl
  | b =>
    exact h.withTrig (f := fun t => { t with sources := t.sources.map (rearm .b pos), axisB := { u.trig.axisB with position := pos } }) rfl

/-- Settles O31. -/
theorem setAxisPosition : Obligations.SetAxisPosition := by
  refine ⟨fun a ax x s ⟨_, hr, hk⟩ h1 h2 => ?_, fun a ax x s ⟨_, hr, hk⟩ => ?_⟩
  · refine ⟨_, exec_setAxisPosition hr, ?_⟩
    have none : axisNamed ax = none := by rw [axisNamed, if_neg h1, if_neg h2]
    rw [takeSetAxisPosition, none]
    exact (shows_takeCommand a s).commandDone (u := s) hk (by simp)
  · intro srcs trig
    refine ⟨_, exec_setAxisPosition hr, ?_⟩
    rw [takeSetAxisPosition_named (ax := ax) (by cases ax <;> rfl)]
    refine Shows.commandDone (u := { s with trig := trig }) ?_ hk (by simp)
    have loaded := (shows_takeCommand a s).loadsAxis ax x
    cases ax <;> exact loaded

/-! ## SET_SOURCE -/

theorem sourceNamed_ofNat (k : SourceId) : sourceNamed (BitVec.ofNat 8 k.val) = some k := by revert k; decide

theorem exec_setSource {x : SourceArgs} (hr : s.running = true) :
    exec (.setSource a x) s = .next (flushMirrors (takeSetSource a x (takeCommand a s))) := execRecord_running (c := .setSource x) hr

theorem maskWithin_of {mask : BitVec 8} (h : ∀ p : PortId, mask.getLsbD p.val = true → p.val < s.chain.portCount.toNat) :
    maskWithin mask s = true :=
  List.all_eq_true.mpr fun p hp => decide_eq_true (h p (mem_maskPorts.mp hp))

/-- The highest number is the same, counted as words or as numbers (R69). -/
theorem raisedNumber_eq (k : SourceId) (mask : BitVec 8) (s : State) : raisedNumber k mask s = BitVec.ofNat 32
    ((allPorts.filter fun p => mask.getLsbD p.val && !(s.source k).mask.getLsbD p.val).foldl
      (fun n p => max n (s.port p).take.lastTrigger.toNat) (s.source k).number.toNat) := by
  have highest (ps : List PortId) (n : U32) : (ps.foldl (fun n p =>
      if n.toNat < (s.port p).take.lastTrigger.toNat then (s.port p).take.lastTrigger else n) n).toNat =
      ps.foldl (fun n p => max n (s.port p).take.lastTrigger.toNat) n.toNat := by
    induction ps generalizing n with
    | nil => rfl
    | cons p ps ih =>
      rw [List.foldl_cons, List.foldl_cons, ih]
      congr 1
      split <;> omega
  have received : receivedPorts k mask s = allPorts.filter fun p => mask.getLsbD p.val && !(s.source k).mask.getLsbD p.val := by
    unfold receivedPorts maskPorts
    rw [List.filter_filter]
    simp only [Bool.and_comm]
  unfold raisedNumber
  rw [← received, ← highest, BitVec.ofNat_toNat, BitVec.setWidth_eq]

/-- An input's debouncer after a SET_SOURCE (R66, R68). -/
abbrev debounced (i : Input) (kind : SourceKind) (x : SourceArgs) (d : Debouncer) : Debouncer :=
  if kind = .input i then { d with setting := min x.debounce.toNat 1000 } else d

theorem applySource_eq (k : SourceId) (kind : SourceKind) (x : SourceArgs) (s : State) : applySource k kind x s =
    { s with trig := { s.trig with
      sources := Vector.ofFn fun j => (if j = k then newSource kind x.mask (raisedNumber k x.mask s) s.trig
        else { s.source j with mask := (s.source j).mask &&& ~~~x.mask })
      in0 := debounced .in0 kind x s.trig.in0
      in1 := debounced .in1 kind x s.trig.in1 } } := by
  have sources : (applySource k kind x s).trig.sources = Vector.ofFn fun j =>
      (if j = k then newSource kind x.mask (raisedNumber k x.mask s) s.trig
        else { s.source j with mask := (s.source j).mask &&& ~~~x.mask }) := by
    ext1 i hi
    rw [Vector.getElem_ofFn]
    exact applySource_source k ⟨i, hi⟩ kind x s
  rw [← sources]
  unfold applySource debounced
  rw [takeFromOthers_eq]
  cases kind with
  | none => simp [modSource, modTrig]
  | pitch g => simp [modSource, modTrig]
  | input i => cases i <;> simp [modSource, modTrig, modDebouncer, maxDebounce]

/-- A SET_SOURCE that passes its checks (R68). -/
theorem takeSetSource_applies {k : SourceId} {kind : SourceKind} {x : SourceArgs} (hk : sourceNamed x.source = some k)
    (hkind : programmeNamed x = some kind) (hwithin : maskWithin x.mask s = true) (hsplit : ∀ p, splitsSet k x.mask p s = false) :
    takeSetSource a x s = completeCommand a .ok (sourceResults kind x ((applySource k kind x s).source k)) (applySource k kind x s) := by
  have none : ¬ (allPorts.any fun p => splitsSet k x.mask p s) = true := by simp [hsplit]
  unfold takeSetSource
  rw [hk, hkind]
  dsimp only
  rw [hwithin, Bool.not_true, if_neg Bool.false_ne_true, if_neg none]

theorem takeSetSource_conflicts {k : SourceId} {kind : SourceKind} {x : SourceArgs} (hk : sourceNamed x.source = some k)
    (hkind : programmeNamed x = some kind) (hwithin : maskWithin x.mask s = true) (hsplit : splitsSet k x.mask p s = true) :
    takeSetSource a x s = completeCommand a .setConflict [] s := by
  unfold takeSetSource
  rw [hk, hkind]
  dsimp only
  rw [hwithin, Bool.not_true, if_neg Bool.false_ne_true, if_pos (List.any_eq_true.mpr ⟨p, mem_allPorts p, hsplit⟩)]

/-- A mask that keeps the members of formed sets where they are splits none of them (R68, log 31). -/
theorem not_splitsSet (hm : MaskLaw s) {k : SourceId} {mask : BitVec 8} (hkeep : ∀ (j : SetId) (p : PortId), s.sets[j].formed = true →
    s.sets[j].mask.getLsbD p.val = true → mask.getLsbD p.val = (s.source k).mask.getLsbD p.val) (p : PortId) :
    splitsSet k mask p s = false := by
  unfold splitsSet
  cases hset : s.setOf p with
  | none => rfl
  | some j =>
    obtain ⟨formed, member⟩ := setOf_eq_some hset
    rw [hkeep j p formed (mem_maskPorts.mp member), Option.isSome_some, Bool.true_and]
    cases hsource : s.sourceOf p with
    | none => rfl
    | some i =>
      have hi : (s.source i).mask.getLsbD p.val = true := List.find?_some (p := fun k => (s.source k).mask.getLsbD p.val) hsource
      dsimp only
      split
      · rename_i e; rw [← e, hi]; rfl
      · rename_i e; exact Bool.eq_false_iff.mpr fun hk => e (hm i k p hi hk)

theorem splitsSet_moved (hm : MaskLaw s) {k j : SourceId} {m : SetId} {mask : BitVec 8} (hformed : s.sets[m].formed = true)
    (hmember : s.sets[m].mask.getLsbD p.val = true) (hj : (s.source j).mask.getLsbD p.val = true)
    (hmove : (j = k ∧ mask.getLsbD p.val = false) ∨ (j ≠ k ∧ mask.getLsbD p.val = true)) : splitsSet k mask p s = true := by
  have inSet : (s.setOf p).isSome = true := by
    rw [Option.isSome_iff_ne_none]
    intro none
    rw [setOf_eq_none.mp none m hformed] at hmember
    cases hmember
  unfold splitsSet
  rw [inSet, sourceOf_eq_some hm hj, Bool.true_and]
  dsimp only
  rcases hmove with ⟨e, h⟩ | ⟨e, h⟩
  · rw [if_pos e, h]; rfl
  · rw [if_neg e, h]

/-- The fields that name a kind with its programme (R68). -/
theorem programmeNamed_eq {kind : SourceKind} {x : SourceArgs} (h : match kind with
    | .none => x.kind = 0
    | .input i => x.kind = 1 ∧ x.which = (match i with | .in0 => 0 | .in1 => 1)
    | .pitch g => x.kind = 2 ∧ x.which = (match g.axis with | .a => 1 | .b => 2) ∧
        x.direction = (match g.direction with | .forward => 0 | .reverse => 1) ∧ x.origin = g.origin ∧
        x.pitch.toNat = g.pitch ∧ 1 ≤ g.pitch ∧ g.pitch ≤ 16777215 ∧ x.limit = g.limit) : programmeNamed x = some kind := by
  unfold programmeNamed
  cases kind with
  | none => rw [if_pos h]
  | input i =>
    obtain ⟨hkind, hwhich⟩ := h
    rw [hkind, hwhich]
    cases i <;> rfl
  | pitch g =>
    obtain ⟨hkind, hwhich, hdir, horigin, hpitch, low, high, hlimit⟩ := h
    have axis : axisNamed x.which = some g.axis := by rw [hwhich]; cases g.axis <;> rfl
    have direction : directionNamed x.direction = some g.direction := by rw [hdir]; cases g.direction <;> rfl
    have pitch : ¬ (x.pitch = 0 ∨ maxPitch < x.pitch.toNat) := by
      rintro (zero | above)
      · rw [zero] at hpitch
        exact absurd hpitch.symm (by simp; omega)
      · exact absurd above (by rw [hpitch, maxPitch]; omega)
    rw [hkind, if_neg (by decide), if_neg (by decide), if_pos rfl, axis, direction]
    dsimp only
    rw [if_neg pitch, hpitch, horigin, hlimit]

/-- Some kind is named by sound fields. -/
theorem programmeNamed_isSome {x : SourceArgs} (h : x.kind = 0 ∨ (x.kind = 1 ∧ x.which.toNat ≤ 1) ∨
    (x.kind = 2 ∧ (x.which = 1 ∨ x.which = 2) ∧ x.direction.toNat ≤ 1 ∧ x.pitch ≠ 0 ∧ x.pitch.toNat ≤ 16777215)) :
    ∃ kind, programmeNamed x = some kind := by
  have bit {b : Byte} (hb : b.toNat ≤ 1) : b = 0 ∨ b = 1 := by bv_omega
  rcases h with h | ⟨h, hw⟩ | ⟨h, hw, hd, hp, hpitch⟩
  · exact ⟨.none, programmeNamed_eq h⟩
  · rcases bit hw with hw | hw
    · exact ⟨.input .in0, programmeNamed_eq ⟨h, hw⟩⟩
    · exact ⟨.input .in1, programmeNamed_eq ⟨h, hw⟩⟩
  · have low : 1 ≤ x.pitch.toNat := Nat.one_le_iff_ne_zero.mpr fun e => hp (BitVec.eq_of_toNat_eq e)
    obtain ⟨ax, hax⟩ : ∃ ax : Axis, x.which = (match ax with | .a => 1 | .b => 2) := hw.elim (fun e => ⟨.a, e⟩) fun e => ⟨.b, e⟩
    obtain ⟨dir, hdir⟩ : ∃ dir : Direction, x.direction = (match dir with | .forward => 0 | .reverse => 1) :=
      (bit hd).elim (fun e => ⟨.forward, e⟩) fun e => ⟨.reverse, e⟩
    exact ⟨.pitch ⟨ax, x.origin, x.pitch.toNat, dir, x.limit⟩, programmeNamed_eq ⟨h, hax, hdir, rfl, rfl, low, hpitch, rfl⟩⟩

/-- Settles O28. -/
theorem setSource : Obligations.SetSource := by
  refine ⟨fun a k kind x s ⟨_, hr, hk⟩ hm keep within named programme => ?_,
    fun a k j m p x s ⟨_, hr, hk⟩ hm within named sound formed member source move => ?_⟩
  · intro old received number bare new us trig
    refine ⟨_, exec_setSource hr, ?_⟩
    have applied : applySource k kind x (takeCommand a s) = { takeCommand a s with trig := trig } := by
      rw [applySource_eq, raisedNumber_eq]
      cases kind <;> rfl
    have mine : ({ takeCommand a s with trig := trig } : State).source k = new := by simp [State.source, trig]
    have bytes : sourceResults kind x new = u32 number ++ flag new.active ++ u8 0
        ++ leBytes 2 (match kind with | .input _ => us | _ => 0) ++ u32 (new.next.getD 0) := by
      have own : new.number = number := by
        cases kind with
        | none => rfl
        | input i => rfl
        | pitch g => exact (armPitch_cases ..).2.1
      unfold sourceResults
      rw [own]
      rfl
    rw [takeSetSource_applies (s := takeCommand a s) (by rw [named]; exact sourceNamed_ofNat k) (programmeNamed_eq programme)
      (maskWithin_of within) (not_splitsSet (s := takeCommand a s) hm keep), applied, mine, bytes]
    exact ((shows_takeCommand a s).withTrig (f := fun _ => trig) rfl).commandDone (u := { s with trig := trig }) hk (by simp)
  · obtain ⟨kind, hkind⟩ := programmeNamed_isSome sound
    refine ⟨_, exec_setSource hr, ?_⟩
    rw [takeSetSource_conflicts (s := takeCommand a s) (by rw [named]; exact sourceNamed_ofNat k) hkind (maskWithin_of within)
      (splitsSet_moved (s := takeCommand a s) hm formed member source move)]
    exact (shows_takeCommand a s).commandDone (u := s) hk (by simp)

end Sys2Proof.Machine
end

section
/-! PROOFS. A fire at a port in no set, written out: the patterns that skip, the refusals, the bind, and the entry in the hands of the Lens
Controller and the channel (R74, R76 to R80, R89, R91, R98). -/

namespace Sys2Proof.Machine

variable {s v u b : State} {w : List BusEvent} {p : PortId} {x : Port} {y : List CableEvent} {e old : Entry} {f : Fire} {o : Offer}
  {set : Option (SetId × U32)} {r : Addr}

/-! ## A port written out, and its chains -/

/-- The Chain Engine after a record of a chain is taken (R182). -/
abbrev recordTaken (ch : ChainId) (r : Addr) (c : ChainEngine) : ChainEngine :=
  { c with cursors := c.cursors.set (chainIndex ch) (some r), inHand := c.inHand + 1 }

theorem Shows.takesRecord (h : Shows s v u w) (ch : ChainId) (r : Addr) :
    Shows s (takeRecord ch r v) { u with chain := recordTaken ch r u.chain } w :=
  ⟨h.device.withChain (congrArg (recordTaken ch r) h.device.chain :), h.bus, h.mem, h.block, h.cell⟩

theorem Shows.atTake (h : Shows s v (atPort p x y b) w) (g : Taker → Taker) :
    Shows s (Machine.modTake p g v) (atPort p { x with take := g x.take } y b) w :=
  h.atChange fun _ _ e => portView_take e (congrArg g (congrArg Port.take e :))

/-! ## The entry in the hands of the Lens Controller -/

/-- A port's lens state while none of its units is clamped. -/
abbrev unclamped (l : LensState) : LensState := { l with clamped := .replicate 4 false }

theorem startedTargets_off {l : LensState} (c : Channel) (e : Entry) (h : l.chain = false) : startedTargets l c e = [] := by
  unfold startedTargets phaseTargets
  rw [h]
  rfl

theorem startedPhase_off {l : LensState} (c : Channel) (e : Entry) (n : U64) (h : l.chain = false) :
    startedPhase l c e n = { trigger := e.trigger, started := n, targets := [], flags := 0, deadline := none } := by
  have targets : phaseTargets l e = ([], some .none, 0) := by
    unfold phaseTargets
    rw [h]
    exact if_pos rfl
  have parts : (partsToWrite []).isEmpty = true := by decide
  unfold startedPhase
  rw [startedTargets_off c e h, targets, if_pos parts]
  rfl

/-- An entry alone in its port's list waits for its phase: it starts (R91). -/
theorem Shows.onlyAdvances (h : Shows s v (atPort p x y b) w) (hes : x.frame.entries = [e]) (hwait : e.phase = .lensWait) :
    ∃ n, advanceLens p v = advancePhases p n (startPhase p e v) := by
  have waits : inLensHandling e = true := by unfold inLensHandling; rw [hwait]
  refine ⟨(v.port p).frame.entries.length, ?_⟩
  conv_lhs => unfold advanceLens advancePhases
  rw [h.frame_atPort, hes, List.find?_cons_of_pos waits]
  exact if_pos hwait

/-- In lens mode OFF the phase of an entry ends as it starts, and the EXPOSE is queued (R88, R94, R96, R98). -/
theorem Shows.exposesAtOnce (h : Shows s v (atPort p x y b) w) (hes : x.frame.entries = [e]) (hwait : e.phase = .lensWait)
    (hrec : e.lensRec = none) (hoff : x.lens.chain = false) (hphase : x.lens.phase = none) (hheld : x.lens.held = []) :
    Shows s (advanceLens p v) (atPort p { listing [phased e .none 0] x with
      ctl := { x.ctl with exposes := x.ctl.exposes ++ [e.trigger] }, lens := unclamped x.lens } y b) w := by
  obtain ⟨n, started⟩ := h.onlyAdvances hes hwait
  obtain ⟨v', ended, shown⟩ := h.phaseStarts_ended (e := e) (startedPhase_off x.ctl e b.trig.clock hoff)
    (units := .replicate 4 false) (by ext1 i hi; simp [clampedUnits]) rfl
  have finished := (shown.atLens fun l => { l with phase := none }).entryChanges (.single hes)
    fun e => { e with outcome := .none, flags := 0 }
  have told := finished.atLens fun l => { l with held := [] }
  have queued := (told.atCtl fun c => { c with exposes := c.exposes ++ [e.trigger] }).entryChanges
    (e := { e with outcome := .none, flags := 0 }) (.single rfl) fun e => { e with phase := .exposeQueued }
  have exposes := endPhase_exposes (p := p) (e := e) (o := .none) (fixed := (phaseTargets x.lens e).2.1) (late := false)
    (by rw [shown.lens_atPort]) (by rw [shown.frame_atPort]; exact (Picks.single hes).find) (by unfold phaseTargets; rw [hoff]; rfl)
    (fun drops => by rcases drops.1 with h | h <;> cases h)
  have whole : ({ x.lens with phase := none, clamped := .replicate 4 false, held := [] } : LensState) = unclamped x.lens := by
    rw [← hphase, ← hheld]
  rw [started, ended, exposes]
  unfold Machine.phaseOver Machine.lensRecordDone
  dsimp only
  rw [hrec]
  dsimp only
  rw [applyHeld_idle (by rw [finished.lens_atPort]; exact hheld)]
  exact (queued.port_eq (congrArg (fun l => { listing [phased e .none 0] x with
    ctl := { x.ctl with exposes := x.ctl.exposes ++ [e.trigger] }, lens := l }) whole)).noneAdvances
      (List.forall_mem_singleton.mpr nofun) n

/-- An entry behind one in lens handling waits (R91). -/
theorem Shows.waitsBehind (h : Shows s v (atPort p x y b) w) {es : List Entry} (hes : x.frame.entries = old :: es)
    (hold : old.phase = .exposeQueued) : Shows s (advanceLens p v) (atPort p x y b) w := by
  have handled : inLensHandling old = true := by unfold inLensHandling; rw [hold]
  unfold advanceLens advancePhases
  rw [h.frame_atPort, hes, List.find?_cons_of_pos handled]
  dsimp only
  rw [if_neg (by rw [hold]; decide)]
  exact h

/-! ## The bind -/

/-- The port after a bind (R79, R80). -/
abbrev bindingPort (f : Fire) (set : Option (SetId × U32)) (o : Offer) (x : Port) : Port := { x with
  frame := { x.frame with entries := x.frame.entries ++ [boundEntry f set o] }, take := { x.take with takes := x.take.takes + 1 } }

theorem Shows.binds (h : Shows s (bindRecords p f set o v) (atPort p x y b) w) :
    Shows s (bindTake p f set o v) (atPort p (bindingPort f set o x) y b) w := by
  rw [bindTake_eq]
  exact (h.atFrame _).atTake _

/-- The trigger fields and BOUND of an image record, newest first (R79). -/
abbrev bindWrites (f : Fire) (set : Option (SetId × U32)) (r : Addr) (lensRec : Option Addr) : List BusEvent :=
  [.write (r + 4) (leBytes 4 3), .write (r + 0x21) (bindBytes f set lensRec)]

section
variable {buffer : Addr × Nat × Nat × StoreFormat} {l : Addr} {ps : List (UnitId × Int)}

/-- A bind without a lens record. -/
theorem Shows.bindsImage (h : Shows s v u w) (p : PortId) (f : Fire) (set : Option (SetId × U32)) (r : Addr) :
    Shows s (bindRecords p f set ⟨r, buffer, none⟩ v) { u with chain := recordTaken (.image p) r u.chain }
      (bindWrites f set r none ++ w) :=
  ((h.takesRecord (.image p) r).dmaWrite _ _).dmaWrite _ _

/-- A bind with a lens record, up to BOUND (log 34). -/
theorem Shows.bindsLens (h : Shows s v u w) (p : PortId) (f : Fire) (set : Option (SetId × U32)) (r l : Addr) :
    Shows s (bindRecords p f set ⟨r, buffer, some (l, some ps)⟩ v)
      { u with chain := recordTaken (.lens p) l (recordTaken (.image p) r u.chain) }
      (bindWrites f set r (some l) ++ .write (l + 4) (leBytes 4 2) :: w) :=
  ((((h.takesRecord (.image p) r).takesRecord (.lens p) l).dmaWrite _ _).dmaWrite _ _).dmaWrite _ _

end

/-! ## Fires that take nothing -/

/-- A taker after the step of its pattern by a fire (R74, R76). -/
abbrev steppedPort (n : U32) (x : Port) : Port := { x with take := stepPattern n x.take }

theorem Shows.steps (h : Shows s v u w) (p : PortId) (n : U32) :
    Shows s (Machine.modTake p (stepPattern n) v) (atPort p (steppedPort n (u.port p)) u.cable u) w := (h.onePort p).atTake _

theorem fireSingle_eq (p : PortId) (f : Fire) (s : State) : fireSingle p f s =
    if takeBit (s.port p).take then admitSingle p f (modTake p (stepPattern f.number) s)
    else modTake p (fun t => { t with skips := t.skips + 1 }) (modTake p (stepPattern f.number) s) := rfl

/-- A fire that reaches a take attempt (R76). -/
theorem fireSingle_attempts (hbit : takeBit (s.port p).take = true) :
    fireSingle p f s = admitSingle p f (modTake p (stepPattern f.number) s) := by
  rw [fireSingle_eq, if_pos hbit]

section
variable (h : Shows s v u w) (hbit : takeBit (u.port p).take = true)
include h

/-- A skip, or a refusal for want of READY or of room (R76, R77, R78). -/
theorem Shows.firesRefused {t : Taker} (ht : refusedTaker f.number (u.port p) = some t) :
    Shows s (fireSingle p f v) (Machine.modTake p (fun _ => t) u) w := by
  have stepped := h.steps p f.number
  have counted (g : Taker → Taker) : Shows s (Machine.modTake p g (Machine.modTake p (stepPattern f.number) v))
      (Machine.modTake p (fun _ => g (stepPattern f.number (u.port p).take)) u) w := stepped.atTake g
  unfold refusedTaker at ht
  dsimp only at ht
  rw [fireSingle_eq, h.device.portTake p]
  split at ht
  · rename_i skip
    cases ht
    rw [skip, if_neg Bool.false_ne_true]
    exact counted fun t => { t with skips := t.skips + 1 }
  · rename_i take
    rw [if_pos (by simpa using take)]
    unfold admitSingle
    dsimp only
    rw [stepped.ctl_atPort, stepped.frame_atPort]
    split at ht
    · rename_i unready
      cases ht
      rw [unready, Bool.not_false, if_pos rfl]
      exact counted fun t => { t with notReady := t.notReady + 1 }
    · rename_i ready
      rw [if_neg (by simpa using ready)]
      split at ht
      · rename_i full
        cases ht
        rw [if_pos full]
        exact counted fun t => { t with overtrigger := t.overtrigger + 1 }
      · cases ht

include hbit

/-- A take attempt with READY and with room, told by what the chains offer (R77). -/
theorem Shows.admits (hready : (u.port p).ctl.ready = true) (hroom : (u.port p).frame.entries.length < 4) :
    fireSingle p f v = let t := Machine.modTake p (stepPattern f.number) v
      match need (.image p) t with
      | none => refuseNoBuffer p t
      | some a =>
        if !lensSupplied p t then Machine.modTake p (fun t => { t with lensDry := t.lensDry + 1 }) t
        else
          match soundOffer p t with
          | some x => handEntry p (bindTake p f none x t)
          | none => refuseNoBuffer p (failImageAtBind p a (takeRecord (.image p) a t)) := by
  have stepped := h.steps p f.number
  rw [fireSingle_attempts (by rw [h.device.portTake p]; exact hbit)]
  unfold admitSingle
  dsimp only
  rw [stepped.ctl_atPort, stepped.frame_atPort, hready, Bool.not_true, if_neg Bool.false_ne_true]
  exact if_neg (Nat.not_le.mpr hroom)

end

/-! ## A take at once -/

theorem need_modTake (ch : ChainId) (g : Taker → Taker) (s : State) : need ch (modTake p g s) = need ch s := rfl

theorem readImageRecord_modTake (g : Taker → Taker) (s : State) : readImageRecord r (modTake p g s) = readImageRecord r s := rfl

theorem lensOffered_off (h : (s.port p).lens.chain = false) : lensOffered p s = none := by
  unfold lensOffered
  rw [h]
  rfl

theorem lensSupplied_off (h : (s.port p).lens.chain = false) : lensSupplied p s = true := by
  unfold lensSupplied
  rw [h]
  rfl

theorem soundOffer_eq {buffer : Addr × Nat × Nat × StoreFormat} (hr : need (.image p) s = some r)
    (hb : readImageRecord r s = some buffer) :
    soundOffer p s = some ⟨r, buffer, (lensOffered p s).map fun l => (l, readLensRecord l s)⟩ := by
  unfold soundOffer
  rw [hr, Option.bind_some, hb]
  rfl

/-- The take of a port in lens mode OFF with no older entry (R77, R79, R98). -/
theorem Shows.takesAtOnce (h : Shows s v u w) {buffer : Addr × Nat × Nat × StoreFormat} (ht : TakesAtOnce p r buffer v)
    (hA : f.axisA = u.trig.axisA.position) (hB : f.axisB = u.trig.axisB.position) (hT : f.time = u.trig.clock) :
    Shows s (fireSingle p f v) (takenAtOnce f.source f.number p r buffer u) (boundWrites f.source f.number r u ++ w) := by
  obtain ⟨bit, ready, empty, noPhase, noTable, lensOff, noExpose, offered, sound⟩ := ht
  have lens : (v.port p).lens = (u.port p).lens := h.device.portLens p
  have ctl : (v.port p).ctl = (u.port p).ctl := h.device.portCtl p
  have frame : (v.port p).frame = (u.port p).frame := h.device.portFrame p
  rw [h.device.portTake p] at bit
  rw [ctl] at ready noExpose
  rw [frame] at empty
  rw [lens] at noPhase noTable
  have off : ((Machine.modTake p (stepPattern f.number) v).port p).lens.chain = false := by rw [modTake_port_lens]; exact lensOff
  rw [h.admits bit ready (by rw [empty]; decide)]
  dsimp only
  rw [need_modTake, offered]
  dsimp only
  rw [lensSupplied_off off, Bool.not_true, if_neg Bool.false_ne_true,
    soundOffer_eq (s := Machine.modTake p (stepPattern f.number) v) offered sound, lensOffered_off off, Option.map_none]
  have bound := ((h.steps p f.number).bindsImage (buffer := buffer) p f none r).binds (x := steppedPort f.number (u.port p)) (y := u.cable)
    (b := { u with chain := recordTaken (.image p) r u.chain })
  have exposed := bound.exposesAtOnce (e := boundEntry f none ⟨r, buffer, none⟩) 
    (congrArg (· ++ [boundEntry f none ⟨r, buffer, none⟩]) empty) rfl rfl (lens ▸ lensOff) noPhase noTable
  unfold handEntry
  have writes : bindWrites f none r none = boundWrites f.source f.number r u := by
    unfold bindWrites bindBytes boundWrites
    rw [hA, hB, hT]
    rfl
  rw [← writes]
  by_cases idle : (u.port p).ctl.state = .idle
  · have none := noExpose idle
    have sent := exposed.chooses_expose (n := f.number) (rest := []) idle (by rw [none]; rfl)
    refine sent.to ?_
    unfold takenAtOnce
    rw [decide_eq_true idle, ← hA, ← hB, ← hT, ← none]
    exact .refl _
  · refine (exposed.chooses_busy idle).to ?_
    unfold takenAtOnce
    rw [decide_eq_false idle, ← hA, ← hB, ← hT]
    exact .refl _

end Sys2Proof.Machine
end

section
/-! PROOFS. Fires of sources, counts of an axis (R64, R71) and edges of an input (R66, R72). -/

namespace Sys2Proof.Machine

variable {s v u t : State} {w : List BusEvent} {p : PortId} {k : SourceId} {g : PitchProgramme} {r : Addr}
  {b : Addr × Nat × Nat × StoreFormat}

/-! ## Fires -/

theorem maskPorts_twoPow (p : PortId) : maskPorts (BitVec.twoPow 8 p.val) = [p] := by revert p; decide

/-- What a fire of a source carries to its ports (R74). -/
def fireOf (k : SourceId) (s : State) : Fire where
  source := k
  number := (s.source k).number + 1
  axisA := s.trig.axisA.position
  axisB := s.trig.axisB.position
  time := s.trig.clock

theorem fire_eq (k : SourceId) (s : State) :
    fire k s = forPorts (maskPorts (s.source k).mask) (firePort (fireOf k s)) (modSource k countFire s) := by
  have number : ((modSource k countFire s).source k).number = (s.source k).number + 1 := by
    rw [modSource_source, if_pos rfl]
    exact (countFire_cases _).2.1
  unfold fire fireOf
  dsimp only
  rw [number]
  rfl

/-- A fire of a source that drives no port (R74). -/
theorem fire_unheard (h : (s.source k).mask = 0) : fire k s = modSource k countFire s := by
  rw [fire_eq, h]
  rfl

/-- A fire of a source that drives one port, which is in no set (R74). -/
theorem fire_single (h : (s.source k).mask = BitVec.twoPow 8 p.val) (hset : s.setOf p = none) :
    fire k s = fireSingle p (fireOf k s) (modSource k countFire s) := by
  have same : (modSource k countFire s).setOf p = none := hset
  rw [fire_eq, h, maskPorts_twoPow]
  show firePort (fireOf k s) p (modSource k countFire s) = _
  unfold firePort
  rw [same]

/-- The sources after a fire of one of them. -/
theorem fire_source_other {j : SourceId} (h : j ≠ k) (s : State) : (fire k s).source j = s.source j := by
  have kept : FireKeeps (fun _ => True) (modSource k countFire s) (fire k s) := fireKeeps_firePorts _ _ _
  rw [kept.source, modSource_source, if_neg h]

/-! ## One after the other at every source -/

/-- Every source changes by itself. -/
theorem foldl_sources {act : SourceId → State → State} {f : Source → Source} {quiet : Source → Prop}
    (hact : ∀ k t, t.running = s.running → quiet (t.source k) → act k t = modSource k f t) (hf : ∀ y, quiet y → quiet (f y))
    (hs : ∀ k, quiet (s.source k)) :
    allSources.foldl (fun t k => act k t) s = { s with trig := { s.trig with sources := s.trig.sources.map f } } := by
  have each : ∀ (l : List SourceId) (t : State), t.running = s.running → (∀ k, quiet (t.source k)) →
      l.foldl (fun t k => act k t) t = l.foldl (fun t k => modSource k f t) t := by
    intro l
    induction l with
    | nil => exact fun _ _ _ => rfl
    | cons k l ih =>
      intro t hr hq
      rw [List.foldl_cons, List.foldl_cons, hact k t hr (hq k)]
      refine ih _ hr fun j => ?_
      rw [modSource_source]
      split
      · exact hf _ (hq k)
      · exact hq j
  rw [each _ s rfl hs, modSources_all]

/-- One source acts, and the others do not. -/
theorem foldl_source {act : SourceId → State → State} (hother : ∀ j t, j ≠ k → t.source j = s.source j → act j t = t)
    (hk : ∀ j, j ≠ k → (act k s).source j = s.source j) : allSources.foldl (fun t j => act j t) s = act k s := by
  have after : ∀ l : List SourceId, k ∉ l → ∀ t, (∀ j, j ≠ k → t.source j = s.source j) → l.foldl (fun t j => act j t) t = t := by
    intro l
    induction l with
    | nil => exact fun _ _ _ => rfl
    | cons j l ih =>
      intro hl t ht
      obtain ⟨hj, hl⟩ := not_or.mp (List.mem_cons.not.mp hl)
      rw [List.foldl_cons, hother j t (Ne.symm hj) (ht j (Ne.symm hj))]
      exact ih hl t ht
  have before : ∀ l : List SourceId, l.Nodup → k ∈ l → l.foldl (fun t j => act j t) s = act k s := by
    intro l
    induction l with
    | nil => exact fun _ h => absurd h List.not_mem_nil
    | cons j l ih =>
      intro hl hmem
      obtain ⟨hj, hl⟩ := List.nodup_cons.mp hl
      rcases eq_or_ne j k with rfl | hne
      · exact after l hj _ hk
      · rw [List.foldl_cons, hother j s hne rfl]
        exact ih hl ((List.mem_cons.mp hmem).resolve_left hne.symm)
  exact before allSources (by decide) (mem_allSources k)

/-- A change that leaves all sources but one alone. -/
theorem map_eq_set {l : Vector Source 4} {f : Source → Source} (h : ∀ j : SourceId, j ≠ k → f l[j] = l[j]) :
    l.map f = l.set k (f l[k]) := by
  ext1 i hi
  rw [Vector.getElem_map, Vector.getElem_set]
  split
  · rename_i e
    subst e
    rfl
  · rename_i hne
    exact h ⟨i, hi⟩ fun e => hne (congrArg Fin.val e).symm

/-! ## Counts of an axis -/

/-- Has a count in a direction reached the next point of a PITCH source (R71)? -/
abbrev Passes (ax : Axis) (up : Bool) (pos : U32) (y : Source) (g : PitchProgramme) : Prop :=
  y.kind = .pitch g ∧ g.axis = ax ∧ y.active = true ∧ y.next = some pos ∧ decide (g.direction = .forward) = up

/-- A source after a count of an axis, but for what its fire does to ports (R71). -/
def countedSource (running up : Bool) (ax : Axis) (pos : U32) (y : Source) : Source :=
  match y.kind with
  | .pitch g =>
    if g.axis = ax ∧ y.active = true ∧ y.next = some pos ∧ decide (g.direction = .forward) = up then
      movePoint g (if running then countFire y else y)
    else y
  | _ => y

section
variable {ax : Axis} {up running : Bool} {pos : U32} {y : Source}

theorem countedSource_passing (h : Passes ax up pos y g) :
    countedSource running up ax pos y = movePoint g (if running then countFire y else y) := by
  obtain ⟨kind, cond⟩ := h
  unfold countedSource
  rw [kind]
  exact if_pos cond

theorem countedSource_idle (h : ∀ g, ¬ Passes ax up pos y g) : countedSource running up ax pos y = y := by
  unfold countedSource
  split
  · rename_i g kind
    exact if_neg fun cond => h g ⟨kind, cond⟩
  · rfl

theorem countedSource_mask : (countedSource running up ax pos y).mask = y.mask := by
  by_cases h : ∃ g, Passes ax up pos y g
  · obtain ⟨g, h⟩ := h
    rw [countedSource_passing h, (movePoint_cases g _).1]
    split
    · exact (countFire_cases y).1
    · rfl
  · rw [countedSource_idle fun g hg => h ⟨g, hg⟩]

theorem pitchCount_passing (h : Passes ax up pos (s.source k) g) :
    pitchCount ax up pos k s = modSource k (movePoint g) (if s.running then fire k s else s) := by
  obtain ⟨kind, cond⟩ := h
  unfold pitchCount
  dsimp only
  rw [kind]
  exact if_pos cond

theorem pitchCount_idle (h : ∀ g, ¬ Passes ax up pos (s.source k) g) : pitchCount ax up pos k s = s := by
  unfold pitchCount
  dsimp only
  split
  · rename_i g kind
    exact if_neg fun cond => h g ⟨kind, cond⟩
  · rfl

theorem modSource_twice (k : SourceId) (f h : Source → Source) (s : State) :
    modSource k h (modSource k f s) = modSource k (fun x => h (f x)) s := by
  unfold modSource modTrig
  simp

/-- A count at a source whose fire, if it makes one, reaches no port. -/
theorem pitchCount_quiet (hr : t.running = running)
    (hmask : running = true → (∃ g, Passes ax up pos (t.source k) g) → (t.source k).mask = 0) :
    pitchCount ax up pos k t = modSource k (countedSource running up ax pos) t := by
  by_cases h : ∃ g, Passes ax up pos (t.source k) g
  · obtain ⟨g, h⟩ := h
    have own : modSource k (countedSource running up ax pos) t =
        modSource k (fun x => movePoint g (if running then countFire x else x)) t := by
      unfold modSource modTrig
      dsimp only
      rw [show countedSource running up ax pos t.trig.sources[k] = _ from countedSource_passing h]
    rw [pitchCount_passing h, hr, own]
    cases running with
    | false => rfl
    | true =>
      rw [if_pos rfl, fire_unheard (hmask rfl ⟨g, h⟩), modSource_twice]
      rfl
  · rw [pitchCount_idle fun g hg => h ⟨g, hg⟩, modSource_of_eq (countedSource_idle fun g hg => h ⟨g, hg⟩)]

/-- A point moved on, told by its range (R71). -/
theorem movePoint_eq {z : Source} (g : PitchProgramme) (h : z.next = some pos) :
    let n : Int := match g.direction with | .forward => pos.toInt + g.pitch | .reverse => pos.toInt - g.pitch
    movePoint g z = if n < -2147483648 ∨ 2147483647 < n then { z with active := false, next := none }
      else { z with next := some (BitVec.ofInt 32 n) } := by
  intro n
  have moved : movePoint g z = (pointInRange n).elim (idleSource z) fun m => { z with next := some m } := by
    unfold movePoint
    rw [h]
    show (match pointInRange n with | some m => _ | none => _) = _
    cases pointInRange n <;> rfl
  rw [moved]
  by_cases range : n < -2147483648 ∨ 2147483647 < n
  · rw [if_pos range, pointInRange_none range]
    rfl
  · rw [if_neg range, (pointInRange_some range).1]
    rfl

theorem countFire_pitch (h : y.kind = .pitch g) : countFire y =
    if y.number + 1 = 0xFFFFFFFF ∨ (g.limit ≠ 0 ∧ g.limit.toNat ≤ (y.made + 1).toNat) then
      { y with number := y.number + 1, made := y.made + 1, active := false, next := none }
    else { y with number := y.number + 1, made := y.made + 1 } := by
  unfold countFire
  dsimp only
  rw [h]
  simp only [Bool.or_eq_true, decide_eq_true_eq, limitReached_iff]
  rfl

/-- A source whose point is reached, after its fire and the move of its point (R67, R71). -/
theorem counted_eq (h : Passes ax up pos y g) :
    let z : Source := if running then { y with number := y.number + 1, made := y.made + 1 } else y
    let n : Int := match g.direction with | .forward => pos.toInt + g.pitch | .reverse => pos.toInt - g.pitch
    movePoint g (if running then countFire y else y) =
      if (running = true ∧ (z.number = 0xFFFFFFFF ∨ (g.limit ≠ 0 ∧ g.limit.toNat ≤ z.made.toNat))) ∨
          n < -2147483648 ∨ 2147483647 < n then { z with active := false, next := none }
      else { z with next := some (BitVec.ofInt 32 n) } := by
  obtain ⟨kind, -, -, next, -⟩ := h
  intro z n
  cases running with
  | false =>
    have idle : ¬ (false = true ∧ (z.number = 0xFFFFFFFF ∨ (g.limit ≠ 0 ∧ g.limit.toNat ≤ z.made.toNat))) := fun h => nomatch h.1
    exact (movePoint_eq g next).trans (if_congr (or_iff_right idle).symm rfl rfl)
  | true =>
    rw [if_pos rfl, countFire_pitch kind]
    by_cases spent : y.number + 1 = 0xFFFFFFFF ∨ (g.limit ≠ 0 ∧ g.limit.toNat ≤ (y.made + 1).toNat)
    · rw [if_pos spent, if_pos (.inl ⟨rfl, spent⟩)]
      rfl
    · have live : ¬ (true = true ∧ (z.number = 0xFFFFFFFF ∨ (g.limit ≠ 0 ∧ g.limit.toNat ≤ z.made.toNat))) := fun h => spent h.2
      rw [if_neg spent]
      exact (movePoint_eq (z := { y with number := y.number + 1, made := y.made + 1 }) g next).trans
        (if_congr (or_iff_right live).symm rfl rfl)

end

/-- The phase of the two channels of an axis in their cycle (R64). -/
def channelPhase (c1 c2 : Bool) : Nat := match c1, c2 with
  | false, false => 0 | true, false => 1 | true, true => 2 | false, true => 3

/-- A count is a turn of the cycle by one, up or down (R64). -/
theorem quadrature_turn (c1 c2 n1 n2 : Bool) : let turn := (channelPhase n1 n2 + 4 - channelPhase c1 c2) % 4
    (turn = 1 ∧ quadrature c1 c2 n1 n2 = some true) ∨ (turn = 3 ∧ quadrature c1 c2 n1 n2 = some false) ∨
      ((turn ≠ 1 ∧ turn ≠ 3) ∧ quadrature c1 c2 n1 n2 = none) := by
  revert c1 c2 n1 n2
  decide

/-- An axis after a sample of its channels (R64). -/
abbrev movedAxis (ax : Axis) (x : AxisState) (c : TriggerCell) : TriggerCell := match ax with
  | .a => { c with axisA := x }
  | .b => { c with axisB := x }

theorem setAxis_eq (ax : Axis) (x : AxisState) (s : State) : setAxis ax x s = { s with trig := movedAxis ax x s.trig } := by
  cases ax <;> rfl

theorem movedAxis_sources (ax : Axis) (x : AxisState) (c : TriggerCell) : (movedAxis ax x c).sources = c.sources := by
  cases ax <;> rfl

theorem shows_trig (s : State) (c : TriggerCell) : Shows s { s with trig := c } { s with trig := c } [] :=
  (Shows.refl s).withTrig (f := fun _ => c) rfl

theorem TakesAtOnce.withTrig (h : TakesAtOnce p r b s) (c : TriggerCell) : TakesAtOnce p r b { s with trig := c } :=
  ⟨h.bit, h.ready, h.empty, h.noPhase, h.noTable, h.lensOff, h.noExpose, h.offered, h.sound⟩

/-- A fire of one source at one port, from a state that differs in the clock, the axes or the inputs alone; a last change of the source
may follow. -/
theorem fire_at_port {c d : TriggerCell} (hc : c.sources = s.trig.sources) (hmask : (s.source k).mask = BitVec.twoPow 8 p.val)
    (hset : s.setOf p = none) {f : Source → Source} (hd : d = { c with sources := s.trig.sources.set k (f (countFire (s.source k))) }) :
    let n := (s.source k).number + 1
    (∀ x, refusedTaker n (s.port p) = some x →
      Shows s (modSource k f (fire k { s with trig := c })) (modTake p (fun _ => x) { s with trig := d }) []) ∧
    (∀ r b, TakesAtOnce p r b s → Shows s (modSource k f (fire k { s with trig := c }))
      (takenAtOnce k n p r b { s with trig := d }) (boundWrites k n r { s with trig := d })) := by
  intro n
  have fired := shows_trig s { c with sources := c.sources.set k (countFire c.sources[k]) }
  have source : ({ s with trig := c } : State).source k = s.source k := by unfold State.source; rw [hc]
  have sources : (c.sources.set k (countFire c.sources[k])).set k (f (c.sources.set k (countFire c.sources[k]))[k]) =
      s.trig.sources.set k (f (countFire (s.source k))) := by simp [hc, State.source]
  have number : (fireOf k { s with trig := c }).number = n := by unfold fireOf; rw [source]
  subst hd
  rw [← sources, fire_single (s := { s with trig := c }) (by rw [source]; exact hmask) hset]
  refine ⟨fun x hx => ?_, fun r b ht => ?_⟩
  · exact (fired.firesRefused (f := fireOf k { s with trig := c }) (by rw [number]; exact hx)).withTrig rfl
  · have taken := fired.takesAtOnce (f := fireOf k { s with trig := c }) (ht.withTrig _) rfl rfl rfl
    rw [List.append_nil, number] at taken
    exact taken.withTrig rfl

end Sys2Proof.Machine
end

section
/-! PROOFS. Counts of an axis and edges of an input, put together (R64, R66, R71, R72). -/

namespace Sys2Proof.Machine

variable {s : State} {p : PortId} {k : SourceId} {c : TriggerCell}

/-! ## Axes -/

section
variable {ax : Axis} {ch1 ch2 up : Bool}

theorem sampleAxis_none (h : quadrature (axisState ax s.trig).ch1 (axisState ax s.trig).ch2 ch1 ch2 = none) :
    sampleAxis ax ch1 ch2 s = { s with trig := movedAxis ax ⟨(axisState ax s.trig).position, ch1, ch2⟩ s.trig } := by
  unfold sampleAxis
  dsimp only
  rw [h]
  exact setAxis_eq ax _ s

theorem sampleAxis_some {pos : U32} (h : quadrature (axisState ax s.trig).ch1 (axisState ax s.trig).ch2 ch1 ch2 = some up)
    (hpos : pos = if up then (axisState ax s.trig).position + 1 else (axisState ax s.trig).position - 1) : sampleAxis ax ch1 ch2 s =
      allSources.foldl (fun t k => pitchCount ax up pos k t) { s with trig := movedAxis ax ⟨pos, ch1, ch2⟩ s.trig } := by
  unfold sampleAxis
  dsimp only
  rw [h, ← setAxis_eq, hpos]

/-- A count whose fires reach no port. -/
theorem foldl_pitchCount_quiet {pos : U32} (hc : c.sources = s.trig.sources)
    (hquiet : s.running = true → ∀ k g, Passes ax up pos (s.source k) g → (s.source k).mask = 0) :
    allSources.foldl (fun t k => pitchCount ax up pos k t) { s with trig := c } =
      { s with trig := { c with sources := s.trig.sources.map (countedSource s.running up ax pos) } } := by
  rw [← hc]
  refine foldl_sources (s := { s with trig := c })
    (quiet := fun y => s.running = true → (∃ g, Passes ax up pos y g) → y.mask = 0) (fun k t hr hq => pitchCount_quiet hr hq)
    (fun y hy hr hp => ?_) fun k hr ⟨g, hg⟩ => ?_
  · rw [countedSource_mask]
    by_cases h : ∃ g, Passes ax up pos y g
    · exact hy hr h
    · rw [countedSource_idle fun g hg => h ⟨g, hg⟩] at hp
      exact hy hr hp
  · have same : ({ s with trig := c } : State).source k = s.source k := by unfold State.source; rw [hc]
    rw [same] at hg ⊢
    exact hquiet hr k g hg

/-- A count at which one source fires. -/
theorem foldl_pitchCount_single {pos : U32} {g : PitchProgramme} (hc : c.sources = s.trig.sources) (hr : s.running = true)
    (hk : Passes ax up pos (s.source k) g) (hothers : ∀ j g, j ≠ k → ¬ Passes ax up pos (s.source j) g) :
    allSources.foldl (fun t k => pitchCount ax up pos k t) { s with trig := c } =
      modSource k (movePoint g) (fire k { s with trig := c }) := by
  have same : ∀ j, ({ s with trig := c } : State).source j = s.source j := fun j => by unfold State.source; rw [hc]
  have fires : pitchCount ax up pos k { s with trig := c } = modSource k (movePoint g) (fire k { s with trig := c }) := by
    rw [pitchCount_passing (s := { s with trig := c }) (by rw [same]; exact hk)]
    exact congrArg _ (if_pos hr)
  rw [foldl_source (k := k) (s := { s with trig := c }) (fun j t hj ht => pitchCount_idle fun g => ?_) fun j hj => ?_, fires]
  · rw [ht, same]
    exact hothers j g hj
  · rw [fires, modSource_source, if_neg hj, fire_source_other hj]

end

/-- Settles O53: the sources that the count passes change by themselves, and the fire of one of them is a fire at a port. -/
theorem axisCount : Obligations.AxisCount := by
  intro ax ch1 ch2 s _ x phase turn pos moved passes stepped after
  have sources : moved.sources = s.trig.sources := movedAxis_sources ax ⟨pos, ch1, ch2⟩ s.trig
  have counts : ∀ up : Bool, quadrature x.ch1 x.ch2 ch1 ch2 = some up → pos = (if up then x.position + 1 else x.position - 1) →
      (∀ g : PitchProgramme, turn = (match g.direction with | .forward => 1 | .reverse => 3) ↔ decide (g.direction = .forward) = up) →
      (sampleAxis ax ch1 ch2 s = allSources.foldl (fun t k => pitchCount ax up pos k t) { s with trig := moved }) ∧
      (∀ y g, passes y g ↔ Passes ax up pos y g) ∧ ∀ y, stepped y = countedSource s.running up ax pos y := by
    intro up hq hpos hturn
    have same : ∀ y g, passes y g ↔ Passes ax up pos y g := fun y g =>
      and_congr_right fun _ => and_congr_right fun _ => and_congr_right fun _ => and_congr_right fun _ => hturn g
    refine ⟨sampleAxis_some hq hpos, same, fun y => ?_⟩
    by_cases h : ∃ g, Passes ax up pos y g
    · obtain ⟨g, h⟩ := h
      have cond := (same y g).mpr h
      rw [countedSource_passing h, counted_eq h]
      simp only [stepped]
      split
      · rename_i g' kind
        cases SourceKind.pitch.inj (h.1.symm.trans kind)
        exact if_pos cond.2
      · rename_i other
        exact absurd h.1 (other g)
    · rw [countedSource_idle fun g hg => h ⟨g, hg⟩]
      simp only [stepped]
      split
      · rename_i g kind
        exact if_neg fun cond => h ⟨g, (same y g).mp ⟨kind, cond⟩⟩
      · rfl
  have turned : (∃ up : Bool, quadrature x.ch1 x.ch2 ch1 ch2 = some up ∧ pos = (if up then x.position + 1 else x.position - 1) ∧
      ∀ g : PitchProgramme, turn = (match g.direction with | .forward => 1 | .reverse => 3) ↔ decide (g.direction = .forward) = up) ∨
      ((turn ≠ 1 ∧ turn ≠ 3) ∧ quadrature x.ch1 x.ch2 ch1 ch2 = none) := by
    rcases quadrature_turn x.ch1 x.ch2 ch1 ch2 with ⟨ht, hq⟩ | ⟨ht, hq⟩ | idle
    · have ht : turn = 1 := ht
      refine .inl ⟨true, hq, if_pos ht, fun g => ?_⟩
      rw [ht]
      cases g.direction <;> decide
    · have ht : turn = 3 := ht
      refine .inl ⟨false, hq, by simp only [pos, ht]; rfl, fun g => ?_⟩
      rw [ht]
      cases g.direction <;> decide
    · exact .inr idle
  rcases turned with ⟨up, hq, hpos, hturn⟩ | ⟨⟨h1, h3⟩, hq⟩
  · obtain ⟨sampled, same, step⟩ := counts up hq hpos hturn
    have exec_i : exec (.axisCount ax ch1 ch2) s = .next (flushMirrors (sampleAxis ax ch1 ch2 s)) := rfl
    rw [exec_i, sampled]
    refine ⟨fun quiet => ?_, fun k g p hr pass hmask hset others => ?_⟩
    · have all : after = { moved with sources := s.trig.sources.map (countedSource s.running up ax pos) } := by
        rw [← funext step]
      rw [foldl_pitchCount_quiet sources fun hr k g hg => quiet hr k g ((same _ g).mpr hg), ← all]
      exact ⟨_, rfl, (shows_trig s after).ends⟩
    · intro n u
      have passing := (same _ g).mp pass
      have one : after = { moved with sources := s.trig.sources.set k (movePoint g (countFire (s.source k))) } := by
        have others (j : SourceId) (hj : j ≠ k) : stepped s.trig.sources[j] = s.trig.sources[j] :=
          (step _).trans (countedSource_idle fun g hg => others j g hj ((same _ g).mpr hg))
        have own : stepped s.trig.sources[k] = movePoint g (countFire (s.source k)) :=
          (step _).trans ((countedSource_passing passing).trans (by rw [hr]; rfl))
        show ({ moved with sources := s.trig.sources.map stepped } : TriggerCell) = _
        rw [map_eq_set others, own]
      rw [foldl_pitchCount_single sources hr passing fun j g hj hg => others j g hj ((same _ g).mpr hg)]
      obtain ⟨refuses, takes⟩ := fire_at_port sources hmask hset one
      exact ⟨fun x hx => ⟨_, rfl, (refuses x hx).ends⟩, fun r b ht => ⟨_, rfl, (takes r b ht).ends⟩⟩
  · have none : ∀ y g, ¬ passes y g := by
      rintro y g ⟨-, -, -, -, h⟩
      cases hd : g.direction <;> rw [hd] at h
      · exact h1 h
      · exact h3 h
    refine ⟨fun _ => ?_, fun k g _ _ pass => absurd pass (none _ g)⟩
    have still : pos = x.position := (if_neg h1).trans (if_neg h3)
    have idle : ∀ y, stepped y = y := by
      intro y
      simp only [stepped]
      split
      · rename_i g kind
        exact if_neg fun cond => none y g ⟨kind, cond⟩
      · rfl
    have all : after = moved := by
      show ({ moved with sources := s.trig.sources.map stepped } : TriggerCell) = moved
      rw [funext idle, Vector.map_id', ← sources]
    rw [all]
    refine ⟨_, rfl, ?_⟩
    have sampled : sampleAxis ax ch1 ch2 s = { s with trig := movedAxis ax ⟨x.position, ch1, ch2⟩ s.trig } := sampleAxis_none hq
    have same : moved = movedAxis ax ⟨x.position, ch1, ch2⟩ s.trig := congrArg (fun n => movedAxis ax ⟨n, ch1, ch2⟩ s.trig) still
    rw [sampled, ← same]
    exact (shows_trig s moved).ends

/-! ## Inputs -/

section
variable {i : Input}

/-- A source after a counted edge of an input, but for what its fire does to ports (R72). -/
def edgeSource (i : Input) (y : Source) : Source := if y.kind = .input i ∧ y.active = true then countFire y else y

theorem edgeSource_eq (y : Source) : edgeSource i y = if y.kind = .input i ∧ y.active = true then
    (if y.number + 1 = 0xFFFFFFFF then { y with number := y.number + 1, made := y.made + 1, active := false, next := none }
      else { y with number := y.number + 1, made := y.made + 1 })
    else y := by
  unfold edgeSource
  by_cases h : y.kind = .input i ∧ y.active = true
  · rw [if_pos h, if_pos h]
    unfold countFire
    dsimp only
    rw [h.1]
    simp only [Bool.or_false, decide_eq_true_eq]
    rfl
  · rw [if_neg h, if_neg h]

theorem edgeSource_idle {y : Source} (h : ¬ (y.kind = .input i ∧ y.active = true)) : edgeSource i y = y := if_neg h

theorem edgeAt_fires (h : (s.source k).kind = .input i ∧ (s.source k).active = true) : edgeAt i k s = fire k s := if_pos h

theorem edgeAt_idle (h : ¬ ((s.source k).kind = .input i ∧ (s.source k).active = true)) : edgeAt i k s = s := if_neg h

/-- A counted edge at a source whose fire, if it makes one, reaches no port. -/
theorem edgeAt_quiet (hmask : (s.source k).kind = .input i → (s.source k).active = true → (s.source k).mask = 0) :
    edgeAt i k s = modSource k (edgeSource i) s := by
  by_cases h : (s.source k).kind = .input i ∧ (s.source k).active = true
  · have own : modSource k (edgeSource i) s = modSource k countFire s := by
      unfold modSource modTrig
      dsimp only
      rw [show edgeSource i s.trig.sources[k] = _ from if_pos h]
    rw [own, ← fire_unheard (hmask h.1 h.2), edgeAt_fires h]
  · rw [modSource_of_eq (edgeSource_idle h), edgeAt_idle h]

/-- A counted edge whose fires reach no port; it is lost while the cell is not RUNNING. -/
theorem countEdge_quiet (hc : c.sources = s.trig.sources) (hquiet : s.running = true → ∀ k : SourceId, (s.source k).kind = .input i →
      (s.source k).active = true → (s.source k).mask = 0) : countEdge i { s with trig := c } =
    { s with trig := if s.running then { c with sources := c.sources.map (edgeSource i) } else c } := by
  have same : ∀ j, ({ s with trig := c } : State).source j = s.source j := fun j => by unfold State.source; rw [hc]
  cases hr : s.running with
  | false => exact if_neg (by rw [show ({ s with trig := c } : State).running = s.running from rfl, hr]; decide)
  | true =>
    refine (if_pos hr).trans ?_
    refine foldl_sources (s := { s with trig := c })
      (quiet := fun y => y.kind = .input i → y.active = true → y.mask = 0) (fun k t _ hq => edgeAt_quiet hq)
      (fun y hy hk ha => ?_) fun k => by rw [same]; exact hquiet hr k
    unfold edgeSource at hk ha ⊢
    split at hk
    · rename_i h
      rw [if_pos h, (countFire_cases y).1]
      exact hy h.1 h.2
    · rename_i h
      rw [if_neg h] at ha ⊢
      exact hy hk ha

/-- A counted edge at which one source fires. -/
theorem countEdge_single (hc : c.sources = s.trig.sources) (hr : s.running = true) (hk : (s.source k).kind = .input i)
    (ha : (s.source k).active = true) (hothers : ∀ j, j ≠ k → (s.source j).kind = .input i → (s.source j).active = false) :
    countEdge i { s with trig := c } = fire k { s with trig := c } := by
  have same : ∀ j, ({ s with trig := c } : State).source j = s.source j := fun j => by unfold State.source; rw [hc]
  have fires : edgeAt i k { s with trig := c } = fire k { s with trig := c } := edgeAt_fires (by rw [same]; exact ⟨hk, ha⟩)
  refine (if_pos hr).trans ?_
  rw [foldl_source (k := k) (s := { s with trig := c }) (fun j t hj ht => edgeAt_idle ?_) fun j hj => ?_, fires]
  · rw [ht, same]
    rintro ⟨kind, active⟩
    rw [hothers j hj kind] at active
    cases active
  · rw [fires, fire_source_other hj]

/-- The Trigger Sequencer with another debouncer of an input. -/
abbrev withDebouncer (i : Input) (d : Debouncer) (c : TriggerCell) : TriggerCell := match i with
  | .in0 => { c with in0 := d }
  | .in1 => { c with in1 := d }

theorem modDebouncer_eq (i : Input) (f : Debouncer → Debouncer) (s : State) :
    modDebouncer i f s = { s with trig := withDebouncer i (f (debouncer i s.trig)) s.trig } := by cases i <;> rfl

theorem withDebouncer_sources (i : Input) (d : Debouncer) (c : TriggerCell) : (withDebouncer i d c).sources = c.sources := by
  cases i <;> rfl

theorem lineRises_counts (h : (debouncer i s.trig).state = .low) (h0 : (debouncer i s.trig).setting = 0) : lineRises i s =
    countEdge i { s with trig := withDebouncer i { debouncer i s.trig with state := .high } s.trig } := by
  rw [← modDebouncer_eq i (fun d => { d with state := .high })]
  exact (if_pos h).trans (if_pos h0)

theorem lineRises_starts (h : (debouncer i s.trig).state = .low) (h0 : (debouncer i s.trig).setting ≠ 0) : lineRises i s =
    { s with trig := withDebouncer i { debouncer i s.trig with
      state := .rising, timer := some (debouncer i s.trig).setting } s.trig } := by
  rw [← modDebouncer_eq i (fun d => { d with state := .rising, timer := some d.setting })]
  exact (if_pos h).trans (if_neg h0)

theorem debounceExpires_counts (h : (debouncer i s.trig).state = .rising) : debounceExpires i s =
    countEdge i { s with trig := withDebouncer i { debouncer i s.trig with state := .high, timer := none } s.trig } := by
  rw [← modDebouncer_eq i (fun d => { d with state := .high, timer := none })]
  exact if_pos h

end

/-- Settles O54: the sources on the input change by themselves, and the fire of one of them is a fire at a port. -/
theorem inputs : Obligations.Inputs := by
  intro i s _ d put fired edge alone
  have sources (d : Debouncer) : (put d s.trig).sources = s.trig.sources := withDebouncer_sources i d s.trig
  have counted (d : Debouncer) (h : alone) : countEdge i { s with trig := put d s.trig } = { s with trig := edge (put d s.trig) } := by
    rw [countEdge_quiet (sources d) h, show edgeSource i = fired from funext edgeSource_eq]
  have rises : d.state = .low → d.setting = 0 →
      exec (.inputRise i) s = .next (flushMirrors (countEdge i { s with trig := put { d with state := .high } s.trig })) :=
    fun low none => congrArg endCommand (lineRises_counts low none)
  have expires : d.state = .rising → exec (.debounceExpiry i) s =
      .next (flushMirrors (countEdge i { s with trig := put { d with state := .high, timer := none } s.trig })) :=
    fun rising => congrArg endCommand (debounceExpires_counts rising)
  refine ⟨fun low none quiet => ⟨_, rises low none, ?_⟩, fun low some => ?_, fun rising quiet => ⟨_, expires rising, ?_⟩, ?_, ?_⟩
  · rw [counted _ quiet]
    exact (shows_trig s _).ends
  · exact ⟨_, congrArg endCommand (lineRises_starts low some), (shows_trig s _).ends⟩
  · rw [counted _ quiet]
    exact (shows_trig s _).ends
  · exact ⟨_, congrArg endCommand (modDebouncer_eq i _ s), (shows_trig s _).ends⟩
  · intro c d' k p how hr kind active hmask hset others n u
    have exec_c : exec c s = .next (flushMirrors (countEdge i { s with trig := put d' s.trig })) := by
      rcases how with ⟨rfl, low, none, rfl⟩ | ⟨rfl, rising, rfl⟩
      · exact rises low none
      · exact expires rising
    have one : edge (put d' s.trig) =
        { put d' s.trig with sources := s.trig.sources.set k (countFire (s.source k)) } := by
      have others (j : SourceId) (hj : j ≠ k) : fired s.trig.sources[j] = s.trig.sources[j] :=
        if_neg fun h => by rw [show s.trig.sources[j].active = false from others j hj h.1] at h; exact nomatch h.2
      have own : fired s.trig.sources[k] = countFire (s.source k) := (edgeSource_eq _).symm.trans (if_pos ⟨kind, active⟩)
      refine (if_pos hr).trans ?_
      rw [sources, map_eq_set others, own]
    obtain ⟨refuses, takes⟩ := fire_at_port (f := fun x => x) (sources d') hmask hset one
    rw [modSource_of_eq rfl, ← countEdge_single (sources d') hr kind active others] at refuses takes
    exact ⟨fun x hx => ⟨_, exec_c, (refuses x hx).ends⟩, fun r b ht => ⟨_, exec_c, (takes r b ht).ends⟩⟩

end Sys2Proof.Machine
end

section
/-! PROOFS. Take attempts that fail at the chains, and takes behind an older entry in lens mode CHAIN (R77, R78, R79, R88, R89). -/

namespace Sys2Proof.Machine

variable {s v u : State} {w : List BusEvent} {p : PortId} {f : Fire} {r l : Addr} {c : ChainEngine}
  {buffer : Addr × Nat × Nat × StoreFormat}

/-! ## Alerts and the Chain Engine -/

/-- The Chain Engine after an alert of a port (R187, R190). -/
def alertedChain (p : PortId) (bit : Nat) (u : State) (c : ChainEngine) : ChainEngine :=
  if (u.port p).alerts.getLsbD bit then c else { c with cause := c.cause ||| 4 }

theorem withAlert_chain (p : PortId) (bit : Nat) (u : State) : (withAlert p bit u).chain = alertedChain p bit u u.chain := by
  unfold withAlert alertedChain
  split <;> rfl

/-- An alert stands apart from what else the Chain Engine and the Trigger Sequencer hold. -/
theorem withAlert_with (p : PortId) (bit : Nat) (u : State) (c : ChainEngine) (d : TriggerCell) :
    withAlert p bit { u with chain := c, trig := d } = { withAlert p bit u with chain := alertedChain p bit u c, trig := d } := by
  have same : ({ u with chain := c, trig := d } : State).port p = u.port p := rfl
  unfold withAlert alertedChain
  rw [same]
  split <;> rfl

theorem alertedChain_afterTake (p : PortId) (bit : Nat) (u : State) (a : Addr) (c : ChainEngine) :
    alertedChain p bit u (afterTake a c) = afterTake a (alertedChain p bit u c) := by
  unfold alertedChain
  split <;> rfl

theorem alertedChain_recordTaken (p : PortId) (bit : Nat) (u : State) (ch : ChainId) (a : Addr) (c : ChainEngine) :
    alertedChain p bit u (recordTaken ch a c) = recordTaken ch a (alertedChain p bit u c) := by
  unfold alertedChain
  split <;> rfl

theorem alertedChain_afterCompletionOf (p : PortId) (bit : Nat) (u : State) (i : Fin 17) (g : GatherGroup) (a : Addr) (c : ChainEngine) :
    alertedChain p bit u (afterCompletionOf i g a c) = afterCompletionOf i g a (alertedChain p bit u c) := by
  unfold alertedChain
  split
  · rfl
  · unfold afterCompletionOf
    cases g with
    | frames | commands =>
      dsimp only [setGatherOf, gatherOf]
      congr 1
      split
      · rw [BitVec.or_assoc, BitVec.or_assoc, BitVec.or_comm (BitVec.twoPow 3 _)]
      · rfl

/-- The cause of ALERTS is none of the causes of a completion. -/
theorem completionWrites_alerted (p : PortId) (bit : Nat) (u : State) (c : ChainEngine) (a : Addr) (code : Code) (bs : List Byte) :
    completionWrites s (alertedChain p bit u c) a code bs = completionWrites s c a code bs := by
  unfold alertedChain
  split
  · rfl
  · have bit1 : (c.cause ||| 4).getLsbD 1 = c.cause.getLsbD 1 := by simp
    unfold completionWrites completionTail
    simp only [gatherGroup, groupBit, bit1]
    rfl

/-- Of a port and the Chain Engine an alert reads the alerts, the cause and the enables. -/
theorem alertMessage_of {v u : State} {bit : Nat} (ha : (v.port p).alerts = (u.port p).alerts)
    (hc : v.chain.cause.getLsbD 2 = u.chain.cause.getLsbD 2) (he : v.chain.enable = u.chain.enable) :
    alertMessage p bit v = alertMessage p bit u := by
  unfold alertMessage
  rw [ha, hc, he]

/-- The order in which records of different chains are taken is none of the Chain Engine (R182). -/
theorem afterTake_recordTaken (a : Addr) {ch : ChainId} (h : chainIndex ch ≠ 0) (c : ChainEngine) :
    recordTaken ch r (afterTake a c) = afterTake a (recordTaken ch r c) := by
  have order : (c.cursors.set 0 (some a)).set (chainIndex ch) (some r) = (c.cursors.set (chainIndex ch) (some r)).set 0 (some a) :=
    Vector.set_comm _ _ fun e => h (Fin.ext e.symm)
  unfold recordTaken afterTake
  dsimp only
  rw [order]

theorem chainIndex_image_ne (p : PortId) : chainIndex (.image p) ≠ 0 := by revert p; decide

theorem chainIndex_lens_ne (p : PortId) : chainIndex (.lens p) ≠ 0 := by revert p; decide

/-- The result fields of an image record that is unsound at bind fill a record of another kind to its end (R200, log 19). -/
theorem unsoundFields (n : Nat) : (leBytes 2 (codeNumber .badRecord) ++ zeros 0x86).take (recordLength n - 0x48) =
    (leBytes 2 4 ++ zeros 0x86).take (if n = 3 then 0x38 else 0x88) := by
  unfold recordLength
  split <;> rfl

/-- An image record that is unsound at bind is taken and completed (R78, R132). -/
theorem Shows.dropsUnsound (h : Shows s v u w) (p : PortId) (r : Addr) :
    Shows s (dropUnsound (p, r) v)
      { u with chain := afterCompletionOf (chainIndex (.image p)) .frames r (recordTaken (.image p) r u.chain) }
      (completionTail s u.chain (chainIndex (.image p)) .frames r false ++
        .write (r + 0x48) ((leBytes 2 4 ++ zeros 0x86).take (if Machine.recordKind r v = 3 then 0x38 else 0x88)) :: w) := by
  have kind : Machine.recordKind r (takeRecord (.image p) r v) = Machine.recordKind r v := rfl
  unfold dropUnsound failImageAtBind writeResult
  dsimp only
  rw [kind, unsoundFields]
  exact ((h.takesRecord (.image p) r).dmaWrite _ _).completeRecord (.image p) r false

/-! ## Refusals at the chains -/

/-- A port's taker at a take attempt refused for want of an image record (R78). -/
abbrev unserved (n : U32) (x : Taker) : Taker := { stepPattern n x with noBuffer := x.noBuffer + 1 }

section
variable (h : Shows s v u w) (hbit : takeBit (u.port p).take = true) (hready : (u.port p).ctl.ready = true)
  (hroom : (u.port p).frame.entries.length < 4)
include h hbit hready hroom

/-- A take attempt without an image record (R77, R78). -/
theorem Shows.firesUnserved (hneed : need (.image p) v = none) :
    Shows s (fireSingle p f v) (withAlert p 7 (Machine.modTake p (fun _ => unserved f.number (u.port p).take) u))
      (alertMessage p 7 u ++ w) := by
  rw [h.admits hbit hready hroom]
  dsimp only
  rw [need_modTake, hneed]
  have told : Shows s _ (Machine.modTake p (fun _ => unserved f.number (u.port p).take) u) w :=
    (h.steps p f.number).atTake fun t => { t with noBuffer := t.noBuffer + 1 }
  have alerted := told.setPortAlert p 7
  rw [alertMessage_of (u := u) (modTake_port_alerts (f := fun _ => unserved f.number (u.port p).take) ..) rfl rfl] at alerted
  exact alerted

/-- A take attempt without the lens record it asks for (R77, R78). -/
theorem Shows.firesDry (hneed : (need (.image p) v).isSome = true)
    (hdry : ((u.port p).lens.chain = true ∧ (u.port p).lens.policy = .skipTake) ∧ need (.lens p) v = none) :
    Shows s (fireSingle p f v)
      (Machine.modTake p (fun _ => { stepPattern f.number (u.port p).take with lensDry := (u.port p).take.lensDry + 1 }) u) w := by
  obtain ⟨r, hneed⟩ := Option.isSome_iff_exists.mp hneed
  have stepped := h.steps p f.number
  have dry : lensSupplied p (Machine.modTake p (stepPattern f.number) v) = false := by
    unfold lensSupplied
    rw [stepped.lens_atPort, need_modTake, hdry.1.1, hdry.1.2, hdry.2]
    rfl
  rw [h.admits hbit hready hroom]
  dsimp only
  rw [need_modTake, hneed]
  dsimp only
  rw [dry, Bool.not_false, if_pos rfl]
  exact stepped.atTake fun t => { t with lensDry := t.lensDry + 1 }

/-- A take attempt with an unsound image record (R77, R78). -/
theorem Shows.firesUnsound (hneed : need (.image p) v = some r) (hbad : readImageRecord r v = none)
    (hlens : ¬ (((u.port p).lens.chain = true ∧ (u.port p).lens.policy = .skipTake) ∧ need (.lens p) v = none)) :
    Shows s (fireSingle p f v)
      (withAlert p 7 (Machine.modTake p (fun _ => unserved f.number (u.port p).take)
        { u with chain := afterCompletionOf (chainIndex (.image p)) .frames r (recordTaken (.image p) r u.chain) }))
      (alertMessage p 7 u ++ (completionTail s u.chain (chainIndex (.image p)) .frames r false ++
        .write (r + 0x48) ((leBytes 2 4 ++ zeros 0x86).take (if Machine.recordKind r v = 3 then 0x38 else 0x88)) :: w)) := by
  have stepped := h.steps p f.number
  have supplied : lensSupplied p (Machine.modTake p (stepPattern f.number) v) = true := by
    unfold lensSupplied
    rw [stepped.lens_atPort, need_modTake]
    cases hc : (u.port p).lens.chain <;> cases hp : (u.port p).lens.policy <;> cases hn : need (.lens p) v <;> simp_all
  have unsound : soundOffer p (Machine.modTake p (stepPattern f.number) v) = none := by
    unfold soundOffer
    rw [need_modTake, hneed, Option.bind_some, readImageRecord_modTake, hbad]
    rfl
  rw [h.admits hbit hready hroom]
  dsimp only
  rw [need_modTake, hneed]
  dsimp only
  rw [supplied, Bool.not_true, if_neg Bool.false_ne_true, unsound]
  let c := afterCompletionOf (chainIndex (.image p)) .frames r (recordTaken (.image p) r u.chain)
  have dropped : Shows s _ (atPort p (steppedPort f.number (u.port p)) u.cable { u with chain := c }) _ := stepped.dropsUnsound p r
  have told : Shows s _ (Machine.modTake p (fun _ => unserved f.number (u.port p).take) { u with chain := c }) _ :=
    dropped.atTake fun t => { t with noBuffer := t.noBuffer + 1 }
  have same : alertMessage p 7 (Machine.modTake p (fun _ => unserved f.number (u.port p).take) { u with chain := c }) =
      alertMessage p 7 u := alertMessage_of (modTake_port_alerts ..) (afterCompletionOf_alerts ..).1 rfl
  have alerted := told.setPortAlert p 7
  rw [same] at alerted
  exact alerted

end

end Sys2Proof.Machine
end

section
/-! PROOFS. SOFT_TRIGGER: the command around a fire, and fires at no port and at a port in no set (R67, R73, R74, R76 to R79, R98). -/

namespace Sys2Proof.Machine

variable {s v u : State} {w z : List BusEvent} {a b r : Addr} {k : SourceId} {p : PortId} {bs : List Byte}
  {x : Addr × Nat × Nat × StoreFormat}

/-! ## Writes that leave the kind byte of a record alone -/

/-- Do the writes leave the byte at an address alone? -/
def Spares (w : List BusEvent) (a : Addr) : Prop := ∀ run ∈ storedRuns w, run.2 ≤ distanceFrom run.1 a.toNat

theorem spares_append : Spares (w ++ z) a ↔ Spares w a ∧ Spares z a := by
  unfold Spares
  rw [storedRuns_append]
  exact List.forall_mem_append

theorem spares_write : Spares (.write b bs :: w) a ↔ bs.length ≤ distanceFrom b a.toNat ∧ Spares w a := List.forall_mem_cons

theorem spares_none (a : Addr) : Spares [] a := fun _ h => absurd h List.not_mem_nil

theorem spares_message {q : Prop} [Decidable q] (g : Group) (a : Addr) : Spares (if q then [.message g] else []) a := by
  split <;> exact spares_none a

theorem addr_lt (a : Addr) : a.toNat < addressSpace := by simpa [addressSpace] using a.isLt

theorem spares_completionTail (c : ChainEngine) {i : Fin 17} (g : GatherGroup) (done : Bool) (hrec : 8 ≤ distanceFrom r a.toNat)
    (hprog : 0x10 ≤ distanceFrom (blockAt (0xC0 + 16 * i.val) s) a.toNat) : Spares (completionTail s c i g r done) a := by
  have prog (j len : Nat) (h : j + len ≤ 0x10) : len ≤ distanceFrom (blockAt (0xC0 + 16 * i.val + j) s) a.toNat := by
    rw [blockAt_add]
    exact le_distanceFrom_part h (addr_lt a) hprog
  refine spares_append.mpr ⟨spares_message _ a, spares_write.mpr ⟨prog 0 4 (by decide), spares_write.mpr ⟨prog 8 8 (by decide),
    spares_write.mpr ⟨?_, spares_none a⟩⟩⟩⟩
  rw [leBytes_length]
  exact le_distanceFrom_part (k := 4) (by decide) (addr_lt a) hrec

/-- The writes of a bind lie in the first 0x48 bytes of the image record (R200). -/
theorem spares_bindWrites (f : Fire) (set : Option (SetId × U32)) (l : Option Addr) (h : 0x48 ≤ distanceFrom r a.toNat) :
    Spares (bindWrites f set r l) a := by
  refine spares_write.mpr ⟨?_, spares_write.mpr ⟨?_, spares_none a⟩⟩
  · rw [leBytes_length]
    exact le_distanceFrom_part (k := 4) (by decide) (addr_lt a) h
  · refine le_distanceFrom_part (k := 0x21) (whole := 0x48) ?_ (addr_lt a) h
    unfold bindBytes
    cases set <;> simp [orFF]

/-- The writes that complete an unsound image record lie in the record and in the entry of its chain's progress (R200). -/
theorem spares_dropped {n : Nat} (c : ChainEngine) (hrec : 0xD0 ≤ distanceFrom r a.toNat)
    (hprog : 0x10 ≤ distanceFrom (blockAt (0xC0 + 16 * (1 + p.val)) s) a.toNat) (hw : Spares w a) :
    Spares (completionTail s c (chainIndex (.image p)) .frames r false ++
      .write (r + 0x48) ((leBytes 2 4 ++ zeros 0x86).take (if n = 3 then 0x38 else 0x88)) :: w) a := by
  refine spares_append.mpr ⟨spares_completionTail c .frames false (Nat.le_trans (by decide) hrec) hprog, spares_write.mpr ⟨?_, hw⟩⟩
  refine le_distanceFrom_part (k := 0x48) (whole := 0xD0) ?_ (addr_lt a) hrec
  rw [List.length_take]
  have whole : (leBytes 2 4 ++ zeros 0x86).length = 0x88 := by rw [List.length_append, leBytes_length, zeros_length]
  omega

/-! ## The command -/

/-- The Trigger Sequencer after a fire of a source (R67). -/
abbrev firedTrig (k : SourceId) (s : State) : TriggerCell := { s.trig with sources := s.trig.sources.set k (countFire (s.source k)) }

/-- The card with the command taken and the fire counted, before any port is reached. -/
abbrev fireBegun (a : Addr) (k : SourceId) (s : State) : State := { s with trig := firedTrig k s, chain := afterTake a s.chain }

theorem shows_fireBegun (a : Addr) (k : SourceId) (s : State) :
    Shows s (modSource k countFire (takeCommand a s)) (fireBegun a k s) [takenWrite a] := (shows_takeCommand a s).withTrig rfl

theorem exec_softTrigger (hr : s.running = true) (hn : (s.source k).number ≠ 0xFFFFFFFF) : exec (.softTrigger a (BitVec.ofNat 8 k.val)) s =
    .next (flushMirrors (completeCommand a .ok (u32 ((s.source k).number + 1)) (fire k (takeCommand a s)))) := by
  refine (execRecord_running (c := .softTrigger (BitVec.ofNat 8 k.val)) hr).trans ?_
  unfold ownCommand takeSoftTrigger
  dsimp only
  rw [sourceNamed_ofNat]
  dsimp only
  rw [if_neg (show ¬ ((takeCommand a s).source k).number = lastNumber from hn)]
  rfl

section
variable (hs : CommandReady a s) (hn : (s.source k).number ≠ 0xFFFFFFFF)
include hs hn

/-- The command completes once its fire is told. -/
theorem softTrigger_ends (h : Shows s (fire k (takeCommand a s)) u w) (hw : Spares w a) :
    ∃ t, exec (.softTrigger a (BitVec.ofNat 8 k.val)) s = .next t ∧ Ends s t { u with chain := afterCompletion a u.chain }
      (completionWrites s u.chain a .ok (u32 ((s.source k).number + 1)) ++ w) := by
  obtain ⟨-, hr, hk⟩ := hs
  refine ⟨_, exec_softTrigger hr hn, (h.completeCommand .ok ?_ (by simp)).ends⟩
  rw [h.recordKind hw, hk]
  decide

/-- The command completes after a fire that writes nothing. -/
theorem softTrigger_done (h : Shows s (fire k (takeCommand a s)) { u with chain := afterTake a u.chain } [takenWrite a]) :
    ∃ t, exec (.softTrigger a (BitVec.ofNat 8 k.val)) s = .next t ∧ CommandDone a .ok (u32 ((s.source k).number + 1)) s t u := by
  obtain ⟨-, hr, hk⟩ := hs
  exact ⟨_, exec_softTrigger hr hn, h.commandDone hk (by simp)⟩

end

/-! ## A source that drives no port -/

/-- A source after a fire of its own (R67, R70). -/
theorem countFire_ends (y : Source) : let ends := y.number + 1 = 0xFFFFFFFF ∨
      (match y.kind with | .pitch g => g.limit ≠ 0 ∧ g.limit.toNat ≤ (y.made + 1).toNat | _ => False)
    (ends → countFire y = { y with number := y.number + 1, made := y.made + 1, active := false, next := none }) ∧
      (¬ ends → countFire y = { y with number := y.number + 1, made := y.made + 1 }) := by
  intro ends
  have spent : (decide (y.number + 1 = lastNumber) || (match y.kind with
      | .pitch g => limitReached g.limit (y.made + 1)
      | _ => false)) = true ↔ ends := by
    simp only [ends, Bool.or_eq_true, decide_eq_true_eq]
    refine or_congr Iff.rfl ?_
    cases y.kind with
    | pitch g => exact limitReached_iff
    | none | input i => exact ⟨nofun, False.elim⟩
  exact ⟨fun h => if_pos (spent.mpr h), fun h => if_neg fun e => h (spent.mp e)⟩

/-! ## A source that drives one port, which is in no set -/

/-- What the chains are asked for at the checks of a fire. -/
abbrev fireChecked (a : Addr) (k : SourceId) (s : State) : State :=
  { fireBegun a k s with mem := writeBytes s.mem (a + 4) (leBytes 4 2) }

theorem fire_taken (hmask : (s.source k).mask = BitVec.twoPow 8 p.val) (hset : s.setOf p = none) :
    fire k (takeCommand a s) = fireSingle p (fireOf k s) (modSource k countFire (takeCommand a s)) :=
  fire_single (s := takeCommand a s) hmask hset

section
variable (hs : CommandReady a s) (hn : (s.source k).number ≠ 0xFFFFFFFF) (hmask : (s.source k).mask = BitVec.twoPow 8 p.val)
  (hset : s.setOf p = none)
include hs hn hmask hset

/-- A fire at the port that changes its taker alone. -/
theorem softTrigger_refused {t : Taker} (h : Shows s (fireSingle p (fireOf k s) (modSource k countFire (takeCommand a s)))
      (Machine.modTake p (fun _ => t) (fireBegun a k s)) [takenWrite a]) :
    ∃ y, exec (.softTrigger a (BitVec.ofNat 8 k.val)) s = .next y ∧ CommandDone a .ok (u32 ((s.source k).number + 1)) s y
      { Machine.modTake p (fun _ => t) s with trig := firedTrig k s } := by
  refine softTrigger_done hs hn ?_
  rw [fire_taken hmask hset]
  exact h

/-- A fire at the port that changes its taker, completes records and sets the alert of a take that is not served. -/
theorem softTrigger_alerts {t : Taker} {c : ChainEngine}
    (h : Shows s (fireSingle p (fireOf k s) (modSource k countFire (takeCommand a s)))
      (withAlert p 7 (Machine.modTake p (fun _ => t) { fireBegun a k s with chain := c })) w) (hw : Spares w a) :
    ∃ y, exec (.softTrigger a (BitVec.ofNat 8 k.val)) s = .next y ∧
      Ends s y { withAlert p 7 (Machine.modTake p (fun _ => t) s) with
          trig := firedTrig k s, chain := afterCompletion a (alertedChain p 7 s c) }
        (completionWrites s c a .ok (u32 ((s.source k).number + 1)) ++ w) := by
  rw [← fire_taken hmask hset] at h
  obtain ⟨y, hy, ends⟩ := softTrigger_ends hs hn h hw
  refine ⟨y, hy, ?_⟩
  have apart := withAlert_with p 7 (Machine.modTake p (fun _ => t) s) c (firedTrig k s)
  have same : alertedChain p 7 (Machine.modTake p (fun _ => t) s) c = alertedChain p 7 s c := by
    unfold alertedChain
    rw [modTake_port_alerts]
  rw [same] at apart
  have whole : withAlert p 7 (Machine.modTake p (fun _ => t) { fireBegun a k s with chain := c }) = _ := apart
  rw [whole] at ends
  dsimp only at ends
  rw [completionWrites_alerted] at ends
  exact ends

variable (hbit : takeBit (s.port p).take = true) (hready : (s.port p).ctl.ready = true) (hroom : (s.port p).frame.entries.length < 4)
include hbit hready hroom

/-- SOFT_TRIGGER without an image record (R77, R78). -/
theorem softTrigger_unserved (hneed : need (.image p) (fireChecked a k s) = none) :
    ∃ y, exec (.softTrigger a (BitVec.ofNat 8 k.val)) s = .next y ∧
      Ends s y { withAlert p 7 (Machine.modTake p (fun _ => unserved ((s.source k).number + 1) (s.port p).take) s) with
          trig := firedTrig k s, chain := afterCompletion a (afterTake a (withAlert p 7 s).chain) }
        (completionWrites s s.chain a .ok (u32 ((s.source k).number + 1)) ++ alertMessage p 7 s ++ [takenWrite a]) := by
  have told := (shows_fireBegun a k s).firesUnserved (f := fireOf k s) hbit hready hroom hneed
  obtain ⟨y, hy, ends⟩ := softTrigger_alerts hs hn hmask hset told
    (spares_append.mpr ⟨spares_message _ a, takenWrite_apart a⟩)
  refine ⟨y, hy, ?_⟩
  rw [withAlert_chain, ← alertedChain_afterTake, List.append_assoc]
  exact ends

/-- SOFT_TRIGGER with an unsound image record (R77, R78). -/
theorem softTrigger_unsound (hneed : need (.image p) (fireChecked a k s) = some r) (hbad : readImageRecord r (fireChecked a k s) = none)
    (hlens : ¬ (((s.port p).lens.chain = true ∧ (s.port p).lens.policy = .skipTake) ∧ need (.lens p) (fireChecked a k s) = none))
    (hrec : 0xD0 ≤ distanceFrom r a.toNat) (hprog : 0x10 ≤ distanceFrom (blockAt (0xC0 + 16 * (1 + p.val)) s) a.toNat) :
    ∃ y, exec (.softTrigger a (BitVec.ofNat 8 k.val)) s = .next y ∧
      Ends s y { withAlert p 7 (Machine.modTake p (fun _ => unserved ((s.source k).number + 1) (s.port p).take) s) with
          trig := firedTrig k s
          chain := afterCompletion a (afterCompletionOf (chainIndex (.image p)) .frames r
            (afterTake a (recordTaken (.image p) r (withAlert p 7 s).chain))) }
        (completionWrites s (afterCompletionOf (chainIndex (.image p)) .frames r s.chain) a .ok (u32 ((s.source k).number + 1))
          ++ alertMessage p 7 s
          ++ completionTail s s.chain (chainIndex (.image p)) .frames r false
          ++ [.write (r + 0x48) ((leBytes 2 4 ++ zeros 0x86).take (if recordKind r (fireChecked a k s) = 3 then 0x38 else 0x88)),
            takenWrite a]) := by
  have told := (shows_fireBegun a k s).firesUnsound (f := fireOf k s) hbit hready hroom hneed hbad hlens
  obtain ⟨y, hy, ends⟩ := softTrigger_alerts hs hn hmask hset told
    (spares_append.mpr ⟨spares_message _ a, spares_dropped _ hrec hprog (takenWrite_apart a)⟩)
  refine ⟨y, hy, ?_⟩
  rw [withAlert_chain, ← afterTake_recordTaken a (chainIndex_image_ne p), ← alertedChain_afterTake, ← alertedChain_recordTaken,
    ← alertedChain_afterCompletionOf]
  simp only [List.append_assoc]
  exact ends

/-- SOFT_TRIGGER without the lens record that a take asks for (R77, R78). -/
theorem softTrigger_dry (hneed : (need (.image p) (fireChecked a k s)).isSome = true)
    (hdry : ((s.port p).lens.chain = true ∧ (s.port p).lens.policy = .skipTake) ∧ need (.lens p) (fireChecked a k s) = none) :
    ∃ y, exec (.softTrigger a (BitVec.ofNat 8 k.val)) s = .next y ∧ CommandDone a .ok (u32 ((s.source k).number + 1)) s y
      { Machine.modTake p (fun _ => { stepPattern ((s.source k).number + 1) (s.port p).take with
          lensDry := (s.port p).take.lensDry + 1 }) s with trig := firedTrig k s } :=
  softTrigger_refused hs hn hmask hset ((shows_fireBegun a k s).firesDry (f := fireOf k s) hbit hready hroom hneed hdry)

end

/-- SOFT_TRIGGER with a take at once (R77, R79, R98). -/
theorem softTrigger_takesAtOnce (hs : CommandReady a s) (hn : (s.source k).number ≠ 0xFFFFFFFF)
    (hmask : (s.source k).mask = BitVec.twoPow 8 p.val) (hset : s.setOf p = none) (ht : TakesAtOnce p r x (fireChecked a k s))
    (hrec : 0x48 ≤ distanceFrom r a.toNat) :
    let n := (s.source k).number + 1
    let u := takenAtOnce k n p r x { s with trig := firedTrig k s }
    ∃ y, exec (.softTrigger a (BitVec.ofNat 8 k.val)) s = .next y ∧ Ends s y { u with chain := afterCompletion a (afterTake a u.chain) }
      (completionWrites s s.chain a .ok (u32 n) ++ boundWrites k n r s ++ [takenWrite a]) := by
  intro n u
  have begun : TakesAtOnce p r x (modSource k countFire (takeCommand a s)) :=
    ⟨ht.bit, ht.ready, ht.empty, ht.noPhase, ht.noTable, ht.lensOff, ht.noExpose, ht.offered, ht.sound⟩
  have told := (shows_fireBegun a k s).takesAtOnce (f := fireOf k s) begun rfl rfl rfl
  rw [← fire_taken hmask hset] at told
  obtain ⟨y, hy, ends⟩ := softTrigger_ends hs hn told
    (spares_append.mpr ⟨spares_bindWrites (fireOf k s) none none hrec, takenWrite_apart a⟩)
  refine ⟨y, hy, ?_⟩
  rw [List.append_assoc]
  have whole : afterTake a u.chain = recordTaken (.image p) r (afterTake a s.chain) :=
    (afterTake_recordTaken a (chainIndex_image_ne p) s.chain).symm
  rw [whole]
  exact ends

end Sys2Proof.Machine
end

section
/-! PROOFS. A fire at a port in no set, in lens mode CHAIN behind an older entry (R79, R80, R88, R89, R91). -/

namespace Sys2Proof.Machine

variable {s v u b : State} {w z : List BusEvent} {a r l : Addr} {k : SourceId} {p : PortId} {f : Fire} {old : Entry} {o : Offer}
  {set : Option (SetId × U32)} {buffer : Addr × Nat × Nat × StoreFormat}

/-! ## Lens records -/

/-- The result fields of a lens record go out whole into a record of either length (R200). -/
theorem lensResultBytes_whole {code : Code} {source : SourceId} {n : U32} {i : LensOutcome} {flags : BitVec 4} {ts : List Target}
    (hts : ts.length ≤ 4) (started ended : U64) (kind : Nat) :
    (lensResultBytes code p source n i flags ts started ended).take (recordLength kind - 0x24) =
      lensResultBytes code p source n i flags ts started ended := by
  refine List.take_of_length_le ?_
  rw [lensResultBytes_length hts, recordLength]
  split <;> decide

/-- A malformed lens record is completed (R89). -/
theorem Shows.failsLens (h : Shows s v u w) (p : PortId) (f : Fire) (l : Addr) {e : Entry} (he : e.source = f.source)
    (hn : e.trigger = f.number) :
    Shows s (failMalformedLens p f l v) { u with chain := afterCompletionOf (chainIndex (.lens p)) .commands l u.chain }
      (completionTail s u.chain (chainIndex (.lens p)) .commands l false ++
        .write (l + 0x24) (lensResultBytes .badRecord p e.source e.trigger .none 8 [] 0 0) :: w) := by
  unfold failMalformedLens completeLens writeResult
  rw [lensResultBytes_whole (by decide), he, hn]
  exact (h.dmaWrite _ _).completeRecord (.lens p) l false

/-- A bind with a malformed lens record, which is completed after BOUND (R79, R89, log 34). -/
theorem Shows.bindsMalformed (h : Shows s v u w) (p : PortId) (f : Fire) (set : Option (SetId × U32)) (r l : Addr) {e : Entry}
    (he : e.source = f.source) (hn : e.trigger = f.number) :
    let c := recordTaken (.lens p) l (recordTaken (.image p) r u.chain)
    Shows s (bindRecords p f set ⟨r, buffer, some (l, none)⟩ v)
      { u with chain := afterCompletionOf (chainIndex (.lens p)) .commands l c }
      (completionTail s c (chainIndex (.lens p)) .commands l false ++
        .write (l + 0x24) (lensResultBytes .badRecord p e.source e.trigger .none 8 [] 0 0) ::
          (bindWrites f set r (some l) ++ .write (l + 4) (leBytes 4 2) :: w)) :=
  (((((h.takesRecord (.image p) r).takesRecord (.lens p) l).dmaWrite _ _).dmaWrite _ _).dmaWrite _ _).failsLens p f l he hn

/-! ## A take behind an older entry -/

/-- The taker and the list of a port after a take behind an older entry. -/
abbrev joined (n : U32) (old e : Entry) (x : Port) : Port := { x with
  frame := { x.frame with entries := [old, e] }, take := { stepPattern n x.take with takes := x.take.takes + 1 } }

/-- A sound take attempt whose entry waits behind an older one (R77, R79, R91). -/
theorem Shows.takesBehind (h : Shows s v u w) (hbit : takeBit (u.port p).take = true) (hready : (u.port p).ctl.ready = true)
    (hes : (u.port p).frame.entries = [old]) (hold : old.phase = .exposeQueued) (hbusy : (u.port p).ctl.state ≠ .idle)
    (hneed : need (.image p) v = some r) (hlens : lensSupplied p (Machine.modTake p (stepPattern f.number) v) = true)
    (hoffer : soundOffer p (Machine.modTake p (stepPattern f.number) v) = some o)
    (hbound : Shows s (bindRecords p f none o (Machine.modTake p (stepPattern f.number) v))
      (atPort p (steppedPort f.number (u.port p)) u.cable b) z) :
    Shows s (fireSingle p f v) (atPort p (joined f.number old (boundEntry f none o) (u.port p)) u.cable b) z := by
  rw [h.admits hbit hready (by rw [hes, List.length_singleton]; decide)]
  dsimp only
  rw [need_modTake, hneed]
  dsimp only
  rw [hlens, Bool.not_true, if_neg Bool.false_ne_true, hoffer]
  have bound := hbound.binds
  have list : (bindingPort f none o (steppedPort f.number (u.port p))).frame.entries = [old, boundEntry f none o] :=
    congrArg (· ++ [boundEntry f none o]) hes
  have joins : bindingPort f none o (steppedPort f.number (u.port p)) = joined f.number old (boundEntry f none o) (u.port p) := by
    unfold bindingPort joined
    rw [show (steppedPort f.number (u.port p)).frame.entries = [old] from hes]
    rfl
  rw [← joins]
  exact (bound.waitsBehind list hold).chooses_busy hbusy

theorem lensOffered_chain (h : (s.port p).lens.chain = true) : lensOffered p s = need (.lens p) s := if_pos h

theorem lensSupplied_of (h : (s.port p).lens.policy ≠ .skipTake ∨ (need (.lens p) s).isSome = true) : lensSupplied p s = true := by
  unfold lensSupplied
  rw [Bool.or_eq_true, Bool.not_eq_true', Bool.and_eq_false_iff, decide_eq_false_iff_not]
  exact h.imp_left .inr

section
variable (hs : CommandReady a s) (hmask : (s.source k).mask = BitVec.twoPow 8 p.val) (hset : s.setOf p = none)
  (hn : (s.source k).number ≠ 0xFFFFFFFF) (hbit : takeBit (s.port p).take = true) (hready : (s.port p).ctl.ready = true)
  (hes : (s.port p).frame.entries = [old]) (hold : old.phase = .exposeQueued) (hbusy : (s.port p).ctl.state ≠ .idle)
  (hchain : (s.port p).lens.chain = true) (hneed : need (.image p) (fireChecked a k s) = some r)
  (hsound : readImageRecord r (fireChecked a k s) = some buffer)
include hs hmask hset hn hbit hready hes hold hbusy hchain hneed hsound

/-- SOFT_TRIGGER with a take behind an older entry, told by what its bind shows. -/
theorem softTrigger_takesBehind {lens : Option (Addr × Option (List (UnitId × Int)))} {c : ChainEngine}
    (hl : (need (.lens p) (fireChecked a k s)).map (fun l => (l, readLensRecord l (fireChecked a k s))) = lens)
    (hsupplied : (s.port p).lens.policy ≠ .skipTake ∨ lens.isSome = true)
    (hbound : Shows s (bindRecords p (fireOf k s) none ⟨r, buffer, lens⟩
        (Machine.modTake p (stepPattern ((s.source k).number + 1)) (modSource k countFire (takeCommand a s))))
      (atPort p (steppedPort ((s.source k).number + 1) (s.port p)) s.cable { fireBegun a k s with chain := c }) w) (hw : Spares w a) :
    ∃ t, exec (.softTrigger a (BitVec.ofNat 8 k.val)) s = .next t ∧
      Ends s t { atPort p (joined ((s.source k).number + 1) old (boundEntry (fireOf k s) none ⟨r, buffer, lens⟩) (s.port p)) s.cable s with
          trig := firedTrig k s, chain := afterCompletion a c }
        (completionWrites s c a .ok (u32 ((s.source k).number + 1)) ++ w) := by
  let t := Machine.modTake p (stepPattern (fireOf k s).number) (modSource k countFire (takeCommand a s))
  have same : (t.port p).lens = (s.port p).lens := modTake_port_lens ..
  have offer : soundOffer p t = some ⟨r, buffer, lens⟩ := by
    rw [soundOffer_eq (s := t) hneed hsound, lensOffered_chain (s := t) (by rw [same]; exact hchain)]
    exact congrArg (fun y => some (Offer.mk r buffer y)) hl
  have supplied : lensSupplied p t = true := by
    refine lensSupplied_of ?_
    rw [same]
    refine hsupplied.imp_right fun h => ?_
    rw [← hl, Option.isSome_map] at h
    exact h
  have told := (shows_fireBegun a k s).takesBehind (f := fireOf k s) (b := { fireBegun a k s with chain := c })
    hbit hready hes hold hbusy hneed supplied offer hbound
  rw [← fire_taken hmask hset] at told
  exact softTrigger_ends hs hn told hw

variable (hrec : 0x48 ≤ distanceFrom r a.toNat)
include hrec

/-- SOFT_TRIGGER with a take behind an older entry without a lens record (R79, R88). -/
theorem softTrigger_behind (hl : need (.lens p) (fireChecked a k s) = none) (hpolicy : (s.port p).lens.policy ≠ .skipTake) :
    ∃ t, exec (.softTrigger a (BitVec.ofNat 8 k.val)) s = .next t ∧
      Ends s t { atPort p (joined ((s.source k).number + 1) old (boundEntry (fireOf k s) none ⟨r, buffer, none⟩) (s.port p)) s.cable s with
          trig := firedTrig k s, chain := afterCompletion a (afterTake a (recordTaken (.image p) r s.chain)) }
        (completionWrites s s.chain a .ok (u32 ((s.source k).number + 1)) ++ bindWrites (fireOf k s) none r none ++ [takenWrite a]) := by
  have bound := ((shows_fireBegun a k s).steps p ((s.source k).number + 1)).bindsImage (buffer := buffer) p (fireOf k s) none r
  have told := softTrigger_takesBehind hs hmask hset hn hbit hready hes hold hbusy hchain hneed hsound
    (c := recordTaken (.image p) r (afterTake a s.chain)) (by rw [hl]; rfl) (.inl hpolicy) bound
    (spares_append.mpr ⟨spares_bindWrites _ none none hrec, takenWrite_apart a⟩)
  rw [List.append_assoc, ← afterTake_recordTaken a (chainIndex_image_ne p)]
  exact told

variable (hl : need (.lens p) (fireChecked a k s) = some l) (hlrec : 4 ≤ distanceFrom (l + 4) a.toNat)
include hl hlrec

/-- SOFT_TRIGGER with a take behind an older entry and a sound lens record (R79, R89). -/
theorem softTrigger_behind_lens {ps : List (UnitId × Int)} (hps : readLensRecord l (fireChecked a k s) = some ps) :
    ∃ t, exec (.softTrigger a (BitVec.ofNat 8 k.val)) s = .next t ∧
      Ends s t { atPort p (joined ((s.source k).number + 1) old (boundEntry (fireOf k s) none ⟨r, buffer, some (l, some ps)⟩) (s.port p))
          s.cable s with
          trig := firedTrig k s
          chain := afterCompletion a (afterTake a (recordTaken (.lens p) l (recordTaken (.image p) r s.chain))) }
        (completionWrites s s.chain a .ok (u32 ((s.source k).number + 1)) ++ bindWrites (fireOf k s) none r (some l)
          ++ [.write (l + 4) (leBytes 4 2), takenWrite a]) := by
  have bound := ((shows_fireBegun a k s).steps p ((s.source k).number + 1)).bindsLens (buffer := buffer) (ps := ps) p (fireOf k s) none r l
  have told := softTrigger_takesBehind hs hmask hset hn hbit hready hes hold hbusy hchain hneed hsound
    (c := recordTaken (.lens p) l (recordTaken (.image p) r (afterTake a s.chain))) (by rw [hl, Option.map_some, hps]) (.inr rfl) bound
    (spares_append.mpr ⟨spares_bindWrites _ none (some l) hrec, spares_write.mpr ⟨hlrec, takenWrite_apart a⟩⟩)
  rw [List.append_assoc, ← afterTake_recordTaken a (chainIndex_lens_ne p), ← afterTake_recordTaken a (chainIndex_image_ne p)]
  exact told

/-- SOFT_TRIGGER with a take behind an older entry and a malformed lens record (R79, R89). -/
theorem softTrigger_behind_malformed (hps : readLensRecord l (fireChecked a k s) = none) (hwhole : 0x80 ≤ distanceFrom l a.toNat)
    (hprog : 0x10 ≤ distanceFrom (blockAt (0xC0 + 16 * (9 + p.val)) s) a.toNat) :
    ∃ t, exec (.softTrigger a (BitVec.ofNat 8 k.val)) s = .next t ∧
      Ends s t { atPort p (joined ((s.source k).number + 1) old (boundEntry (fireOf k s) none ⟨r, buffer, some (l, none)⟩) (s.port p))
          s.cable s with
          trig := firedTrig k s
          chain := afterCompletion a (afterCompletionOf (chainIndex (.lens p)) .commands l
            (afterTake a (recordTaken (.lens p) l (recordTaken (.image p) r s.chain)))) }
        (completionWrites s (afterCompletionOf (chainIndex (.lens p)) .commands l s.chain) a .ok (u32 ((s.source k).number + 1))
          ++ lensWrites s p l .badRecord (boundEntry (fireOf k s) none ⟨r, buffer, some (l, none)⟩) .none 8 [] 0 0
          ++ bindWrites (fireOf k s) none r (some l) ++ [.write (l + 4) (leBytes 4 2), takenWrite a]) := by
  have bound := ((shows_fireBegun a k s).steps p ((s.source k).number + 1)).bindsMalformed (buffer := buffer) p (fireOf k s) none r l
    (e := boundEntry (fireOf k s) none ⟨r, buffer, some (l, none)⟩) rfl rfl
  have fields : (lensResultBytes .badRecord p (boundEntry (fireOf k s) none ⟨r, buffer, some (l, none)⟩).source
      (boundEntry (fireOf k s) none ⟨r, buffer, some (l, none)⟩).trigger .none 8 [] 0 0).length ≤
      distanceFrom (l + 0x24) a.toNat := by
    rw [lensResultBytes_length (by decide)]
    exact le_distanceFrom_part (k := 0x24) (by decide) (addr_lt a) hwhole
  have told := softTrigger_takesBehind hs hmask hset hn hbit hready hes hold hbusy hchain hneed hsound
    (c := afterCompletionOf (chainIndex (.lens p)) .commands l
      (recordTaken (.lens p) l (recordTaken (.image p) r (afterTake a s.chain)))) (by rw [hl, Option.map_some, hps]) (.inr rfl) bound
    (spares_append.mpr ⟨spares_completionTail _ .commands false (Nat.le_trans (by decide) hwhole) hprog,
      spares_write.mpr ⟨fields, spares_append.mpr ⟨spares_bindWrites _ none (some l) hrec,
        spares_write.mpr ⟨hlrec, takenWrite_apart a⟩⟩⟩⟩)
  rw [← afterTake_recordTaken a (chainIndex_lens_ne p), ← afterTake_recordTaken a (chainIndex_image_ne p)]
  unfold lensWrites
  simp only [List.append_assoc, List.cons_append, List.nil_append]
  exact told

end

end Sys2Proof.Machine
end

section
/-! PROOFS. A fire at a formed set: the patterns of its members, and its skips (R130, R131, R132). -/

namespace Sys2Proof.Machine

variable {s t v u : State} {w z : List BusEvent} {a r : Addr} {k : SourceId} {p : PortId} {f : Fire} {j : SetId} {ps : List PortId}

/-! ## Some ports one after the other -/

theorem forPorts_idle {act : PortId → State → State} (h : ∀ q ∈ ps, act q t = t) : forPorts ps act t = t := by
  induction ps with
  | nil => rfl
  | cons p ps ih =>
    refine (congrArg (forPorts ps act) (h p List.mem_cons_self)).trans (ih fun q hq => h q (List.mem_cons_of_mem p hq))

theorem forPorts_modPort_ports (g : PortId → Port → Port) (h : t.ports = s.ports) :
    (forPorts ps (fun p => modPort p (g p)) t).ports = (forPorts ps (fun p => modPort p (g p)) s).ports := by
  induction ps generalizing s t with
  | nil => exact h
  | cons p ps ih =>
    have one : (modPort p (g p) t).ports = (modPort p (g p) s).ports := by
      unfold modPort State.port
      rw [h]
    exact ih one

/-- Two changes of each of some ports show as one. -/
theorem sameDevice_forPorts_twice {g g' : PortId → Port → Port} (hps : ps.Nodup)
    (hg : ∀ p x y, portView x = portView y → portView (g' p x) = portView (g' p y)) :
    SameDevice (forPorts ps (fun p => modPort p (g' p)) (forPorts ps (fun p => modPort p (g p)) s))
      (forPorts ps (fun p => modPort p fun q => g' p (g p q)) s) := by
  rw [forPorts_modPort_fields g', forPorts_modPort_fields (fun p q => g' p (g p q)), forPorts_modPort_fields g]
  refine ⟨rfl, rfl, rfl, rfl, rfl, rfl, rfl, fun q => ?_⟩
  have first := forPorts_modPort_portView g hps s q
  rw [forPorts_modPort_fields g] at first
  refine (forPorts_modPort_portView g' hps _ q).trans (Eq.trans ?_ (forPorts_modPort_portView _ hps s q).symm)
  split at first
  · rename_i hq
    rw [if_pos hq, if_pos hq]
    exact hg q _ _ first
  · rename_i hq
    rw [if_neg hq, if_neg hq]
    exact first

/-- The ports after a change of some takers. -/
abbrev struck (ps : List PortId) (g : Taker → Taker) (s : State) : Vector Port 8 := (forPorts ps (fun p => modTake p g) s).ports

theorem forPorts_modTake_eq (ps : List PortId) (g : Taker → Taker) (s : State) :
    forPorts ps (fun p => modTake p g) s = { s with ports := struck ps g s } := forPorts_modPort_fields _ ps s

theorem struck_congr {g : Taker → Taker} (h : t.ports = s.ports) : struck ps g t = struck ps g s := forPorts_modPort_ports _ h

theorem Shows.strikes (h : Shows s v u w) (ps : List PortId) (g : Taker → Taker) :
    Shows s (forPorts ps (fun p => Machine.modTake p g) v) { u with ports := struck ps g u } w := by
  rw [← forPorts_modTake_eq]
  exact h.modTakes ps g

theorem Shows.strikesTwice (h : Shows s v u w) (hps : ps.Nodup) (g g' : Taker → Taker) :
    Shows s (forPorts ps (fun p => Machine.modTake p g') (forPorts ps (fun p => Machine.modTake p g) v))
      { u with ports := struck ps (fun t => g' (g t)) u } w := by
  rw [← forPorts_modTake_eq]
  exact ((h.modTakes ps g).modTakes ps g').to (sameDevice_forPorts_twice (g := fun _ q => { q with take := g q.take })
    (g' := fun _ q => { q with take := g' q.take }) hps fun _ _ _ e => portView_take e (congrArg g' (congrArg Port.take e :)))

/-! ## The fire of a source that drives a set -/

theorem fire_set (hs : SetLaw s) (hj : s.sets[j].formed = true) (hmask : (s.source k).mask = s.sets[j].mask)
    (hp : (maskPorts s.sets[j].mask).head? = some p) : fire k s = fireSet j (fireOf k s) (modSource k countFire s) := by
  obtain ⟨ps, hms⟩ := List.head?_eq_some_iff.mp hp
  have distinct := nodup_maskPorts s.sets[j].mask
  rw [hms] at distinct
  have reached (t : State) (ht : FireKeeps (fun _ => True) (modSource k countFire s) t) (q : PortId) (hq : q ∈ p :: ps) :
      firePort (fireOf k s) q t = if p = q then fireSet j (fireOf k s) t else t := by
    have member : t.setOf q = some j := (ht.setOf q).trans (hs.setOf_member hj (hms ▸ hq))
    have head : (maskPorts t.sets[j].mask).head? = some p := by rw [ht.members j]; exact hp
    unfold firePort
    rw [member]
    dsimp only
    rw [head]
    simp only [Option.some.injEq]
  rw [fire_eq, hmask, hms]
  have first := reached _ (.refl _ _) p List.mem_cons_self
  rw [if_pos rfl] at first
  refine (congrArg (forPorts ps (firePort (fireOf k s))) first).trans (forPorts_idle fun q hq => ?_)
  rw [reached _ (fireKeeps_fireSet j _ _ fun _ _ => trivial) q (List.mem_cons_of_mem p hq)]
  exact if_neg fun (e : p = q) => (List.nodup_cons.mp distinct).1 (e ▸ hq)

section
variable (hp : (maskPorts v.sets[j].mask).head? = some p)
include hp

theorem fireSet_skips (hbit : takeBit (v.port p).take = false) : fireSet j f v =
    forPorts (maskPorts v.sets[j].mask) (fun p => modTake p fun t => { t with skips := t.skips + 1 })
      (forPorts (maskPorts v.sets[j].mask) (fun p => modTake p (stepPattern f.number)) v) := by
  unfold fireSet
  dsimp only
  rw [hp]
  dsimp only
  rw [if_neg (by rw [hbit]; decide)]

theorem fireSet_refused {reason : Code × Option PortId} (hbit : takeBit (v.port p).take = true)
    (hr : setRefusal v.sets[j] (forPorts (maskPorts v.sets[j].mask) (fun p => modTake p (stepPattern f.number)) v) = some reason) :
    fireSet j f v = skipSet j reason (forPorts (maskPorts v.sets[j].mask) (fun p => modTake p (stepPattern f.number)) v) := by
  unfold fireSet
  dsimp only
  rw [hp]
  dsimp only
  rw [if_pos hbit, hr]

theorem fireSet_admitted (hbit : takeBit (v.port p).take = true)
    (hr : setRefusal v.sets[j] (forPorts (maskPorts v.sets[j].mask) (fun p => modTake p (stepPattern f.number)) v) = none) :
    fireSet j f v = takeSet j f (forPorts (maskPorts v.sets[j].mask) (fun p => modTake p (stepPattern f.number)) v) := by
  unfold fireSet
  dsimp only
  rw [hp]
  dsimp only
  rw [if_pos hbit, hr]

end

/-! ## The checks -/

/-- The checks read nothing of the takers (R131). -/
theorem setRefusal_modTake (z : FrameSet) (p : PortId) (g : Taker → Taker) (s : State) :
    setRefusal z (modTake p g s) = setRefusal z s := by
  have supplied (q : PortId) : lensSupplied q (modTake p g s) = lensSupplied q s := by
    unfold lensSupplied
    rw [modTake_port_lens]
    rfl
  unfold setRefusal
  simp only [modTake_port_ctl, modTake_port_frame, need_modTake, readImageRecord_modTake, supplied]

theorem setRefusal_struck (z : FrameSet) (g : Taker → Taker) (ps : List PortId) (s : State) :
    setRefusal z (forPorts ps (fun p => modTake p g) s) = setRefusal z s := by
  induction ps generalizing s with
  | nil => rfl
  | cons p ps ih => exact (ih (modTake p g s)).trans (setRefusal_modTake z p g s)

/-- The lowest port of some ports that fails a check. -/
abbrev LeastFailing (ok : PortId → Prop) (ps : List PortId) (p : PortId) : Prop := p ∈ ps ∧ ¬ ok p ∧ ∀ q ∈ ps, q < p → ok q

theorem maskPorts_sorted (m : BitVec 8) : (maskPorts m).Pairwise (· < ·) := List.Pairwise.filter _ (by decide)

theorem find?_least {ok : PortId → Prop} {bad : PortId → Bool} (hbad : ∀ q, bad q = true ↔ ¬ ok q) (hps : ps.Pairwise (· < ·))
    (h : LeastFailing ok ps p) : ps.find? bad = some p := by
  obtain ⟨mem, fails, least⟩ := h
  obtain ⟨before, after, rfl⟩ := List.append_of_mem mem
  have below : ∀ q ∈ before, q < p := fun q hq => (List.pairwise_append.mp hps).2.2 q hq p List.mem_cons_self
  refine List.find?_eq_some_iff_append.mpr ⟨(hbad p).mpr fails, before, after, rfl, fun q hq => ?_⟩
  rw [Bool.not_eq_true', Bool.eq_false_iff]
  exact fun e => (hbad q).mp e (least q (List.mem_append_left _ hq) (below q hq))

theorem find?_none {ok : PortId → Prop} {bad : PortId → Bool} (hbad : ∀ q, bad q = true ↔ ¬ ok q) (h : ∀ q ∈ ps, ok q) :
    ps.find? bad = none := List.find?_eq_none.mpr fun q hq e => (hbad q).mp e (h q hq)

/-- Does a member of a set pass check 4 (R131)? -/
abbrev LensServed (v : State) (p : PortId) : Prop :=
  (v.port p).lens.chain = true → (v.port p).lens.policy = .skipTake → (need (.lens p) v).isSome = true

/-- Does a member of a set pass check 5 (R131)? -/
abbrev SoundlyServed (v : State) (p : PortId) : Prop := ∃ r ∈ need (.image p) v, (readImageRecord r v).isSome = true

theorem not_lensSupplied_iff (q : PortId) : (!lensSupplied q v) = true ↔ ¬ LensServed v q := by
  unfold lensSupplied LensServed
  cases (v.port q).lens.chain <;> simp

theorem unsound_iff (q : PortId) :
    ((need (.image q) v).bind fun a => readImageRecord a v).isNone = true ↔ ¬ SoundlyServed v q := by
  unfold SoundlyServed
  cases need (.image q) v with
  | none => simp
  | some r => simp

section
variable {x : FrameSet}

theorem setRefusal_notReady (h : LeastFailing (fun q => (v.port q).ctl.ready = true) (maskPorts x.mask) p) :
    setRefusal x v = some (.notReady, some p) := by
  unfold setRefusal
  dsimp only
  rw [find?_least (fun q => by simp) (maskPorts_sorted _) h]

variable (hready : ∀ q ∈ maskPorts x.mask, (v.port q).ctl.ready = true)
include hready

theorem setRefusal_overtrigger (h : LeastFailing (fun q => (v.port q).frame.entries.length < 4) (maskPorts x.mask) p) :
    setRefusal x v = some (.overtrigger, some p) := by
  unfold setRefusal
  dsimp only
  rw [find?_none (fun q => by simp) hready]
  dsimp only
  rw [find?_least (fun q => by simp) (maskPorts_sorted _) h]

variable (hroom : ∀ q ∈ maskPorts x.mask, (v.port q).frame.entries.length < 4)
include hroom

theorem setRefusal_fullSet (h : 4 ≤ x.items.length) : setRefusal x v = some (.overtrigger, none) := by
  unfold setRefusal
  dsimp only
  rw [find?_none (fun q => by simp) hready]
  dsimp only
  rw [find?_none (fun q => by simp) hroom]
  dsimp only
  rw [if_pos h]

variable (hitems : x.items.length < 4)
include hitems

/-- The checks from the third on (R131). -/
theorem setRefusal_roomy : setRefusal x v =
    match (maskPorts x.mask).find? fun p => (need (.image p) v).isNone with
    | some p => some (.noBuffer, some p)
    | none =>
      match (maskPorts x.mask).find? fun p => !lensSupplied p v with
      | some p => some (.lensDry, some p)
      | none => ((maskPorts x.mask).find? fun p => ((need (.image p) v).bind fun a => readImageRecord a v).isNone).map fun p =>
          (.badRecord, some p) := by
  unfold setRefusal
  dsimp only
  rw [find?_none (fun q => by simp) hready]
  dsimp only
  rw [find?_none (fun q => by simp) hroom]
  dsimp only
  exact if_neg (Nat.not_le.mpr hitems)

theorem setRefusal_noBuffer (h : LeastFailing (fun q => (need (.image q) v).isSome = true) (maskPorts x.mask) p) :
    setRefusal x v = some (.noBuffer, some p) := by
  rw [setRefusal_roomy hready hroom hitems, find?_least (fun q => by simp) (maskPorts_sorted _) h]

variable (hoffers : ∀ q ∈ maskPorts x.mask, (need (.image q) v).isSome = true)
include hoffers

theorem setRefusal_lensDry (h : LeastFailing (LensServed v) (maskPorts x.mask) p) :
    setRefusal x v = some (.lensDry, some p) := by
  rw [setRefusal_roomy hready hroom hitems, find?_none (fun q => by simp) hoffers]
  dsimp only
  rw [find?_least not_lensSupplied_iff (maskPorts_sorted _) h]

variable (hlens : ∀ q ∈ maskPorts x.mask, LensServed v q)
include hlens

theorem setRefusal_badRecord (h : LeastFailing (SoundlyServed v) (maskPorts x.mask) p) :
    setRefusal x v = some (.badRecord, some p) := by
  rw [setRefusal_roomy hready hroom hitems, find?_none (fun q => by simp) hoffers]
  dsimp only
  rw [find?_none not_lensSupplied_iff hlens]
  dsimp only
  rw [find?_least unsound_iff (maskPorts_sorted _) h, Option.map_some]

theorem setRefusal_none (h : ∀ q ∈ maskPorts x.mask, SoundlyServed v q) : setRefusal x v = none := by
  rw [setRefusal_roomy hready hroom hitems, find?_none (fun q => by simp) hoffers]
  dsimp only
  rw [find?_none not_lensSupplied_iff hlens]
  dsimp only
  rw [find?_none unsound_iff h, Option.map_none]

end

end Sys2Proof.Machine
end

section
/-! PROOFS. SOFT_TRIGGER at a formed set: its skips (R131, R132). -/

namespace Sys2Proof.Machine

variable {s t v u : State} {w z : List BusEvent} {a r : Addr} {k : SourceId} {p : PortId} {f : Fire} {j : SetId} {ps : List PortId}

/-! ## Alerts of some ports -/

/-- The message of an alert that some ports set (R187, R190): one at most, at the first that is new. -/
abbrev alertsMessage (ps : List PortId) (bit : Nat) (u : State) : List BusEvent :=
  if (∃ q ∈ ps, (u.port q).alerts.getLsbD bit = false) ∧ u.chain.cause.getLsbD 2 = false ∧ u.chain.enable.getLsbD 2 = true
    then [.message .alerts] else []

theorem alertsMessage_cons (p : PortId) (ps : List PortId) (bit : Nat) (u : State) :
    alertsMessage (p :: ps) bit u = alertsMessage ps bit (withAlert p bit u) ++ alertMessage p bit u := by
  by_cases old : (u.port p).alerts.getLsbD bit = true
  · have same : withAlert p bit u = u := if_pos old
    rw [same, alertMessage_set old, List.append_nil]
    simp [alertsMessage, old]
  · have new : (u.port p).alerts.getLsbD bit = false := Bool.eq_false_iff.mpr old
    have cause : (withAlert p bit u).chain.cause.getLsbD 2 = true := by
      rw [withAlert_chain, alertedChain, if_neg old]
      simp
    have none : alertsMessage ps bit (withAlert p bit u) = [] := if_neg fun h => by rw [cause] at h; exact nomatch h.2.1
    rw [none, alertMessage_new new, List.nil_append]
    simp [alertsMessage, new]

theorem Shows.setPortAlerts (h : Shows s v u w) (ps : List PortId) (bit : Nat) :
    Shows s (forPorts ps (fun q => Machine.setPortAlert q bit) v) (forPorts ps (fun q => withAlert q bit) u)
      (alertsMessage ps bit u ++ w) := by
  induction ps generalizing v u w with
  | nil =>
    have none : alertsMessage [] bit u = [] := if_neg fun h => by simp at h
    rw [none]
    exact h
  | cons p ps ih =>
    rw [alertsMessage_cons, List.append_assoc]
    exact ih (h.setPortAlert p bit)

/-- The alerts of some ports stand apart from a take. -/
theorem withAlerts_afterTake (ps : List PortId) (bit : Nat) (a : Addr) (u : State) :
    forPorts ps (fun q => withAlert q bit) { u with chain := afterTake a u.chain } =
      { forPorts ps (fun q => withAlert q bit) u with chain := afterTake a (forPorts ps (fun q => withAlert q bit) u).chain } := by
  induction ps generalizing u with
  | nil => rfl
  | cons p ps ih =>
    have one : withAlert p bit { u with chain := afterTake a u.chain } =
        { withAlert p bit u with chain := afterTake a (withAlert p bit u).chain } := by
      rw [withAlert_chain, ← alertedChain_afterTake]
      refine (withAlert_with p bit u (afterTake a u.chain) u.trig).trans ?_
      unfold withAlert
      split <;> rfl
    exact (congrArg (forPorts ps fun q => withAlert q bit) one).trans (ih _)

theorem completionWrites_withAlerts (ps : List PortId) (bit : Nat) (u : State) (code : Code) (bs : List Byte) :
    completionWrites s (forPorts ps (fun q => withAlert q bit) u).chain a code bs = completionWrites s u.chain a code bs := by
  induction ps generalizing u with
  | nil => rfl
  | cons p ps ih =>
    refine (ih (withAlert p bit u)).trans ?_
    rw [withAlert_chain, completionWrites_alerted]

/-! ## Skips of a set -/

theorem Shows.modSet (h : Shows s v u w) (j : SetId) (g : FrameSet → FrameSet) :
    Shows s (Machine.modSet j g v) { u with sets := u.sets.set j (g u.sets[j]) } w :=
  h.still ⟨h.device.pending, h.device.cable, h.device.chain, h.device.power, h.device.trig,
    by rw [← h.device.sets]; rfl, h.device.sweeps, h.device.ports⟩ rfl rfl rfl

/-- A set after a skip (R132). -/
abbrev skipping (reason : Code × Option PortId) (x : FrameSet) : FrameSet := { x with skips := x.skips + 1, reason := some reason }

/-- A skip that neither sets alerts nor completes records. -/
theorem skipSet_plain {reason : Code × Option PortId} (h1 : reason.1 ≠ .noBuffer) (h2 : reason.1 ≠ .badRecord) :
    skipSet j reason s = modSet j (skipping reason) s := by
  unfold skipSet
  dsimp only
  split
  · rename_i e; exact absurd e h1
  · rename_i e; exact absurd e h2
  · rfl

/-- A skip for want of image records (R132). -/
theorem skipSet_noBuffer (m : Option PortId) (s : State) : skipSet j (.noBuffer, m) s =
    forPorts ((maskPorts s.sets[j].mask).filter fun p => (need (.image p) s).isNone) (fun p => setPortAlert p 7)
      (modSet j (skipping (.noBuffer, m)) s) := rfl

/-- A skip for one unsound image record (R132). -/
theorem skipSet_badRecord {m : Option PortId} (hp : p ∈ maskPorts s.sets[j].mask) (hneed : need (.image p) s = some r)
    (hbad : readImageRecord r s = none) (hothers : ∀ q ∈ maskPorts s.sets[j].mask, q ≠ p → SoundlyServed s q) :
    skipSet j (.badRecord, m) s = dropUnsound (p, r) (modSet j (skipping (.badRecord, m)) s) := by
  have own : unsoundOffer p s = some (p, r) := by
    unfold unsoundOffer
    rw [hneed, Option.bind_some, hbad]
    rfl
  have other (q : PortId) (hq : q ∈ maskPorts s.sets[j].mask) (hne : q ≠ p) : unsoundOffer q s = none := by
    obtain ⟨b, hb, sound⟩ := hothers q hq hne
    unfold unsoundOffer
    rw [hb, Option.bind_some, if_neg (by rw [Option.isNone_iff_eq_none]; exact Option.isSome_iff_ne_none.mp sound)]
  have one (l : List PortId) (hl : l.Nodup) (hmem : p ∈ l) (hin : ∀ q ∈ l, q ∈ maskPorts s.sets[j].mask) :
      l.filterMap (fun p => unsoundOffer p s) = [(p, r)] := by
    obtain ⟨x, y, rfl⟩ := List.append_of_mem hmem
    have apart : ∀ q ∈ x ++ y, q ≠ p := fun q hq e => (List.nodup_middle.mp hl |> List.nodup_cons.mp).1 (e ▸ hq)
    have none (l' : List PortId) (h : ∀ q ∈ l', q ∈ x ++ y) : l'.filterMap (fun p => unsoundOffer p s) = [] :=
      List.filterMap_eq_nil_iff.mpr fun q hq => other q (hin q (by
        rcases List.mem_append.mp (h q hq) with h | h
        · exact List.mem_append_left _ h
        · exact List.mem_append_right _ (List.mem_cons_of_mem p h))) (apart q (h q hq))
    rw [List.filterMap_append, List.filterMap_cons, own, none x fun q hq => List.mem_append_left _ hq,
      none y fun q hq => List.mem_append_right _ hq]
    rfl
  unfold skipSet
  dsimp only
  rw [one _ (nodup_maskPorts _) hp fun _ h => h]
  rfl

/-! ## The command -/

/-- The card after a fire of a source at a set, its members' takers changed. -/
abbrev setStruck (j : SetId) (k : SourceId) (g : Taker → Taker) (s : State) : State :=
  { s with ports := struck (maskPorts s.sets[j].mask) g s, trig := firedTrig k s }

/-- The card as a fire finds it once the command is taken. -/
abbrev fireStart (a : Addr) (k : SourceId) (s : State) : State := modSource k countFire (takeCommand a s)

/-- The card once the fire has stepped the patterns of a set's members. -/
abbrev fireStepped (a : Addr) (j : SetId) (k : SourceId) (s : State) : State :=
  forPorts (maskPorts s.sets[j].mask) (fun p => modTake p (stepPattern ((s.source k).number + 1))) (fireStart a k s)

theorem shows_fireStepped (a : Addr) (j : SetId) (k : SourceId) (s : State) : Shows s (fireStepped a j k s)
    { setStruck j k (stepPattern ((s.source k).number + 1)) s with chain := afterTake a s.chain } [takenWrite a] := by
  have stepped := (shows_fireBegun a k s).strikes (maskPorts s.sets[j].mask) (stepPattern ((s.source k).number + 1))
  rw [struck_congr (t := fireBegun a k s) (s := s) rfl] at stepped
  exact stepped

theorem fireStepped_sets : (fireStepped a j k s).sets = s.sets := forPorts_modTake_sets ..

theorem need_fireStepped (ch : ChainId) : need ch (fireStepped a j k s) = need ch (fireChecked a k s) := by
  rw [fireStepped, forPorts_modTake_eq]
  rfl

theorem readImageRecord_fireStepped : readImageRecord r (fireStepped a j k s) = readImageRecord r (fireChecked a k s) := by
  rw [fireStepped, forPorts_modTake_eq]
  rfl

theorem recordKind_fireStepped : recordKind r (fireStepped a j k s) = recordKind r (fireChecked a k s) := by
  rw [fireStepped, forPorts_modTake_eq]
  rfl

theorem soundlyServed_fireStepped : SoundlyServed (fireStepped a j k s) p ↔ SoundlyServed (fireChecked a k s) p := by
  unfold SoundlyServed
  simp only [need_fireStepped, readImageRecord_fireStepped]

theorem modTakes_port_alerts (g : Taker → Taker) (s : State) (q : PortId) :
    ((forPorts ps (fun p => modTake p g) s).port q).alerts = (s.port q).alerts := by
  induction ps generalizing s with
  | nil => rfl
  | cons p ps ih => exact (ih (modTake p g s)).trans (modTake_port_alerts ..)

/-- A fire at a set whose take attempt is refused. -/
theorem fire_refused (hl : SetLaw s) (hj : s.sets[j].formed = true) (hmask : (s.source k).mask = s.sets[j].mask)
    (hp : (maskPorts s.sets[j].mask).head? = some p) (hbit : takeBit (s.port p).take = true) {reason : Code × Option PortId}
    (hr : setRefusal s.sets[j] (fireStart a k s) = some reason) :
    fire k (takeCommand a s) = skipSet j reason (fireStepped a j k s) := by
  rw [fire_set (s := takeCommand a s) hl hj hmask hp]
  exact fireSet_refused (v := fireStart a k s) hp hbit ((setRefusal_struck ..).trans hr)

section
variable (hs : CommandReady a s) (hl : SetLaw s) (hj : s.sets[j].formed = true) (hmask : (s.source k).mask = s.sets[j].mask)
  (hn : (s.source k).number ≠ 0xFFFFFFFF) (hp : (maskPorts s.sets[j].mask).head? = some p)
include hs hl hj hmask hn hp

/-- SOFT_TRIGGER at a set whose pattern skips (R130). -/
theorem softTrigger_setSkips (hbit : takeBit (s.port p).take = false) :
    ∃ t, exec (.softTrigger a (BitVec.ofNat 8 k.val)) s = .next t ∧ CommandDone a .ok (u32 ((s.source k).number + 1)) s t
      (setStruck j k (fun t => { stepPattern ((s.source k).number + 1) t with skips := t.skips + 1 }) s) := by
  refine softTrigger_done hs hn ?_
  rw [fire_set (s := takeCommand a s) hl hj hmask hp, fireSet_skips (v := fireStart a k s) hp hbit]
  have stepped := (shows_fireBegun a k s).strikesTwice (nodup_maskPorts s.sets[j].mask) (stepPattern ((s.source k).number + 1))
    fun t => { t with skips := t.skips + 1 }
  rw [struck_congr (t := fireBegun a k s) (s := s) rfl] at stepped
  exact stepped

variable (hbit : takeBit (s.port p).take = true)
include hbit

/-- SOFT_TRIGGER at a set whose take attempt is refused before the chains are touched (R131, R132). -/
theorem softTrigger_setRefused {reason : Code × Option PortId} (hr : setRefusal s.sets[j] (fireStart a k s) = some reason)
    (h1 : reason.1 ≠ .noBuffer) (h2 : reason.1 ≠ .badRecord) :
    ∃ t, exec (.softTrigger a (BitVec.ofNat 8 k.val)) s = .next t ∧ CommandDone a .ok (u32 ((s.source k).number + 1)) s t
      { setStruck j k (stepPattern ((s.source k).number + 1)) s with sets := s.sets.set j (skipping reason s.sets[j]) } := by
  refine softTrigger_done hs hn ?_
  rw [fire_refused hl hj hmask hp hbit hr, skipSet_plain h1 h2]
  exact (shows_fireStepped a j k s).modSet j (skipping reason)

/-- SOFT_TRIGGER at a set with members without an image record (R131, R132). -/
theorem softTrigger_setUnserved {m : Option PortId} (hr : setRefusal s.sets[j] (fireStart a k s) = some (.noBuffer, m)) :
    let short := (maskPorts s.sets[j].mask).filter fun q => (need (.image q) (fireChecked a k s)).isNone
    let u := forPorts short (fun q => withAlert q 7)
      { setStruck j k (stepPattern ((s.source k).number + 1)) s with sets := s.sets.set j (skipping (.noBuffer, m) s.sets[j]) }
    ∃ t, exec (.softTrigger a (BitVec.ofNat 8 k.val)) s = .next t ∧
      Ends s t { u with chain := afterCompletion a (afterTake a u.chain) }
        (completionWrites s s.chain a .ok (u32 ((s.source k).number + 1)) ++ alertsMessage short 7 s ++ [takenWrite a]) := by
  intro short u
  have members : ((maskPorts (fireStepped a j k s).sets[j].mask).filter fun p =>
      (need (.image p) (fireStepped a j k s)).isNone) = short := by
    rw [fireStepped_sets]
    simp only [need_fireStepped]
    rfl
  let u₀ : State :=
    { setStruck j k (stepPattern ((s.source k).number + 1)) s with sets := s.sets.set j (skipping (.noBuffer, m) s.sets[j]) }
  have message : alertsMessage short 7 { u₀ with chain := afterTake a u₀.chain } = alertsMessage short 7 s := by
    have alerts (q : PortId) : (({ u₀ with chain := afterTake a u₀.chain } : State).port q).alerts = (s.port q).alerts :=
      modTakes_port_alerts ..
    unfold alertsMessage
    simp only [alerts]
    rfl
  have told : Shows s
      (forPorts short (fun q => Machine.setPortAlert q 7) (Machine.modSet j (skipping (.noBuffer, m)) (fireStepped a j k s)))
      (forPorts short (fun q => withAlert q 7) { u₀ with chain := afterTake a u₀.chain }) _ :=
    ((shows_fireStepped a j k s).modSet j (skipping (.noBuffer, m))).setPortAlerts short 7
  have fired : fire k (takeCommand a s) = _ := fire_refused hl hj hmask hp hbit hr
  rw [skipSet_noBuffer, members] at fired
  rw [← fired, withAlerts_afterTake, message] at told
  obtain ⟨t, next, ends⟩ := softTrigger_ends hs hn told (spares_append.mpr ⟨spares_message _ a, takenWrite_apart a⟩)
  refine ⟨t, next, ?_⟩
  have writes : completionWrites s (forPorts short (fun q => withAlert q 7) u₀).chain a .ok (u32 ((s.source k).number + 1)) =
      completionWrites s s.chain a .ok (u32 ((s.source k).number + 1)) := completionWrites_withAlerts ..
  rw [List.append_assoc, ← writes]
  exact ends

/-- SOFT_TRIGGER at a set with one member's image record unsound (R131, R132). -/
theorem softTrigger_setUnsound {m : Option PortId} {q : PortId} (hr : setRefusal s.sets[j] (fireStart a k s) = some (.badRecord, m))
    (hq : q ∈ maskPorts s.sets[j].mask) (hneed : need (.image q) (fireChecked a k s) = some r)
    (hbad : readImageRecord r (fireChecked a k s) = none)
    (hothers : ∀ q' ∈ maskPorts s.sets[j].mask, q' ≠ q → SoundlyServed (fireChecked a k s) q') (hrec : 0xD0 ≤ distanceFrom r a.toNat)
    (hprog : 0x10 ≤ distanceFrom (blockAt (0xC0 + 16 * (1 + q.val)) s) a.toNat) :
    ∃ t, exec (.softTrigger a (BitVec.ofNat 8 k.val)) s = .next t ∧
      Ends s t { setStruck j k (stepPattern ((s.source k).number + 1)) s with
          sets := s.sets.set j (skipping (.badRecord, m) s.sets[j])
          chain := afterCompletion a (afterCompletionOf (chainIndex (.image q)) .frames r
            (afterTake a (recordTaken (.image q) r s.chain))) }
        (completionWrites s (afterCompletionOf (chainIndex (.image q)) .frames r s.chain) a .ok (u32 ((s.source k).number + 1))
          ++ completionTail s s.chain (chainIndex (.image q)) .frames r false
          ++ [.write (r + 0x48) ((leBytes 2 4 ++ zeros 0x86).take (if recordKind r (fireChecked a k s) = 3 then 0x38 else 0x88)),
            takenWrite a]) := by
  have told := ((shows_fireStepped a j k s).modSet j (skipping (.badRecord, m))).dropsUnsound q r
  have fired : fire k (takeCommand a s) = dropUnsound (q, r) (modSet j (skipping (.badRecord, m)) (fireStepped a j k s)) := by
    rw [fire_refused hl hj hmask hp hbit hr]
    refine skipSet_badRecord (by rw [fireStepped_sets]; exact hq) ((need_fireStepped ..).trans hneed)
      (readImageRecord_fireStepped.trans hbad) fun q' hq' hne => soundlyServed_fireStepped.mpr (hothers q' ?_ hne)
    rwa [fireStepped_sets] at hq'
  have kind : recordKind r (Machine.modSet j (skipping (.badRecord, m)) (fireStepped a j k s)) = recordKind r (fireChecked a k s) :=
    recordKind_fireStepped
  rw [← fired, kind] at told
  obtain ⟨t, next, ends⟩ := softTrigger_ends hs hn told (spares_dropped _ hrec hprog (takenWrite_apart a))
  refine ⟨t, next, ?_⟩
  rw [← afterTake_recordTaken a (chainIndex_image_ne q), List.append_assoc]
  exact ends

end

end Sys2Proof.Machine
end

section
/-! PROOFS. SOFT_TRIGGER at a formed set: its take (R131, R133). -/

namespace Sys2Proof.Machine

variable {s t v u : State} {w z : List BusEvent} {a : Addr} {k : SourceId} {p : PortId} {f : Fire} {j : SetId} {ps : List PortId}
  {set : Option (SetId × U32)} {r : PortId → Addr} {x : PortId → Addr × Nat × Nat × StoreFormat}

/-! ## The members bind -/

theorem forPorts_modPort_withChain (g : PortId → Port → Port) (ps : List PortId) (c : ChainEngine) (s : State) :
    forPorts ps (fun p => modPort p (g p)) { s with chain := c } = { forPorts ps (fun p => modPort p (g p)) s with chain := c } := by
  induction ps generalizing s with
  | nil => rfl
  | cons p ps ih => exact ih (modPort p (g p) s)

/-- What a member offers in lens mode OFF. -/
abbrev imageOffer (r : PortId → Addr) (x : PortId → Addr × Nat × Nat × StoreFormat) (p : PortId) : Offer := ⟨r p, x p, none⟩

/-- Every member binds the record that its chain offered (R133, log 40). -/
theorem Shows.bindsMembers (h : Shows s v u w) (ps : List PortId) (f : Fire) (set : Option (SetId × U32)) (r : PortId → Addr)
    (x : PortId → Addr × Nat × Nat × StoreFormat) :
    Shows s (ps.foldl (fun t p => bindTake p f set (imageOffer r x p) t) v)
      { forPorts ps (fun p => Machine.modPort p (bindingPort f set (imageOffer r x p))) u with
        chain := ps.foldl (fun c p => recordTaken (.image p) (r p) c) u.chain }
      ((ps.reverse.map fun p => bindWrites f set (r p) none).flatten ++ w) := by
  induction ps generalizing v u w with
  | nil => exact h
  | cons p ps ih =>
    have one : Shows s (bindTake p f set (imageOffer r x p) v)
        { Machine.modPort p (bindingPort f set (imageOffer r x p)) u with chain := recordTaken (.image p) (r p) u.chain }
        (bindWrites f set (r p) none ++ w) :=
      ((h.bindsImage (buffer := x p) p f set (r p)).onePort p).binds
    have all := ih one
    rw [forPorts_modPort_withChain] at all
    have writes : ((p :: ps).reverse.map fun p => bindWrites f set (r p) none).flatten ++ w =
        (ps.reverse.map fun p => bindWrites f set (r p) none).flatten ++ (bindWrites f set (r p) none ++ w) := by
      simp
    have cons : forPorts (p :: ps) (fun p => Machine.modPort p (bindingPort f set (imageOffer r x p))) u =
        forPorts ps (fun p => Machine.modPort p (bindingPort f set (imageOffer r x p)))
          (Machine.modPort p (bindingPort f set (imageOffer r x p)) u) := rfl
    rw [writes, cons, List.foldl_cons, List.foldl_cons]
    exact all

/-! ## The entries in the hands of the Lens Controllers -/

/-- A busy port in lens mode OFF whose one entry waits for its phase. -/
structure LoneWaiting (e : Entry) (x : Port) : Prop where
  list : x.frame.entries = [e]
  waits : e.phase = .lensWait
  noRecord : e.lensRec = none
  lensOff : x.lens.chain = false
  noPhase : x.lens.phase = none
  noTable : x.lens.held = []
  busy : x.ctl.state ≠ .idle

/-- Such a port once its entry's EXPOSE is queued (R98). -/
abbrev exposing (e : Entry) (x : Port) : Port := { x with
  frame := { x.frame with entries := [phased e .none 0] }
  ctl := { x.ctl with exposes := x.ctl.exposes ++ [e.trigger] }
  lens := unclamped x.lens }

theorem Shows.handsEntries (h : Shows s v u w) {e : PortId → Entry} (hps : ps.Nodup) (hq : ∀ p ∈ ps, LoneWaiting (e p) (u.port p)) :
    Shows s (forPorts ps handEntry v) (forPorts ps (fun p => Machine.modPort p (exposing (e p))) u) w := by
  induction ps generalizing v u with
  | nil => exact h
  | cons p ps ih =>
    obtain ⟨hp, hps⟩ := List.nodup_cons.mp hps
    obtain ⟨list, waits, noRecord, lensOff, noPhase, noTable, busy⟩ := hq p List.mem_cons_self
    have exposed := (h.onePort p).exposesAtOnce list waits noRecord lensOff noPhase noTable
    have one : Shows s (handEntry p v) (Machine.modPort p (exposing (e p)) u) w := exposed.chooses_busy busy
    refine ih one hps fun q hmem => ?_
    rw [modPort_port, if_neg (show q ≠ p by rintro rfl; exact hp hmem)]
    exact hq q (List.mem_cons_of_mem p hmem)

/-! ## The take -/

theorem modTakes_port_lens (g : Taker → Taker) (s : State) (q : PortId) :
    ((forPorts ps (fun p => modTake p g) s).port q).lens = (s.port q).lens := by
  induction ps generalizing s with
  | nil => rfl
  | cons p ps ih => exact (ih (modTake p g s)).trans (modTake_port_lens ..)

/-- A set after a take (R133). -/
abbrev withItem (f : Fire) (r : PortId → Addr) (x : FrameSet) : FrameSet := { x with
  number := x.number + 1
  items := x.items ++ [{ number := x.number + 1, source := f.source, trigger := f.number
                         slots := (maskPorts x.mask).map fun p => { port := p, image := r p, status := none } }] }

theorem modSet_of_eq {g : FrameSet → FrameSet} {y : FrameSet} (h : g t.sets[j] = y) : modSet j g t = modSet j (fun _ => y) t := by
  unfold modSet
  rw [h]

/-- A set's take whose members' chains offer records that are sound, and no lens records. -/
theorem takeSet_eq (hoffers : ∀ p ∈ maskPorts s.sets[j].mask, soundOffer p s = some (imageOffer r x p)) :
    takeSet j f s = forPorts (maskPorts s.sets[j].mask) handEntry (modSet j (fun _ => withItem f r s.sets[j])
      ((maskPorts s.sets[j].mask).foldl (fun t p => bindTake p f (some (j, s.sets[j].number + 1)) (imageOffer r x p) t) s)) := by
  have offers : ((maskPorts s.sets[j].mask).filterMap fun p => (soundOffer p s).map fun y => (p, y)) =
      (maskPorts s.sets[j].mask).map fun p => (p, imageOffer r x p) := by
    rw [← List.filterMap_eq_map]
    exact List.filterMap_congr fun p hp => by rw [hoffers p hp]; rfl
  have sets := bindMembers_sets f j (s.sets[j].number + 1) ((maskPorts s.sets[j].mask).map fun p => (p, imageOffer r x p)) s
  unfold takeSet
  dsimp only
  rw [offers, modSet_of_eq (y := withItem f r s.sets[j]) (by rw [sets, List.map_map]; rfl), List.foldl_map]
  rfl

/-- A member's port after the bind. -/
abbrev boundMember (n : U32) (f : Fire) (set : Option (SetId × U32)) (o : Offer) (x : Port) : Port := bindingPort f set o (steppedPort n x)

/-- A change of some ports, as the vector of all ports. -/
abbrev changed (ps : List PortId) (g : PortId → Port → Port) (s : State) : Vector Port 8 :=
  Vector.ofFn fun q => if q ∈ ps then g q (s.port q) else s.port q

theorem changed_port (g : PortId → Port → Port) (s : State) (c : ChainEngine) (d : TriggerCell) (e : Vector FrameSet 4) (q : PortId) :
    ({ s with chain := c, trig := d, sets := e, ports := changed ps g s } : State).port q =
      if q ∈ ps then g q (s.port q) else s.port q := by
  simp [State.port, changed]

/-- What the ports of two successive changes show. -/
theorem forPorts_twice_portView {g g' : PortId → Port → Port} (hps : ps.Nodup)
    (hg : ∀ p x y, portView x = portView y → portView (g' p x) = portView (g' p y)) (s : State) (q : PortId) :
    portView ((forPorts ps (fun p => modPort p (g' p)) (forPorts ps (fun p => modPort p (g p)) s)).port q) =
      if q ∈ ps then portView (g' q (g q (s.port q))) else portView (s.port q) :=
  ((sameDevice_forPorts_twice hps hg).ports q).trans (forPorts_modPort_portView (fun p q => g' p (g p q)) hps s q)

/-- The members of a set step their patterns and bind, and the set takes its item. -/
theorem Shows.bindsSet (h : Shows s v u w) (hps : ps.Nodup) (n : U32) (f : Fire) (set : Option (SetId × U32)) (j : SetId) (y : FrameSet) :
    Shows s (Machine.modSet j (fun _ => y)
        (ps.foldl (fun t p => bindTake p f set (imageOffer r x p) t) (forPorts ps (fun p => Machine.modTake p (stepPattern n)) v)))
      { u with chain := ps.foldl (fun c p => recordTaken (.image p) (r p) c) u.chain, sets := u.sets.set j y
               ports := changed ps (fun p => boundMember n f set (imageOffer r x p)) u }
      ((ps.reverse.map fun p => bindWrites f set (r p) none).flatten ++ w) := by
  have device := (sameDevice_forPorts_twice (s := u) (g := fun _ q => { q with take := stepPattern n q.take })
    (g' := fun p => bindingPort f set (imageOffer r x p)) hps fun p _ _ e =>
      (congrArg (bindingPort f set (imageOffer r x p)) e :)).trans (sameDevice_forPorts _ hps u)
  refine (((h.modTakes ps (stepPattern n)).bindsMembers ps f set r x).modSet j fun _ => y).to ?_
  exact ⟨device.pending, device.cable, congrArg (fun c => chainView (ps.foldl (fun c p => recordTaken (.image p) (r p) c) c))
    (modTakes_chain ps (stepPattern n) u), device.power, device.trig, congrArg (fun l => Vector.set l j y) device.sets, device.sweeps,
    device.ports⟩

/-- A busy port in lens mode OFF without exposure entries. -/
structure FreeMember (x : Port) : Prop where
  empty : x.frame.entries = []
  busy : x.ctl.state ≠ .idle
  noPhase : x.lens.phase = none
  noTable : x.lens.held = []
  lensOff : x.lens.chain = false

theorem FreeMember.loneWaiting {y : Port} (h : FreeMember y) (n : U32) (f : Fire) (set : Option (SetId × U32)) (p : PortId) :
    LoneWaiting (boundEntry f set (imageOffer r x p)) (boundMember n f set (imageOffer r x p) y) :=
  ⟨congrArg (· ++ [boundEntry f set (imageOffer r x p)]) h.empty, rfl, rfl, h.lensOff, h.noPhase, h.noTable, h.busy⟩

/-- The members of a set take: the takers first, and the rest of every port in one change. -/
theorem Shows.takesSet (h : Shows s v u w) (hps : ps.Nodup) (hfree : ∀ p ∈ ps, FreeMember (u.port p)) (n : U32) (f : Fire)
    (set : Option (SetId × U32)) (j : SetId) (y : FrameSet) :
    Shows s (forPorts ps handEntry (Machine.modSet j (fun _ => y)
        (ps.foldl (fun t p => bindTake p f set (imageOffer r x p) t) (forPorts ps (fun p => Machine.modTake p (stepPattern n)) v))))
      { forPorts ps (fun p => Machine.modPort p (exposing (boundEntry f set (imageOffer r x p))))
          { u with ports := struck ps (fun t => { stepPattern n t with takes := t.takes + 1 }) u } with
        chain := ps.foldl (fun c p => recordTaken (.image p) (r p) c) u.chain, sets := u.sets.set j y }
      ((ps.reverse.map fun p => bindWrites f set (r p) none).flatten ++ w) := by
  let e (p : PortId) := boundEntry f set (imageOffer r x p)
  let b : State := { u with
    chain := ps.foldl (fun c p => recordTaken (.image p) (r p) c) u.chain, sets := u.sets.set j y
    ports := changed ps (fun p => boundMember n f set (imageOffer r x p)) u }
  have port (q : PortId) : b.port q = if q ∈ ps then boundMember n f set (imageOffer r x q) (u.port q) else u.port q :=
    changed_port _ u _ u.trig _ q
  have handed := (h.bindsSet (r := r) (x := x) hps n f set j y).handsEntries (u := b) (e := e) hps fun p hp => by
    rw [port, if_pos hp]
    exact (hfree p hp).loneWaiting n f set p
  have first := sameDevice_forPorts (fun p => exposing (e p)) hps b
  have respects (p : PortId) (y z : Port) (h : portView y = portView z) : portView (exposing (e p) y) = portView (exposing (e p) z) :=
    (congrArg (exposing (e p)) h :)
  have last := (sameDevice_forPorts_twice (s := u)
    (g := fun _ q => { q with take := { stepPattern n q.take with takes := q.take.takes + 1 } })
    hps respects).trans (sameDevice_forPorts _ hps u)
  rw [← forPorts_modTake_eq]
  refine handed.to ⟨first.pending.trans last.pending.symm, first.cable.trans last.cable.symm, first.chain,
    first.power.trans last.power.symm, first.trig.trans last.trig.symm, first.sets, first.sweeps.trans last.sweeps.symm, fun q => ?_⟩
  refine (forPorts_modPort_portView (fun p => exposing (e p)) hps b q).trans (Eq.trans ?_ (forPorts_twice_portView hps respects u q).symm)
  rw [port]
  by_cases hq : q ∈ ps
  · simp only [if_pos hq]
    rfl
  · simp only [if_neg hq]

/-- The records that the members take, and the command record. -/
theorem foldl_recordTaken_afterTake (ps : List PortId) (r : PortId → Addr) (a : Addr) (c : ChainEngine) :
    ps.foldl (fun c p => recordTaken (.image p) (r p) c) (afterTake a c) =
      afterTake a (ps.foldl (fun c p => recordTaken (.image p) (r p) c) c) := by
  induction ps generalizing c with
  | nil => rfl
  | cons p ps ih => rw [List.foldl_cons, List.foldl_cons, afterTake_recordTaken a (chainIndex_image_ne p), ih]

theorem completionWrites_recordsTaken (ps : List PortId) (r : PortId → Addr) (c : ChainEngine) (code : Code) (bs : List Byte) :
    completionWrites s (ps.foldl (fun c p => recordTaken (.image p) (r p) c) c) a code bs = completionWrites s c a code bs := by
  induction ps generalizing c with
  | nil => rfl
  | cons p ps ih => exact ih (recordTaken (.image p) (r p) c)

theorem spares_flatten {ls : List (List BusEvent)} (h : ∀ l ∈ ls, Spares l a) : Spares ls.flatten a := by
  induction ls with
  | nil => exact spares_none a
  | cons l ls ih =>
    exact spares_append.mpr ⟨h l List.mem_cons_self, ih fun l' hl' => h l' (List.mem_cons_of_mem l hl')⟩

section
variable (hs : CommandReady a s) (hl : SetLaw s) (hj : s.sets[j].formed = true) (hmask : (s.source k).mask = s.sets[j].mask)
  (hn : (s.source k).number ≠ 0xFFFFFFFF) (hp : (maskPorts s.sets[j].mask).head? = some p)
  (hbit : takeBit (s.port p).take = true) (hready : ∀ q ∈ maskPorts s.sets[j].mask, (s.port q).ctl.ready = true)
  (hitems : s.sets[j].items.length < 4)
  (hmem : ∀ p ∈ maskPorts s.sets[j].mask, (s.port p).frame.entries = [] ∧ (s.port p).ctl.state ≠ .idle ∧ (s.port p).lens.phase = none ∧
    (s.port p).lens.held = [] ∧ (s.port p).lens.chain = false ∧ need (.image p) (fireChecked a k s) = some (r p) ∧
    readImageRecord (r p) (fireChecked a k s) = some (x p) ∧ 0x48 ≤ distanceFrom (r p) a.toNat)

include hl hj hmask hp hbit hready hitems hmem in
/-- A fire at a set whose take attempt is admitted (R131). -/
theorem fire_admitted : fire k (takeCommand a s) = takeSet j (fireOf k s) (fireStepped a j k s) := by
  have admitted : setRefusal s.sets[j] (fireStart a k s) = none := by
    refine setRefusal_none (v := fireStart a k s) hready (fun q hq => ?_) hitems (fun q hq => ?_) (fun q hq => ?_) fun q hq => ?_
    · obtain ⟨empty, -⟩ := hmem q hq
      rw [show ((fireStart a k s).port q).frame.entries = [] from empty]
      decide
    · obtain ⟨-, -, -, -, -, offered, -⟩ := hmem q hq
      exact Option.isSome_of_eq_some offered
    · obtain ⟨-, -, -, -, off, -⟩ := hmem q hq
      exact fun on => by rw [show ((fireStart a k s).port q).lens.chain = false from off] at on; cases on
    · obtain ⟨-, -, -, -, -, offered, sound, -⟩ := hmem q hq
      exact ⟨r q, offered, Option.isSome_of_eq_some sound⟩
  rw [fire_set (s := takeCommand a s) hl hj hmask hp]
  exact fireSet_admitted (v := fireStart a k s) hp hbit ((setRefusal_struck ..).trans admitted)

include hmem in
/-- The offers of the members at the checks. -/
theorem soundOffer_fireStepped (q : PortId) (hq : q ∈ maskPorts s.sets[j].mask) :
    soundOffer q (fireStepped a j k s) = some (imageOffer r x q) := by
  obtain ⟨-, -, -, -, off, offered, sound, -⟩ := hmem q hq
  have off : ((fireStepped a j k s).port q).lens.chain = false := (congrArg LensState.chain (modTakes_port_lens _ _ q)).trans off
  rw [soundOffer_eq ((need_fireStepped _).trans offered) (readImageRecord_fireStepped.trans sound), lensOffered_off off, Option.map_none]

include hs hl hj hmask hn hp hbit hready hitems hmem

/-- SOFT_TRIGGER at a set with a take (R131, R133). -/
theorem softTrigger_setTakes :
    let n := (s.source k).number + 1
    let ms := maskPorts s.sets[j].mask
    let set := some (j, s.sets[j].number + 1)
    ∃ t, exec (.softTrigger a (BitVec.ofNat 8 k.val)) s = .next t ∧
      Ends s t { forPorts ms (fun p => modPort p (exposing (boundEntry (fireOf k s) set (imageOffer r x p))))
            (setStruck j k (fun t => { stepPattern n t with takes := t.takes + 1 }) s) with
          chain := afterCompletion a (afterTake a (ms.foldl (fun c p => recordTaken (.image p) (r p) c) s.chain))
          sets := s.sets.set j (withItem (fireOf k s) r s.sets[j]) }
        (completionWrites s s.chain a .ok (u32 n) ++ (ms.reverse.map fun p => bindWrites (fireOf k s) set (r p) none).flatten
          ++ [takenWrite a]) := by
  intro n ms set
  have distinct : ms.Nodup := nodup_maskPorts _
  have fired := fire_admitted hl hj hmask hp hbit hready hitems hmem
  rw [takeSet_eq (r := r) (x := x) (by rw [fireStepped_sets]; exact soundOffer_fireStepped hmem), fireStepped_sets] at fired
  have told := (shows_fireBegun a k s).takesSet (r := r) (x := x) distinct (fun q hq => ?_) n (fireOf k s) set j
    (withItem (fireOf k s) r s.sets[j])
  · rw [struck_congr (t := fireBegun a k s) (s := s) rfl] at told
    rw [← fired] at told
    let u := setStruck j k (fun t => { stepPattern n t with takes := t.takes + 1 }) s
    have apart := forPorts_modPort_withChain (fun p => exposing (boundEntry (fireOf k s) set (imageOffer r x p))) ms (afterTake a s.chain) u
    have shown : Shows s (fire k (takeCommand a s))
        { { forPorts ms (fun p => Machine.modPort p (exposing (boundEntry (fireOf k s) set (imageOffer r x p)))) u with
            chain := afterTake a s.chain } with
          chain := ms.foldl (fun c p => recordTaken (.image p) (r p) c) (afterTake a s.chain)
          sets := s.sets.set j (withItem (fireOf k s) r s.sets[j]) }
        ((ms.reverse.map fun p => bindWrites (fireOf k s) set (r p) none).flatten ++ [takenWrite a]) := by
      rw [← apart]
      exact told
    have bound : Spares (ms.reverse.map fun p => bindWrites (fireOf k s) set (r p) none).flatten a := by
      refine spares_flatten fun l hl => ?_
      obtain ⟨q, hq, rfl⟩ := List.mem_map.mp hl
      obtain ⟨-, -, -, -, -, -, -, apart⟩ := hmem q (List.mem_reverse.mp hq)
      exact spares_bindWrites _ _ none apart
    obtain ⟨t, next, ends⟩ := softTrigger_ends hs hn shown (spares_append.mpr ⟨bound, takenWrite_apart a⟩)
    refine ⟨t, next, ?_⟩
    have writes : completionWrites s s.chain a .ok (u32 n) =
        completionWrites s (ms.foldl (fun c p => recordTaken (.image p) (r p) c) (afterTake a s.chain)) a .ok (u32 n) := by
      rw [foldl_recordTaken_afterTake]
      exact (completionWrites_recordsTaken ms r s.chain .ok (u32 n)).symm
    rw [← foldl_recordTaken_afterTake, writes, List.append_assoc]
    exact ends
  · obtain ⟨empty, busy, noPhase, noTable, off, -⟩ := hmem q hq
    exact ⟨empty, busy, noPhase, noTable, off⟩

end

end Sys2Proof.Machine
end

section
/-! PROOFS. SOFT_TRIGGER, put together (R67, R73, R74, R76 to R79, R88, R89, R130 to R133). -/

namespace Sys2Proof.Machine

/-- Settles O55: a source that drives no port, a port in no set without and with an older entry, and a formed set, each by the fire that the
command makes. -/
theorem softTrigger : Obligations.SoftTrigger := by
  refine ⟨fun a k s hs hn hmask => ?_, fun a k p s hs hmask hset hn => ?_,
    fun a k p r buf size stride fmt old s hs hmask hset hn => ?_, fun a k j s hs hl hj hmask hn => ?_⟩
  · intro x ends
    obtain ⟨spent, live⟩ := countFire_ends x
    obtain ⟨t, next, done⟩ := softTrigger_done (u := { s with trig := firedTrig k s }) hs hn (by
      rw [fire_unheard (s := takeCommand a s) hmask]
      exact shows_fireBegun a k s)
    exact ⟨t, _, next, spent, live, done⟩
  · intro q n i trig base h ends dry
    have refused (t : Taker) (ht : refusedTaker n q = some t) : ∃ y, exec i s = .next y ∧ ends t y :=
      softTrigger_refused hs hn hmask hset ((shows_fireBegun a k s).firesRefused (f := fireOf k s) ht)
    refine ⟨fun bit => refused _ ?_, fun bit ready => refused _ ?_, fun bit ready full => refused _ ?_,
      softTrigger_unserved hs hn hmask hset, softTrigger_dry hs hn hmask hset, fun r bit ready room offered supplied bad hrec hprog => ?_,
      fun r b ht hrec => softTrigger_takesAtOnce hs hn hmask hset ht hrec⟩
    · rw [refusedTaker, if_pos bit]
    · rw [refusedTaker, if_neg (by rw [bit]; decide), if_pos ready]
    · rw [refusedTaker, if_neg (by rw [bit]; decide), if_neg (by rw [ready]; decide), if_pos full]
    · intro image u c
      have order : c = recordTaken (.image p) r (withAlert p 7 s).chain := by
        simp only [c, u, withAlert_chain]
        unfold alertedChain
        rw [modTake_port_alerts]
        split <;> rfl
      rw [order]
      exact softTrigger_unsound hs hn hmask hset bit ready room offered bad supplied hrec hprog
  · intro q n trig h hbit hready hes hold hbusy hchain hneed hsound hrec e taken c bound
    have took (e : Entry) : taken e = { atPort p (joined n old e q) s.cable s with trig := trig } := rfl
    have entry : e = boundEntry (fireOf k s) none ⟨r, (buf, size, stride, fmt), none⟩ := rfl
    have writes (l : Option Addr) : bound (l.getD 0) = bindWrites (fireOf k s) none r l := rfl
    refine ⟨fun hl policy => ?_, fun l hl hlrec => ?_⟩
    · have none : bound 0 = bindWrites (fireOf k s) none r none := writes none
      rw [took, entry, none]
      exact softTrigger_behind hs hmask hset hn hbit hready hes hold hbusy hchain hneed hsound hrec hl policy
    · intro pairs e' cl lensDone
      have one : bound l = bindWrites (fireOf k s) none r (some l) := writes (some l)
      rw [took, one]
      refine ⟨fun sound => ?_, fun bad hwhole hprog => ?_⟩
      · obtain ⟨ps, hps⟩ := Option.isSome_iff_exists.mp sound
        have entry : e' = boundEntry (fireOf k s) none ⟨r, (buf, size, stride, fmt), some (l, some ps)⟩ := by
          simp only [e', entry, hps]
          rfl
        rw [entry]
        exact softTrigger_behind_lens hs hmask hset hn hbit hready hes hold hbusy hchain hneed hsound hrec hl hlrec hps
      · have entry : e' = boundEntry (fireOf k s) none ⟨r, (buf, size, stride, fmt), some (l, none)⟩ := by
          simp only [e', entry, bad]
          rfl
        rw [entry]
        exact softTrigger_behind_malformed hs hmask hset hn hbit hready hes hold hbusy hchain hneed hsound hrec hl hlrec bad hwhole hprog
  · intro i z ms n trig h stepped bit ready room offers lens sound least skipped done
    have struck (f : Taker → Taker) : stepped f = setStruck j k (fun t => f (stepPattern n t)) s := by
      simp only [stepped]
      rw [forPorts_modTake_eq]
      rfl
    have refused {reason : Code × Option PortId} (h1 : reason.1 ≠ .noBuffer) (h2 : reason.1 ≠ .badRecord) :
        bit true → setRefusal z (fireStart a k s) = some reason → ∃ t, exec i s = .next t ∧ done t (skipped reason (stepped id)) := by
      rintro ⟨q, hq, hbit⟩ hr
      rw [struck]
      exact softTrigger_setRefused hs hl hj hmask hn hq hbit hr h1 h2
    refine ⟨?_, ?_, ?_, ?_, ?_, ?_, ?_, ?_⟩
    · rintro ⟨q, hq, hbit⟩
      rw [struck fun t => { t with skips := t.skips + 1 }]
      exact softTrigger_setSkips hs hl hj hmask hn hq hbit
    · exact fun p hbit fails => refused nofun nofun hbit (setRefusal_notReady (v := fireStart a k s) fails)
    · exact fun p hbit hready fails => refused nofun nofun hbit (setRefusal_overtrigger (v := fireStart a k s) hready fails)
    · exact fun hbit hall full => refused nofun nofun hbit
        (setRefusal_fullSet (v := fireStart a k s) (fun q hq => (hall q hq).1) (fun q hq => (hall q hq).2) full)
    · rintro p ⟨q, hq, hbit⟩ hall hitems fails short u told
      have hr := setRefusal_noBuffer (v := fireStart a k s) (fun q hq => (hall q hq).1) (fun q hq => (hall q hq).2) hitems fails
      have shown := softTrigger_setUnserved hs hl hj hmask hn hq hbit hr
      have same : u = forPorts short (fun q => withAlert q 7) (skipped (.noBuffer, some p) (setStruck j k (stepPattern n) s)) := by
        simp only [u]
        rw [struck]
        rfl
      rw [same]
      exact shown
    · exact fun p hbit hall hitems fails => refused nofun nofun hbit (setRefusal_lensDry (v := fireStart a k s)
        (fun q hq => (hall q hq).1) (fun q hq => (hall q hq).2.1) hitems (fun q hq => (hall q hq).2.2) fails)
    · rintro p r ⟨q, hq, hbit⟩ hall hitems fails hothers hneed hrec hprog image c
      have hr := setRefusal_badRecord (v := fireStart a k s) (fun q hq => (hall q hq).1) (fun q hq => (hall q hq).2.1) hitems
        (fun q hq => (hall q hq).2.2.1) (fun q hq => (hall q hq).2.2.2) fails
      have bad : readImageRecord r h = none := by
        by_contra some
        exact fails.2.1 ⟨r, hneed, Option.isSome_iff_ne_none.mpr some⟩
      rw [struck]
      exact softTrigger_setUnsound hs hl hj hmask hn hq hbit hr fails.1 hneed bad hothers hrec hprog
    · rintro r x ⟨q, hq, hbit⟩ hready hitems hmem entry bound u c
      have shown := softTrigger_setTakes hs hl hj hmask hn hq hbit hready hitems hmem
      have same : u = forPorts ms (fun p => modPort p (exposing (boundEntry (fireOf k s) (some (j, z.number + 1)) (imageOffer r x p))))
          (setStruck j k (fun t => { stepPattern n t with takes := t.takes + 1 }) s) := by
        simp only [u]
        rw [struck fun t => { t with takes := t.takes + 1 }]
        rfl
      rw [same]
      exact shown

end Sys2Proof.Machine
end
